-- ==== Sys2Proof/Word.lean ====
section
/-! DEFINITION. Words, bytes and the one sparse table type in which the model holds memories and numbered units. -/
namespace Sys2Proof

/-- An instruction word (R75). -/
abbrev Word := BitVec 32
/-- A scalar register, an address or a control register (R103). -/
abbrev W64 := BitVec 64
/-- A vector register (R103). -/
abbrev Vec := BitVec 512
/-- A scalar register number (R80). -/
abbrev Reg := BitVec 5
/-- A vector register number (R80). -/
abbrev VReg := BitVec 4
/-- A predicate or channel register number (R80). -/
abbrev PReg := BitVec 3
abbrev Byte := BitVec 8

/-- A table of numbered items; an unlisted number holds the default `d` that its user names.
In canonical form the numbers rise strictly and no listed item equals the default. -/
abbrev Sparse (α : Type) := List (Nat × α)

/-- The item at number `i`. -/
def sget {α : Type} (d : α) : Sparse α → Nat → α
  | [], _ => d
  | (k, v) :: t, i => if k = i then v else sget d t i

/-- The table without number `i`. -/
def sdel {α : Type} : Sparse α → Nat → Sparse α
  | [], _ => []
  | (k, v) :: t, i => if k = i then sdel t i else (k, v) :: sdel t i

/-- The table with `(i, v)` put in its place by rising number. -/
def sins {α : Type} : Sparse α → Nat → α → Sparse α
  | [], i, v => [(i, v)]
  | (k, w) :: t, i, v => if i < k then (i, v) :: (k, w) :: t else (k, w) :: sins t i v

/-- The table in which number `i` holds `v`; storing the default removes the entry. -/
def sset {α : Type} [DecidableEq α] (d : α) (m : Sparse α) (i : Nat) (v : α) : Sparse α :=
  if v = d then sdel m i else sins (sdel m i) i v

/-- The numbers of the table lie above `lo` and rise strictly, and no item is the default. -/
def swfFrom {α : Type} [DecidableEq α] (d : α) : Option Nat → Sparse α → Bool
  | _, [] => true
  | none, (k, v) :: t => decide (v ≠ d) && swfFrom d (some k) t
  | some lo, (k, v) :: t => decide (lo < k) && decide (v ≠ d) && swfFrom d (some k) t

/-- The canonical form of a table. -/
def swf {α : Type} [DecidableEq α] (d : α) (m : Sparse α) : Bool := swfFrom d none m

/-- The bits `[hi:lo]` of a number (R7). -/
def bits (x hi lo : Nat) : Nat := (x >>> lo) % 2 ^ (hi + 1 - lo)

/-- Bit `i` of a number. -/
def bit (x i : Nat) : Bool := x.testBit i

/-- The two's complement reading of the low `n` bits. -/
def toSigned (n x : Nat) : Int :=
  let y := x % 2 ^ n
  if 2 ^ n ≤ 2 * y then (y : Int) - (2 : Int) ^ n else y

/-- The low `n` bits of an integer, as a number. -/
def wrapTo (n : Nat) (x : Int) : Nat := (x % (2 : Int) ^ n).toNat

/-- An integer held between two bounds. -/
def clampInt (lo hi x : Int) : Int := if x < lo then lo else if hi < x then hi else x

/-- `1` for true, `0` for false. -/
def bnat (b : Bool) : Nat := if b then 1 else 0

/-- `n` numbers from `i` on, rising. -/
def upFrom (i : Nat) : Nat → List Nat
  | 0 => []
  | n + 1 => i :: upFrom (i + 1) n

end Sys2Proof
end

