-- ==== Sys2Proof/Config.lean ====
section
/-! DEFINITION. What the specification leaves open: free values, each an uninterpreted function of what it may depend on. -/
namespace Sys2Proof.Config

/-- Cycles that an unpromised transport or service takes beyond the cycle after its start, by message number
(R21, R196, R266, R333, R362, R408, R499). Log 3. -/
opaque delay : Nat → Nat

/-- Cycles beyond the first, modulo 32, that a unit's bits take to the root of the quiescence tree (R408). Log 3. -/
opaque treeDelay : Nat → Nat

/-- The instruction-word field of a trap record whose PC lies outside the code store (R76, R183). Log 5. -/
opaque wordOutsideStore : BitVec 64 → BitVec 32

/-- A byte of host memory that the device has not written (R199). Log 8. -/
opaque hostByte : Nat → BitVec 8

/-- The syndrome field of an error record, by the global address of the word (R252). Log 5. -/
opaque syndrome : Nat → BitVec 21

/-- The location fields of an error record for a word without a global address (R252), by unit and word. Log 5. -/
opaque itemSpace : Nat → Nat → BitVec 4
opaque itemGa : Nat → Nat → BitVec 64

/-- A lane that a data-plane conversion to a narrower format gives no source (R296), by island, node, cycle and lane. Log 5. -/
opaque unstatedLane : Nat → Nat → Nat → Nat → BitVec 32

/-- Bits of a raw scan chain that are not architectural (R433), by unit and bit number. Log 9. -/
opaque scanBit : Nat → Nat → Bool

/-- What word `n` of the scan chain of a column holds by the scan map: 8 bytes of its tiles (`false`) or of its scratch (`true`), by number,
or other latches (R147, R221, R433). Log 9. -/
opaque scanItem : Nat → Option (Bool × Nat)

/-- The scan map of the silicon revision, which SCANMAP returns (R433, R464). Log 9. -/
opaque scanMap : Nat → BitVec 8

/-- A reading of a platform sensor (R463), by sensor and reading number. Log 10. -/
opaque sensor : Nat → Nat → BitVec 32

/-- The signature of an attestation (R466) over the registers and the nonce. Log 10. -/
opaque signature : List (BitVec 8) → List (BitVec 8)

/-- The certificate of the package identity key (R466). Log 10. -/
opaque certificate : List (BitVec 8)

/-- Whether a firmware image verifies against the fused vendor key (R466). Log 10. -/
opaque firmwareSigned : List (BitVec 8) → Bool

/-- Whether the security version of a firmware image lies below the fused minimum (R466). Log 10. -/
opaque firmwareOld : List (BitVec 8) → Bool

/-- The SHAKE256 measurement step of R466, `M := SHAKE256(M ‖ D)` with a 512-bit output (FIPS 202). Log 10. -/
opaque shake256 : List (BitVec 8) → BitVec 512

/-- A byte of a UCIe flit that replay capture records (R459, R471), by message number and place. Log 10. -/
opaque flitByte : Nat → Nat → BitVec 8

/-- How fast a time base slews (R462): eighteenths of a nanosecond per cycle, modulo 9, less 1. Log 10. -/
opaque slewRate : Nat

/-- The answer to a PLDM base command (DSP0240). Log 10. -/
opaque pldmBase : Nat → List (BitVec 8)

/-- The bytes of an image, a table or another object of boot that the boot ROM measures (R466). Log 10. -/
opaque bootObject : Nat → List (BitVec 8)

end Sys2Proof.Config
end

