-- ==== Sys2Proof/Syntax.lean ====
section
/-! DEFINITION. The syntax of the machine: the operand kinds, and one constructor of `Instr` for every row of the spec's table.
The rows with an encoding are the words a thread issues; the other rows are the indivisible steps of engines, islands,
host, management and package, each with the data that says which one it is. -/
namespace Sys2Proof

/-- Element formats (R44), without the reserved codes. -/
inductive Fmt where
  | int8 | int32 | fp32 | fp16 | bf16 | ps2 | ps1 | sd | int16
deriving DecidableEq, Repr

/-- Lane types of the V format (R47). -/
inductive LaneType where
  | i32 | f32 | i16 | f16 | bf16 | i8
deriving DecidableEq, Repr

/-- Access sizes (R82). -/
inductive MSize where
  | b | h | w | d | v
deriving DecidableEq, Repr

/-- Scopes (R82, R227). -/
inductive Scope where
  | core | col | pkg | chain | sys
deriving DecidableEq, Repr

/-- Integer conditions (R115). -/
inductive Cond where
  | eq | ne | lt | ge | ltu | geu
deriving DecidableEq, Repr

/-- Floating-point conditions (R126). -/
inductive FCond where
  | eq | ne | lt | le
deriving DecidableEq, Repr

/-- Ordering of an atomic (R213). -/
inductive AmoOrd where
  | plain | acq (s : Scope) | rel (s : Scope)
deriving DecidableEq, Repr

/-- Width of an atomic of major 0x28 (R213). -/
inductive AmoSize where
  | w | d
deriving DecidableEq, Repr

/-- Operations of VAMO (R218). -/
inductive VamoOp where
  | add | and | or | xor | min | max | minu | maxu | swap | fadd
deriving DecidableEq, Repr

/-- Stationary weight formats (R159). -/
inductive WFmt where
  | ps1 | ps2 | int8 | bf16
deriving DecidableEq, Repr

/-- Activation formats (R159). -/
inductive AFmt where
  | int8 | bf16
deriving DecidableEq, Repr

/-- Token kinds (R255), without the reserved ones. -/
inductive TokKind where
  | value | coord | pair | ref | empty | stop | done | fold | sdv | permit
deriving DecidableEq, Repr

/-- Shuffles (R135). -/
inductive ShufKind where
  | ziplo | ziphi | unzipe | unzipo
deriving DecidableEq, Repr

/-- Reductions (R136). -/
inductive RedOp where
  | sum | max | min
deriving DecidableEq, Repr

/-- What TRESUME does to its target (R186). -/
inductive ResumeAct where
  | retry | skip | kill
deriving DecidableEq, Repr

/-- Target of RGSET and RGGET (R366). -/
inductive RgTarget where
  | entry (i : BitVec 5)
  | island (k : BitVec 4) (i : BitVec 5)
  | ctag (n : BitVec 4)
  | itag (k : BitVec 4)
deriving DecidableEq, Repr

/-- A 72-bit token {kind, aux, payload} (R254). -/
abbrev Tok := BitVec 72

/-- A trap before its record is made: the cause and the parts of the record that the raiser gives (R183). -/
structure TrapInfo where
  cause : Nat
  sub : Nat := 0
  detail : Nat := 0
  w2 : W64 := 0
  gangp : Bool := false
deriving DecidableEq, Repr

/-- What a reply brings to a parked thread: register writes and completion of the instruction, or a trap (R38, R212). -/
inductive Reply where
  | done (sregs : List (Reg × W64)) (vregs : List (VReg × Vec))
  | trap (i : TrapInfo)
  /-- INVOKE is accepted (R276): the island, the invocation, and for each channel register whether it feeds a PORTIN, its edge port and
  the port's depth -/
  | bind (k inv : Nat) (l : List (PReg × Bool × Nat × Nat))
deriving DecidableEq, Repr

/-- An operation on its way to the dealer (R349). -/
inductive DealerOp where
  | push (key demand : W64) (d : Reg)
  | key (key : W64) (d : Reg)
  | del (key : W64) (d : Reg)
  | pop (list : W64) (d : Reg)
deriving DecidableEq, Repr

/-- An operation on its way to the sequence table and the abort list (R414). -/
inductive SeqOp where
  | draw (slot : Nat) (d : Reg)
  | accept (slot : Nat) (ids : W64) (d : Reg)
  | commit (req : W64) (d : Reg)
  | abort (iter : Nat)
deriving DecidableEq, Repr

/-- An INVOKE request (R276): the thread, the graph, the operands, the first port, the first register and their number. -/
structure InvReq where
  thr : Nat
  graph : Nat
  ops : List W64
  port : Nat
  ch : Nat
  n : Nat
deriving DecidableEq, Repr

/-- A request of the major 0x31 instructions that the island applies (R397). -/
inductive IslCmd where
  | garg (thr : Nat) (graph slot : Nat) (val : W64) (d : Reg)
  | gdrain (thr : Nat) (graph : Nat) (d : Reg)
  | greconf (thr : Nat) (graph : Nat) (d : Reg)
deriving DecidableEq, Repr

/-- A dataflow block on its way to an island: header and node words (R87). -/
structure InstallReq where
  thr : Nat
  d : Reg
  words : List (BitVec 128)
deriving DecidableEq, Repr

/-- A packet of a transit delivery (R318): the producer and its channel, the branch, the consumer and its channel, the tag and
length of the send, the byte offset in the slot, its place in the order of emission, and eight words with their error marks. -/
structure TransitPkt where
  prod : Nat
  out : Nat
  branch : Nat
  cons : Nat
  inc : Nat
  tag : Nat
  len : Nat
  off : Nat
  emit : Nat
  data : List (W64 × Bool)
deriving DecidableEq, Repr

/-- What a gate names (R438). -/
inductive GateUnit where
  | dealer | launch | chans (col mask : Nat)
deriving DecidableEq, Repr

/-- An access or an answer that arrives over a UCIe link (R460). -/
inductive ChainOp where
  | load (ga n : Nat)
  | store (ga : Nat) (data : List Byte) (full : Bool)
  | fe (ga n : Nat) (empty : Bool)
  | amo (ga : Nat) (op : Nat) (size : AmoSize) (x c : W64)
  | vamo (ga : Nat) (op : VamoOp) (lt : LaneType) (x : BitVec 256)
  | bits (ga n : Nat) (full : Bool)
  /-- an invalidation or a window update of chain scope (R373): its numbers and words -/
  | tables (win : Bool) (sel a b : W64)
  /-- the answer to the message of the same number: data, and the cause of a failure -/
  | answer (data : List Byte) (bad : Nat)
  /-- the full/empty access of the same number has joined a wait list, or is served from it (R201, R209) -/
  | feWait (served : Bool)
  /-- the access of the same number is withdrawn from its wait list (R220, R221), and the answer that it has been -/
  | withdraw
  | withdrawn
deriving DecidableEq, Repr

/-- A frozen or freezing partition (R427). -/
inductive Partition where
  | column (c : Nat) | island (k : Nat)
deriving DecidableEq, Repr

/-- A segment that the patrol tester may claim (R247): a stacked segment of a column, or a quarter of its scratch. -/
inductive PatrolSeg where
  | stacked (col seg : Nat) | scratch (col quarter : Nat)
deriving DecidableEq, Repr

/-- One constructor for each row of the spec's table of operations and events. -/
inductive Instr where
  /-- ILL (R111) -/
  | ill
  /-- RESERVED_ENCODING (R83) -/
  | reservedEncoding (w : Word)
  /-- ADD (R111) -/
  | add (d a b : Reg)
  /-- SUB (R111) -/
  | sub (d a b : Reg)
  /-- AND (R111) -/
  | and (d a b : Reg)
  /-- OR (R111) -/
  | or (d a b : Reg)
  /-- XOR (R111) -/
  | xor (d a b : Reg)
  /-- ANDN (R111) -/
  | andn (d a b : Reg)
  /-- MIN (R111) -/
  | min (d a b : Reg)
  /-- MAX (R111) -/
  | max (d a b : Reg)
  /-- MINU (R111) -/
  | minu (d a b : Reg)
  /-- MAXU (R111) -/
  | maxu (d a b : Reg)
  /-- SHL (R112) -/
  | shl (d a b : Reg)
  /-- SHR (R112) -/
  | shr (d a b : Reg)
  /-- SRA (R112) -/
  | sra (d a b : Reg)
  /-- ROL (R112) -/
  | rol (d a b : Reg)
  /-- ROR (R112) -/
  | ror (d a b : Reg)
  /-- MUL (R113) -/
  | mul (d a b : Reg)
  /-- MULH (R113) -/
  | mulh (d a b : Reg)
  /-- MULHU (R113) -/
  | mulhu (d a b : Reg)
  /-- DIV (R113) -/
  | div (d a b : Reg)
  /-- DIVU (R113) -/
  | divu (d a b : Reg)
  /-- REM (R113) -/
  | rem (d a b : Reg)
  /-- REMU (R113) -/
  | remu (d a b : Reg)
  /-- CLZ (R114) -/
  | clz (d a : Reg)
  /-- CTZ (R114) -/
  | ctz (d a : Reg)
  /-- POPC (R114) -/
  | popc (d a : Reg)
  /-- BEXT (R114) -/
  | bext (d a b : Reg)
  /-- BINS (R114) -/
  | bins (d a b : Reg)
  /-- SXT_B (R114) -/
  | sxtB (d a : Reg)
  /-- SXT_H (R114) -/
  | sxtH (d a : Reg)
  /-- SXT_W (R114) -/
  | sxtW (d a : Reg)
  /-- CMP (R115) -/
  | cmp (p : PReg) (c : Cond) (a b : Reg)
  /-- ADDI (R116) -/
  | addi (d a : Reg) (imm : BitVec 16)
  /-- ANDI (R116) -/
  | andi (d a : Reg) (imm : BitVec 16)
  /-- ORI (R116) -/
  | ori (d a : Reg) (imm : BitVec 16)
  /-- XORI (R116) -/
  | xori (d a : Reg) (imm : BitVec 16)
  /-- SHLI (R117) -/
  | shli (d a : Reg) (k : BitVec 6)
  /-- SHRI (R117) -/
  | shri (d a : Reg) (k : BitVec 6)
  /-- SRAI (R117) -/
  | srai (d a : Reg) (k : BitVec 6)
  /-- CMPI (R115) -/
  | cmpi (p : PReg) (c : Cond) (a : Reg) (imm : BitVec 13)
  /-- MOVK (R118) -/
  | movk (d : Reg) (k : BitVec 2) (imm : BitVec 16)
  /-- FADD (R124) -/
  | fadd (d a b : Reg)
  /-- FSUB (R124) -/
  | fsub (d a b : Reg)
  /-- FMUL (R124) -/
  | fmul (d a b : Reg)
  /-- FDIV (R124) -/
  | fdiv (d a b : Reg)
  /-- FSQRT (R124) -/
  | fsqrt (d a : Reg)
  /-- FMIN (R124) -/
  | fmin (d a b : Reg)
  /-- FMAX (R124) -/
  | fmax (d a b : Reg)
  /-- FMA (R125) -/
  | fma (d a b : Reg)
  /-- FMS (R125) -/
  | fms (d a b : Reg)
  /-- FNMA (R125) -/
  | fnma (d a b : Reg)
  /-- FCMP (R126) -/
  | fcmp (p : PReg) (c : FCond) (a b : Reg)
  /-- FCLASS (R126) -/
  | fclass (d a : Reg)
  /-- FCVT (R127) -/
  | fcvt (d a : Reg) (dst src : Fmt)
  /-- BRA (R119) -/
  | bra (neg : Bool) (p : PReg) (off : BitVec 21)
  /-- CALL (R120) -/
  | call (l : Reg) (off : BitVec 21)
  /-- LOOP (R121) -/
  | loop (c : Reg) (off : BitVec 21)
  /-- JMPR (R122) -/
  | jmpr (a : Reg)
  /-- CALLR (R122) -/
  | callr (d a : Reg)
  /-- PAND (R122) -/
  | pand (d a b : PReg)
  /-- POR (R122) -/
  | por (d a b : PReg)
  /-- PXOR (R122) -/
  | pxor (d a b : PReg)
  /-- PNOT (R122) -/
  | pnot (d a : PReg)
  /-- PMOV_FROM_SCALAR (R122) -/
  | pmovFromScalar (d : PReg) (a : Reg)
  /-- PMOV_TO_SCALAR (R122) -/
  | pmovToScalar (d : Reg) (a : PReg)
  /-- VADD (R130) -/
  | vadd (lt : LaneType) (g : PReg) (d a b : VReg)
  /-- VSUB (R130) -/
  | vsub (lt : LaneType) (g : PReg) (d a b : VReg)
  /-- VMUL (R130) -/
  | vmul (lt : LaneType) (g : PReg) (d a b : VReg)
  /-- VMIN (R130) -/
  | vmin (lt : LaneType) (g : PReg) (d a b : VReg)
  /-- VMAX (R130) -/
  | vmax (lt : LaneType) (g : PReg) (d a b : VReg)
  /-- VABS (R130) -/
  | vabs (lt : LaneType) (g : PReg) (d a : VReg)
  /-- VADDS (R130) -/
  | vadds (lt : LaneType) (g : PReg) (d a b : VReg)
  /-- VSUBS (R130) -/
  | vsubs (lt : LaneType) (g : PReg) (d a b : VReg)
  /-- VFADD (R131) -/
  | vfadd (lt : LaneType) (g : PReg) (d a b : VReg)
  /-- VFSUB (R131) -/
  | vfsub (lt : LaneType) (g : PReg) (d a b : VReg)
  /-- VFMUL (R131) -/
  | vfmul (lt : LaneType) (g : PReg) (d a b : VReg)
  /-- VFDIV (R131) -/
  | vfdiv (lt : LaneType) (g : PReg) (d a b : VReg)
  /-- VFMIN (R131) -/
  | vfmin (lt : LaneType) (g : PReg) (d a b : VReg)
  /-- VFMAX (R131) -/
  | vfmax (lt : LaneType) (g : PReg) (d a b : VReg)
  /-- VFMA (R132) -/
  | vfma (lt : LaneType) (g : PReg) (d a b : VReg)
  /-- VFMS (R132) -/
  | vfms (lt : LaneType) (g : PReg) (d a b : VReg)
  /-- VCMP (R133) -/
  | vcmp (lt : LaneType) (g : PReg) (p : PReg) (all : Bool) (c : Cond) (a b : VReg)
  /-- VFCMP (R133) -/
  | vfcmp (lt : LaneType) (g : PReg) (p : PReg) (all : Bool) (c : FCond) (a b : VReg)
  /-- VAND (R134) -/
  | vand (g : PReg) (d a b : VReg)
  /-- VOR (R134) -/
  | vor (g : PReg) (d a b : VReg)
  /-- VXOR (R134) -/
  | vxor (g : PReg) (d a b : VReg)
  /-- VSHL (R134) -/
  | vshl (lt : LaneType) (g : PReg) (d a b : VReg)
  /-- VSHR (R134) -/
  | vshr (lt : LaneType) (g : PReg) (d a b : VReg)
  /-- VSRA (R134) -/
  | vsra (lt : LaneType) (g : PReg) (d a b : VReg)
  /-- VSEL (R134) -/
  | vsel (g : PReg) (d a b : VReg)
  /-- VBCAST (R135) -/
  | vbcast (lt : LaneType) (g : PReg) (d a : VReg) (l : BitVec 6)
  /-- VPERM (R135) -/
  | vperm (lt : LaneType) (g : PReg) (d a b : VReg)
  /-- VSHUF (R135) -/
  | vshuf (lt : LaneType) (g : PReg) (d a b : VReg) (k : ShufKind)
  /-- VSLIDE (R135) -/
  | vslide (lt : LaneType) (g : PReg) (d a b : VReg) (k : BitVec 6)
  /-- VRED (R136) -/
  | vred (lt : LaneType) (g : PReg) (d a : VReg) (op : RedOp)
  /-- VCVT (R137) -/
  | vcvt (src dst : LaneType) (g : PReg) (d a : VReg) (part : BitVec 2)
  /-- VLOG2 (R138) -/
  | vlog2 (g : PReg) (d a : VReg)
  /-- VEXP2 (R138) -/
  | vexp2 (g : PReg) (d a : VReg)
  /-- VMOVS (R139) -/
  | vmovs (lt : LaneType) (g : PReg) (d : VReg) (s : Reg)
  /-- VINS (R139) -/
  | vins (lt : LaneType) (g : PReg) (d : VReg) (s : Reg) (l : BitVec 6)
  /-- VEXT (R139) -/
  | vext (lt : LaneType) (g : PReg) (s : Reg) (d : VReg) (l : BitVec 6)
  /-- VMOVP (R139) -/
  | vmovp (g : PReg) (d a : VReg)
  /-- TLD (R157) -/
  | tld (t a b : Reg)
  /-- TST (R157) -/
  | tst (t a b : Reg)
  /-- TVGET (R158) -/
  | tvget (d : VReg) (t b : Reg)
  /-- TVSET (R158) -/
  | tvset (t : Reg) (a : VReg) (b : Reg)
  /-- MWLD (R160) -/
  | mwld (f : WFmt) (pl : Bool) (a s : Reg) (tag : BitVec 4)
  /-- MWLT (R160) -/
  | mwlt (f : WFmt) (pl : Bool) (t s : Reg) (tag : BitVec 4)
  /-- MGO (R161) -/
  | mgo (f : AFmt) (acc : BitVec 2) (t : Reg) (pl : Bool) (tag : BitVec 4) (add : Bool) (mask : Bool) (r : Reg)
  /-- MOUT_TILE (R163) -/
  | moutTile (f : Fmt) (t : Reg) (acc : BitVec 2) (emp : Bool)
  /-- MOUT_MEMORY (R163) -/
  | moutMemory (f : Fmt) (d : Reg) (acc : BitVec 2) (r : Reg) (emp : Bool)
  /-- MGOS (R164) -/
  | mgos (f : AFmt) (acc : BitVec 2) (c : PReg) (m : Reg) (pl : Bool) (tag : BitVec 4) (add : Bool)
  /-- MMASK (R165) -/
  | mmask (t : Reg)
  /-- MHOLD (R166) -/
  | mhold
  /-- MYIELD (R166) -/
  | myield
  /-- MCLR (R166) -/
  | mclr (acc : BitVec 2)
  /-- CRRD (R185) -/
  | crrd (d : Reg) (n : BitVec 14)
  /-- CRWR (R185) -/
  | crwr (a : Reg) (n : BitVec 14)
  /-- CRSET (R185) -/
  | crset (a : Reg) (n : BitVec 14)
  /-- CRCLR (R185) -/
  | crclr (a : Reg) (n : BitVec 14)
  /-- TRAP (R186) -/
  | trap (imm : BitVec 12)
  /-- BKPT (R186) -/
  | bkpt (imm : BitVec 12)
  /-- TQPOP (R186) -/
  | tqpop (d : Reg) (nw : Bool)
  /-- TRESUME (R186) -/
  | tresume (d a : Reg) (act : ResumeAct)
  /-- LD (R207) -/
  | ld (z : MSize) (d b : Reg) (off : BitVec 8)
  /-- LD_ACQ (R219) -/
  | ldAcq (z : MSize) (s : Scope) (d b : Reg) (off : BitVec 8)
  /-- LDS (R209) -/
  | lds (z : MSize) (d b : Reg) (off : BitVec 8)
  /-- LDU (R207) -/
  | ldu (z : MSize) (d b : Reg) (off : BitVec 8)
  /-- LDU_ACQ (R219) -/
  | lduAcq (z : MSize) (s : Scope) (d b : Reg) (off : BitVec 8)
  /-- ST (R208) -/
  | st (z : MSize) (d b : Reg) (off : BitVec 8)
  /-- ST_REL (R219) -/
  | stRel (z : MSize) (s : Scope) (d b : Reg) (off : BitVec 8)
  /-- STF (R211) -/
  | stf (z : MSize) (d b : Reg) (off : BitVec 8)
  /-- LDSE (R210) -/
  | ldse (z : MSize) (d b : Reg) (off : BitVec 8)
  /-- AMOADD (R214) -/
  | amoadd (z : AmoSize) (o : AmoOrd) (d a b : Reg)
  /-- AMOAND (R214) -/
  | amoand (z : AmoSize) (o : AmoOrd) (d a b : Reg)
  /-- AMOOR (R214) -/
  | amoor (z : AmoSize) (o : AmoOrd) (d a b : Reg)
  /-- AMOXOR (R214) -/
  | amoxor (z : AmoSize) (o : AmoOrd) (d a b : Reg)
  /-- AMOMIN (R214) -/
  | amomin (z : AmoSize) (o : AmoOrd) (d a b : Reg)
  /-- AMOMAX (R214) -/
  | amomax (z : AmoSize) (o : AmoOrd) (d a b : Reg)
  /-- AMOMINU (R214) -/
  | amominu (z : AmoSize) (o : AmoOrd) (d a b : Reg)
  /-- AMOMAXU (R214) -/
  | amomaxu (z : AmoSize) (o : AmoOrd) (d a b : Reg)
  /-- AMOSWAP (R214) -/
  | amoswap (z : AmoSize) (o : AmoOrd) (d a b : Reg)
  /-- AMOCAS (R214) -/
  | amocas (z : AmoSize) (o : AmoOrd) (d a b : Reg)
  /-- FENCE (R216) -/
  | fence (s : Scope)
  /-- FESET (R217) -/
  | feset (a : Reg) (n : BitVec 8)
  /-- FECLR (R217) -/
  | feclr (a : Reg) (n : BitVec 8)
  /-- VAMO (R218) -/
  | vamo (op : VamoOp) (lt : LaneType) (d : VReg) (a : Reg)
  /-- CSEND (R271) -/
  | csend (c : PReg) (k : TokKind) (aux : BitVec 4) (s : Reg)
  /-- CRECV (R272) -/
  | crecv (d e : Reg) (c : PReg)
  /-- CPOLL (R273) -/
  | cpoll (d : Reg) (c : PReg)
  /-- INVOKE (R276) -/
  | invoke (d : Reg) (k : BitVec 3) (b : PReg) (m : BitVec 4)
  /-- XBIND (R323) -/
  | xbind (o : PReg) (a : Reg) (n : BitVec 3)
  /-- XSEND (R323) -/
  | xsend (o : PReg) (a d : Reg)
  /-- XRECV (R324) -/
  | xrecv (d : Reg) (i : PReg)
  /-- XFREE (R325) -/
  | xfree (i : PReg)
  /-- XFLUSH (R321) -/
  | xflush (o : PReg)
  /-- XFOLD (R320) -/
  | xfold (o : PReg) (a : Reg)
  /-- XSTAT (R327) -/
  | xstat (d : Reg) (inb : Bool) (c : PReg)
  /-- CPY (R329) -/
  | cpy (a : Reg)
  /-- LSWAP (R330) -/
  | lswap (a : Reg)
  /-- ENGSTAT (R334) -/
  | engstat (d : Reg) (swap : Bool)
  /-- SPAWN (R345) -/
  | spawn (d a : Reg)
  /-- EXIT (R346) -/
  | exit
  /-- YIELD (R347) -/
  | yield (n : BitVec 12)
  /-- DPUSH (R349) -/
  | dpush (d a : Reg)
  /-- DKEY (R349) -/
  | dkey (d a : Reg)
  /-- DDEL (R349) -/
  | ddel (d a : Reg)
  /-- DPOP (R351) -/
  | dpop (d a : Reg)
  /-- DEALER_OPERATION (R349) -/
  | dealerOperation (t : Nat) (op : DealerOp)
  /-- RGSET (R367) -/
  | rgset (d : Reg) (t : RgTarget) (a : Reg)
  /-- RGGET (R368) -/
  | rgget (d : Reg) (t : RgTarget)
  /-- RGPROBE (R369) -/
  | rgprobe (d a : Reg)
  /-- RGSPLIT (R371) -/
  | rgsplit (d : Reg) (i j : BitVec 5) (a : Reg)
  /-- RGMERGE (R371) -/
  | rgmerge (d : Reg) (i j : BitVec 5)
  /-- RGRES (R377) -/
  | rgres (s : Scope) (d a : Reg)
  /-- RGINV (R374) -/
  | rginv (s : Scope) (nw : Bool) (d a : Reg)
  /-- RGSYNC (R375) -/
  | rgsync
  /-- RGCPT (R378) -/
  | rgcpt (a : Reg)
  /-- GINSTALL (R397) -/
  | ginstall (d a : Reg) (k : BitVec 4)
  /-- GARG (R397) -/
  | garg (d a : Reg) (j : BitVec 7)
  /-- GDRAIN (R397) -/
  | gdrain (d a : Reg)
  /-- GRECONF (R397) -/
  | greconf (d a : Reg)
  /-- BARJ (R406) -/
  | barj (d : Reg) (n : BitVec 4)
  /-- BARW (R406) -/
  | barw (a : Reg) (n : BitVec 4)
  /-- CNTINC (R406) -/
  | cntinc (n : BitVec 4) (a : Reg)
  /-- CNTWAIT (R406) -/
  | cntwait (n : BitVec 4) (a : Reg)
  /-- RNGDRAW (R417) -/
  | rngdraw (d a : Reg)
  /-- SNOISE (R418) -/
  | snoise (v : VReg) (a : Reg)
  /-- SMAXK (R419) -/
  | smaxk (d : Reg) (v : VReg) (a : Reg) (new : Bool)
  /-- ACCEPT (R420) -/
  | accept (d a : Reg)
  /-- KVCOMMIT (R421) -/
  | kvcommit (d a : Reg)
  /-- GENABORT (R422) -/
  | genabort (a : Reg)
  /-- SEQUENCE_TABLE_OPERATION (R414) -/
  | sequenceTableOperation (t : Nat) (op : SeqOp)
  /-- GATE (R438) -/
  | gate (a : Reg) (opn : Bool)
  /-- QWAIT (R439) -/
  | qwait (d a : Reg)
  /-- CTXSAVE (R440) -/
  | ctxsave (d a : Reg)
  /-- CTXLOAD (R440) -/
  | ctxload (d a : Reg)
  /-- PARK_WAKE (R341) -/
  | parkWake (t : Nat)
  /-- MEM_REPLY (R38) -/
  | memReply (t : Nat) (r : Reply)
  /-- OWNER_ACCESS (R224) -/
  | ownerAccess (seq : Nat)
  /-- FE_WAIT_SERVICE (R201) -/
  | feWaitService (seq : Nat)
  /-- FE_WAIT_RESEND (R202) -/
  | feWaitResend (t : Nat)
  /-- ECC_WRITEBACK (R241) -/
  | eccWriteback (ga : Nat)
  /-- GANG_COMPARE (R150) -/
  | gangCompare (c : Nat)
  /-- GANG_START (R151) -/
  | gangStart (c id : Nat)
  /-- GANG_COMPLETE (R152) -/
  | gangComplete (c id : Nat)
  /-- GANG_ABORT (R153) -/
  | gangAbort (c id : Nat)
  /-- ARRAY_WATCHDOG (R40) -/
  | arrayWatchdog (c : Nat)
  /-- WAIT_WATCHDOG (R403) -/
  | waitWatchdog (t : Nat)
  /-- DEADLOCK (R435) -/
  | deadlock (c : Nat)
  /-- QUIESCENCE_REPORT (R408) -/
  | quiescenceReport (t : Nat)
  /-- QWAIT_LIMIT (R439) -/
  | qwaitLimit (t : Nat)
  /-- RETENTION_ENTER (R244) -/
  | retentionEnter (c g : Nat)
  /-- RETENTION_ENTER_DONE (R245) -/
  | retentionEnterDone (c g : Nat)
  /-- RETENTION_EXIT_DONE (R246) -/
  | retentionExitDone (c g : Nat)
  /-- PATROL_CLAIM (R247) -/
  | patrolClaim (g : PatrolSeg)
  /-- PATROL_CHUNK_DONE (R248) -/
  | patrolChunkDone (fails : List Nat)
  /-- PATROL_RELEASE (R249) -/
  | patrolRelease
  /-- CHANNEL_TOKEN_DEPART (R266) -/
  | channelTokenDepart (t c : Nat)
  /-- CHANNEL_TOKEN_ARRIVE (R265) -/
  | channelTokenArrive (t c : Nat) (inv : Nat) (tok : Tok)
  /-- INVOKE_REQUEST (R499) -/
  | invokeRequest (k : Nat) (r : InvReq)
  /-- INVOKE_ANSWER (R499) -/
  | invokeAnswer (t : Nat) (r : Reply)
  /-- INVOCATION_START (R307) -/
  | invocationStart (k : Nat)
  /-- ACTIVE_NOTICE (R276) -/
  | activeNotice (t inv : Nat)
  /-- INVOCATION_END (R307) -/
  | invocationEnd (k : Nat)
  /-- NODE_FAULT_REPORT (R309) -/
  | nodeFaultReport (k : Nat)
  /-- ISLAND_FAULT_TRAP (R268) -/
  | islandFaultTrap (t inv : Nat) (i : TrapInfo)
  /-- SCAN (R291) -/
  | scan (k n : Nat)
  /-- SCANL (R291) -/
  | scanl (k n : Nat)
  /-- INTERSECT (R292) -/
  | intersect (k n : Nat)
  /-- UNION (R292) -/
  | union (k n : Nat)
  /-- REPEAT (R293) -/
  | repeatNode (k n : Nat)
  /-- REDUCE (R294) -/
  | reduce (k n : Nat)
  /-- ALU_ADD (R295) -/
  | aluAdd (k n : Nat)
  /-- ALU_SUB (R295) -/
  | aluSub (k n : Nat)
  /-- ALU_MUL (R295) -/
  | aluMul (k n : Nat)
  /-- ALU_DIV (R295) -/
  | aluDiv (k n : Nat)
  /-- ALU_MIN (R295) -/
  | aluMin (k n : Nat)
  /-- ALU_MAX (R295) -/
  | aluMax (k n : Nat)
  /-- ALU_AND (R295) -/
  | aluAnd (k n : Nat)
  /-- ALU_OR (R295) -/
  | aluOr (k n : Nat)
  /-- ALU_XOR (R295) -/
  | aluXor (k n : Nat)
  /-- ALU_SHL (R295) -/
  | aluShl (k n : Nat)
  /-- ALU_SHR (R295) -/
  | aluShr (k n : Nat)
  /-- ALU_ABS (R295) -/
  | aluAbs (k n : Nat)
  /-- ALU_NEG (R295) -/
  | aluNeg (k n : Nat)
  /-- ALU_PASS (R295) -/
  | aluPass (k n : Nat)
  /-- ALU_CMP (R295) -/
  | aluCmp (k n : Nat)
  /-- ALU_FMA (R295) -/
  | aluFma (k n : Nat)
  /-- CVT (R296) -/
  | cvt (k n : Nat)
  /-- SD2B (R296) -/
  | sd2b (k n : Nat)
  /-- B2SD (R296) -/
  | b2sd (k n : Nat)
  /-- WCONV (R296) -/
  | wconv (k n : Nat)
  /-- STEER (R297) -/
  | steer (k n : Nat)
  /-- MERGE (R297) -/
  | merge (k n : Nat)
  /-- CARRY (R297) -/
  | carry (k n : Nat)
  /-- INVARIANT (R297) -/
  | invariant (k n : Nat)
  /-- SELECT (R297) -/
  | select (k n : Nat)
  /-- PMENTER (R299) -/
  | pmenter (k n : Nat)
  /-- PMEXIT (R299) -/
  | pmexit (k n : Nat)
  /-- MBAR (R303) -/
  | mbar (k n : Nat)
  /-- ARG (R306) -/
  | arg (k n : Nat)
  /-- SINK (R306) -/
  | sink (k n : Nat)
  /-- MTLOAD (R300) -/
  | mtload (k n : Nat)
  /-- MTSTORE (R300) -/
  | mtstore (k n : Nat)
  /-- MTRMW (R300) -/
  | mtrmw (k n : Nat)
  /-- ARRAY (R304) -/
  | array (k n : Nat)
  /-- PORTIN (R306) -/
  | portin (k n : Nat)
  /-- PORTOUT (R306) -/
  | portout (k n : Nat)
  /-- RECONFIGURATION (R391) -/
  | reconfiguration (k b : Nat)
  /-- RECONFIGURATION_DONE (R391) -/
  | reconfigurationDone (k b : Nat)
  /-- ISLAND_INSTALL (R389) -/
  | islandInstall (k : Nat) (r : InstallReq)
  /-- ISLAND_INSTALL_DONE (R397) -/
  | islandInstallDone (k b : Nat)
  /-- ISLAND_COMMAND (R397) -/
  | islandCommand (k : Nat) (c : IslCmd)
  /-- CONFIG_ERROR (R394) -/
  | configError (k b n : Nat)
  /-- CONFIG_RELOAD_DONE (R394) -/
  | configReloadDone (k b : Nat)
  /-- TRANSIT_PACKET (R318) -/
  | transitPacket (p : TransitPkt)
  /-- TRANSIT_CREDIT (R316) -/
  | transitCredit (c o b n : Nat) (answer ret : Bool)
  /-- TRANSIT_FOLD_APPLY (R320) -/
  | transitFoldApply (c i tag emit : Nat)
  /-- TRANSIT_FLUSH_APPLY (R321) -/
  | transitFlushApply (c i emit : Nat)
  /-- COPY_TRANSFER (R329) -/
  | copyTransfer (c : Nat)
  /-- COPY_COMPLETE (R329) -/
  | copyComplete (c q : Nat)
  /-- SWAP_HOLD (R331) -/
  | swapHold (id : Nat)
  /-- SWAP_HOLD_ARRIVE (R332) -/
  | swapHoldArrive (id c : Nat)
  /-- SWAP_HOLD_ACK (R332) -/
  | swapHoldAck (id c : Nat)
  /-- SWAP_RUN (R331) -/
  | swapRun (id : Nat)
  /-- SWAP_BURST (R333) -/
  | swapBurst (id : Nat)
  /-- SWAP_DONE (R331) -/
  | swapDone (id : Nat)
  /-- SWAP_LIFT_ARRIVE (R332) -/
  | swapLiftArrive (id c : Nat)
  /-- RESIDENCY_FETCH_COMPLETE (R362) -/
  | residencyFetchComplete (id : Nat)
  /-- RESIDENCY_FETCH_FAIL (R362) -/
  | residencyFetchFail (id : Nat)
  /-- RANGE_DROP_ARRIVE (R374) -/
  | rangeDropArrive (id tbl : Nat)
  /-- RANGE_DROP_ACK (R374) -/
  | rangeDropAck (id tbl : Nat)
  /-- RANGE_ENTRY_INVALID (R364) -/
  | rangeEntryInvalid (tbl i : Nat)
  /-- RGRES_UPDATE_ARRIVE (R377) -/
  | rgresUpdateArrive (id tbl : Nat)
  /-- COMPACTOR_TAKE (R379) -/
  | compactorTake
  /-- COMPACTOR_DRAIN_DONE (R379) -/
  | compactorDrainDone
  /-- COMPACTOR_MOVE_DONE (R379) -/
  | compactorMoveDone
  /-- GATE_ARRIVE (R438) -/
  | gateArrive (t : Nat) (u : GateUnit) (opn : Bool)
  /-- GATE_ACK (R438) -/
  | gateAck (t : Nat)
  /-- LAUNCH_TAKE_ENTRY (R339) -/
  | launchTakeEntry
  /-- LAUNCH_INSTALL_DONE (R28) -/
  | launchInstallDone
  /-- FREEZE (R430) -/
  | freeze (cols isls : Nat)
  /-- STOP_THE_COLUMN (R430) -/
  | stopTheColumn (cols isls : Nat)
  /-- RELEASE (R430) -/
  | release (cols isls : Nat)
  /-- STEP (R430) -/
  | step (cols core : Nat)
  /-- PARTITION_GATE (R431) -/
  | partitionGate (p : Partition)
  /-- STEP_END (R430) -/
  | stepEnd (c : Nat)
  /-- FREEZE_PIN_ASSERT (R432) -/
  | freezePinAssert
  /-- FREEZE_PIN_RELEASE (R432) -/
  | freezePinRelease
  /-- DEBUG_HALT (R428) -/
  | debugHalt (t : Nat)
  /-- DEBUG_RESUME (R428) -/
  | debugResume (t : Nat)
  /-- DEBUG_WRITE (R433) -/
  | debugWrite (off : Nat) (v : W64)
  /-- REGISTER_WRITE (R8) -/
  | registerWrite (off size : Nat) (v : W64)
  /-- POINTER_DROP_READ (R458) -/
  | pointerDropRead (off size : Nat)
  /-- RING_BASE_WRITE (R458) -/
  | ringBaseWrite (err : Bool) (v : W64)
  /-- INTSTAT_WRITE (R457) -/
  | intstatWrite (en : Bool) (v : W64)
  /-- RCCTL_WRITE (R471) -/
  | rcctlWrite (v : W64)
  /-- HOST_BAR2_READ (R454) -/
  | hostBar2Read (off n : Nat)
  /-- HOST_BAR2_WRITE (R454) -/
  | hostBar2Write (off : Nat) (data : List (Option Byte))
  /-- HOST_UNSUPPORTED_REQUEST (R452) -/
  | hostUnsupportedRequest (isRead : Bool)
  /-- HOST_WINDOW_TIMEOUT (R199) -/
  | hostWindowTimeout (seq : Nat)
  /-- HOST_WINDOW_STORE_FAIL (R199) -/
  | hostWindowStoreFail (seq : Nat)
  /-- CHAIN_PACKET (R460) -/
  | chainPacket (src dst seq : Nat) (op : ChainOp)
  /-- CHAIN_LINK_DOWN (R461) -/
  | chainLinkDown (west : Bool)
  /-- TIME_SYNC_SEND (R462) -/
  | timeSyncSend
  /-- TIME_SYNC_RECEIVE (R462) -/
  | timeSyncReceive (v : Nat)
  /-- SETRET (R464) -/
  | setret (c : Nat) (mask : BitVec 32)
  /-- PATROL (R464) -/
  | patrol (en : Bool)
  /-- REPAIR (R250) -/
  | repair (c bank row : Nat)
  /-- SCANMAP (R464) -/
  | scanmap (off n : Nat)
  /-- POWERCAP (R467) -/
  | powercap (watts : Nat)
  /-- CHAINNUM (R464) -/
  | chainnum (pkg count : BitVec 4)
  /-- RESET (R465) -/
  | reset
  /-- REPLAY (R464) -/
  | replay (on : Bool)
  /-- ATTEST (R466) -/
  | attest (nonce : List Byte)
  /-- EXTEND (R466) -/
  | extend (i : Nat) (digest : List Byte)
  /-- FIRMWARE_UPDATE (R466) -/
  | firmwareUpdate (image : List Byte)
  /-- PLATFORM_MONITORING (R463) -/
  | platformMonitoring (sensor : Nat)
  /-- PLDM_BASE (R463) -/
  | pldmBase (cmd : Nat)
  /-- CONVENTIONAL_RESET (R465) -/
  | conventionalReset
  /-- HOT_RESET (R465) -/
  | hotReset
  /-- FUNCTION_LEVEL_RESET (R465) -/
  | functionLevelReset
  /-- BOOT_STAGE (R465) -/
  | bootStage (err : BitVec 8)
  /-- POWER_WINDOW (R467) -/
  | powerWindow (watts : Nat)
  /-- CLOCK_STEP_CHANGE (R468) -/
  | clockStepChange (mhz : Nat)
  /-- COOLING_LOOP_LOST (R467) -/
  | coolingLoopLost (top : Bool) (sensor temp : Nat)
  /-- COOLING_LOOP_RESTORED (R470) -/
  | coolingLoopRestored (top : Bool) (sensor temp : Nat)
  /-- JUNCTION_HOT (R470) -/
  | junctionHot (sensor temp : Nat)
  /-- REPLAY_APPLY (R472) -/
  | replayApply
  /-- TRANSIT_SENDER_PACKET (R318) -/
  | transitSenderPacket (c : Nat)
  /-- ARRAY_REQUEST_COMPLETE (R305) -/
  | arrayRequestComplete (k n id : Nat)
  /-- NEW_CLOCK_RUNS (R468) -/
  | newClockRuns
  /-- UCIE_LINK_RETRAIN (R459) -/
  | ucieLinkRetrain (west : Bool) (width : Nat)
  /-- DEVICE_CONTROL_2_WRITE (R455) -/
  | deviceControl2Write (v : Nat)
deriving DecidableEq, Repr

end Sys2Proof
end

