-- ==== Sys2Proof/WellFormed.lean ====
section
/-! DEFINITION. Which instructions are well formed: the operand limits that make every other word a reserved encoding (R78 to R83),
and, for the steps that are no words, the ranges of the units they name. -/
namespace Sys2Proof

/-- Integer lane types (R47). -/
def LaneType.isInt : LaneType → Bool
  | .i32 => true | .i16 => true | .i8 => true | .f32 => false | .f16 => false | .bf16 => false

/-- Floating-point lane types (R47). -/
def LaneType.isFloat (t : LaneType) : Bool := !t.isInt

/-- Width of a lane in bits (R47). -/
def LaneType.width : LaneType → Nat
  | .i32 => 32 | .f32 => 32 | .i16 => 16 | .f16 => 16 | .bf16 => 16 | .i8 => 8

/-- Lane count (R47). -/
def LaneType.lanes : LaneType → Nat
  | .i32 => 16 | .f32 => 16 | .i16 => 32 | .f16 => 32 | .bf16 => 32 | .i8 => 64

/-- Bytes of an access (R79, R203). -/
def MSize.bytes : MSize → Nat
  | .b => 1 | .h => 2 | .w => 4 | .d => 8 | .v => 64

/-- With size v the field names a vector register, and bit 4 is zero (R80, R82). -/
def destOk (z : MSize) (d : Reg) : Bool := z != .v || decide (d.toNat < 16)

/-- Sizes of the FE-synchronising forms (R82). -/
def feSize (z : MSize) : Bool := z == .d || z == .v

/-- Sizes of LDU (R82). -/
def lduSize (z : MSize) : Bool := z == .b || z == .h || z == .w

def Fmt.isInt : Fmt → Bool
  | .int8 => true | .int16 => true | .int32 => true
  | .fp32 => false | .fp16 => false | .bf16 => false | .ps2 => false | .ps1 => false | .sd => false

def Fmt.isFloat : Fmt → Bool
  | .fp32 => true | .fp16 => true | .bf16 => true
  | .int8 => false | .int16 => false | .int32 => false | .ps2 => false | .ps1 => false | .sd => false

/-- The legal pairs of FCVT (R127). -/
def fcvtOk (dst src : Fmt) : Bool :=
  if src.isInt || src.isFloat then (dst.isInt || dst.isFloat) && dst != src
  else (src == .ps2 || src == .ps1) && (dst == .fp32 || dst == .bf16)

/-- The part limit of VCVT (R137). -/
def vcvtOk (src dst : LaneType) (part : Nat) : Bool :=
  src != dst && decide (part * min src.lanes dst.lanes < max src.lanes dst.lanes)

/-- The lane types of a VAMO operation (R218). -/
def vamoOk : VamoOp → LaneType → Bool
  | .swap, _ => true
  | .fadd, t => t == .f32 || t == .bf16
  | _, t => t.isInt

/-- The d and aux fields of CSEND (R270). -/
def csendOk (k : TokKind) (aux : Nat) (d : Reg) : Bool :=
  match k with
  | .stop => decide (aux < 8) && d == 0
  | .empty => decide (aux = 0) && d == 0
  | .done => decide (aux = 0) && d == 0
  | .sdv => decide (1 ≤ aux) && decide (aux ≤ 8)
  | _ => decide (aux = 0)

/-- Control register numbers that are assigned (R169, R400, R451). -/
def crAssigned (n : Nat) : Bool :=
  decide (n ≤ 0x002) || decide (0x100 ≤ n ∧ n ≤ 0x104) || decide (0x108 ≤ n ∧ n ≤ 0x10B) ||
  decide (0x110 ≤ n ∧ n ≤ 0x117) || decide (0x120 ≤ n ∧ n ≤ 0x123) || decide (0x200 ≤ n ∧ n ≤ 0x223) ||
  decide (0x240 ≤ n ∧ n ≤ 0x2A0) || decide (n = 0x1000 ∨ n = 0x1001) || decide (0x1010 ≤ n ∧ n ≤ 0x1013) ||
  decide (0x1020 ≤ n ∧ n ≤ 0x1022) || decide (n = 0x1030 ∨ n = 0x1031) || decide (n = 0x1040 ∨ n = 0x1050) ||
  decide (0x1060 ≤ n ∧ n ≤ 0x1062) || decide (0x1070 ≤ n ∧ n ≤ 0x1077) || decide (0x1080 ≤ n ∧ n ≤ 0x1083) ||
  decide (n = 0x1090 ∨ n = 0x1091)

/-- The scopes of RGRES and RGINV (R372). -/
def rgScope (s : Scope) : Bool := s != .sys

/-- Destination formats of MOUT (R159). -/
def moutFmt (f : Fmt) : Bool := f.isInt || f.isFloat

/-- The target fields of RGSET and RGGET (R366). -/
def RgTarget.ok : RgTarget → Bool
  | .entry _ => true
  | .island k _ => decide (k.toNat < 10)
  | .ctag _ => true
  | .itag k => decide (k.toNat < 10)

/-- An entry target moves five registers (R366). -/
def RgTarget.isEntry : RgTarget → Bool
  | .entry _ => true | .island _ _ => true | .ctag _ => false | .itag _ => false

def regIn (d : Reg) (lo hi : Nat) : Bool := decide (lo ≤ d.toNat) && decide (d.toNat ≤ hi)

/-- A slot of the package: 20 columns, 4 cores, 16 slots. -/
def isThr (t : Nat) : Bool := decide (t < 1280)
def isCore (q : Nat) : Bool := decide (q < 80)
def isCol (c : Nat) : Bool := decide (c < 20)
def isIsl (k : Nat) : Bool := decide (k < 10)
def isNode (k n : Nat) : Bool := decide (k < 10) && decide (n < 128)
def isSlot (t c : Nat) : Bool := decide (t < 1280) && decide (c < 8)
/-- The range tables: 80 of cores, then 10 of islands. -/
def isTbl (t : Nat) : Bool := decide (t < 90)

/-- The operand limits of every instruction. -/
def WellFormed : Instr → Bool
  | .fcvt _ _ dst src => fcvtOk dst src
  | .cmp _ _ _ _ => true
  | .loop c _ => c != 0
  | .vadd t _ _ _ _ => t.isInt
  | .vsub t _ _ _ _ => t.isInt
  | .vmul t _ _ _ _ => t.isInt
  | .vmin t _ _ _ _ => t.isInt
  | .vmax t _ _ _ _ => t.isInt
  | .vabs t _ _ _ => t.isInt
  | .vadds t _ _ _ _ => t.isInt
  | .vsubs t _ _ _ _ => t.isInt
  | .vfadd t _ _ _ _ => t.isFloat
  | .vfsub t _ _ _ _ => t.isFloat
  | .vfmul t _ _ _ _ => t.isFloat
  | .vfdiv t _ _ _ _ => t.isFloat
  | .vfmin t _ _ _ _ => t.isFloat
  | .vfmax t _ _ _ _ => t.isFloat
  | .vfma t _ _ _ _ => t.isFloat
  | .vfms t _ _ _ _ => t.isFloat
  | .vcmp t _ _ _ _ _ _ => t.isInt
  | .vfcmp t _ _ _ _ _ _ => t.isFloat
  | .vshl t _ _ _ _ => t.isInt
  | .vshr t _ _ _ _ => t.isInt
  | .vsra t _ _ _ _ => t.isInt
  | .vbcast t _ _ _ l => decide (l.toNat < t.lanes)
  | .vslide t _ _ _ _ k => decide (k.toNat < t.lanes)
  | .vcvt s d _ _ _ p => vcvtOk s d p.toNat
  | .vins t _ _ _ l => decide (l.toNat < t.lanes)
  | .vext t _ _ _ l => decide (l.toNat < t.lanes)
  | .mwld f _ _ s _ => f == .ps1 || f == .ps2 || s == 0
  | .mwlt f _ _ s _ => f == .ps1 || f == .ps2 || s == 0
  | .mgo _ _ _ _ _ _ m r => m || r == 0
  | .moutTile f _ _ _ => moutFmt f
  | .moutMemory f _ _ _ _ => moutFmt f
  | .crrd _ n => crAssigned n.toNat
  | .crwr _ n => crAssigned n.toNat
  | .crset _ n => crAssigned n.toNat
  | .crclr _ n => crAssigned n.toNat
  | .tqpop d _ => regIn d 1 28
  | .ld z d _ _ => destOk z d
  | .ldAcq z _ d _ _ => destOk z d
  | .lds z d _ _ => feSize z && destOk z d
  | .ldu z _ _ _ => lduSize z
  | .lduAcq z _ _ _ _ => lduSize z
  | .st z d _ _ => destOk z d
  | .stRel z _ d _ _ => destOk z d
  | .stf z d _ _ => feSize z && destOk z d
  | .ldse z d _ _ => feSize z && destOk z d
  | .vamo op t _ _ => vamoOk op t
  | .csend _ k aux s => csendOk k aux.toNat s
  | .invoke d k b m =>
      decide (k.toNat ≤ 4) && regIn d 1 (31 - k.toNat) && decide (b.toNat + m.toNat ≤ 8) && (m != 0 || b == 0)
  | .xbind _ _ n => decide (n.toNat ≤ 4)
  | .xrecv d _ => regIn d 1 30
  | .rgset _ t a => t.ok && (!t.isEntry || regIn a 1 27)
  | .rgget d t => t.ok && (if t.isEntry then regIn d 1 27 else d != 0)
  | .rgprobe d _ => regIn d 1 30
  | .rgres s _ a => rgScope s && regIn a 1 30
  | .rginv s _ _ _ => rgScope s
  | .ginstall _ _ k => decide (k.toNat < 10)
  | .garg _ a _ => regIn a 1 30
  | .snoise _ a => regIn a 1 30
  | .accept d _ => d != 0
  | .parkWake t => isThr t
  | .memReply t _ => isThr t
  | .dealerOperation t _ => isThr t
  | .sequenceTableOperation t _ => isThr t
  | .feWaitResend t => isThr t
  | .gangCompare c => isCol c
  | .gangStart c _ => isCol c
  | .gangComplete c _ => isCol c
  | .gangAbort c _ => isCol c
  | .arrayWatchdog c => isCol c
  | .waitWatchdog t => isThr t
  | .deadlock c => isCol c
  | .quiescenceReport t => isThr t
  | .qwaitLimit t => isThr t
  | .retentionEnter c g => isCol c && decide (g < 32)
  | .retentionEnterDone c g => isCol c && decide (g < 32)
  | .retentionExitDone c g => isCol c && decide (g < 32)
  | .channelTokenDepart t c => isSlot t c
  | .channelTokenArrive t c _ _ => isSlot t c
  | .invokeRequest k _ => isIsl k
  | .invokeAnswer t _ => isThr t
  | .invocationStart k => isIsl k
  | .activeNotice t _ => isThr t
  | .invocationEnd k => isIsl k
  | .nodeFaultReport k => isIsl k
  | .islandFaultTrap t _ _ => isThr t
  | .scan k n => isNode k n
  | .scanl k n => isNode k n
  | .intersect k n => isNode k n
  | .union k n => isNode k n
  | .repeatNode k n => isNode k n
  | .reduce k n => isNode k n
  | .aluAdd k n => isNode k n
  | .aluSub k n => isNode k n
  | .aluMul k n => isNode k n
  | .aluDiv k n => isNode k n
  | .aluMin k n => isNode k n
  | .aluMax k n => isNode k n
  | .aluAnd k n => isNode k n
  | .aluOr k n => isNode k n
  | .aluXor k n => isNode k n
  | .aluShl k n => isNode k n
  | .aluShr k n => isNode k n
  | .aluAbs k n => isNode k n
  | .aluNeg k n => isNode k n
  | .aluPass k n => isNode k n
  | .aluCmp k n => isNode k n
  | .aluFma k n => isNode k n
  | .cvt k n => isNode k n
  | .sd2b k n => isNode k n
  | .b2sd k n => isNode k n
  | .wconv k n => isNode k n
  | .steer k n => isNode k n
  | .merge k n => isNode k n
  | .carry k n => isNode k n
  | .invariant k n => isNode k n
  | .select k n => isNode k n
  | .pmenter k n => isNode k n
  | .pmexit k n => isNode k n
  | .mbar k n => isNode k n
  | .arg k n => isNode k n
  | .sink k n => isNode k n
  | .mtload k n => isNode k n
  | .mtstore k n => isNode k n
  | .mtrmw k n => isNode k n
  | .array k n => isNode k n
  | .portin k n => isNode k n
  | .portout k n => isNode k n
  | .arrayRequestComplete k n _ => isNode k n
  | .reconfiguration k b => isIsl k && decide (b < 4)
  | .reconfigurationDone k b => isIsl k && decide (b < 4)
  | .islandInstall k _ => isIsl k
  | .islandInstallDone k b => isIsl k && decide (b < 4)
  | .islandCommand k _ => isIsl k
  | .configError k b n => isNode k n && decide (b < 4)
  | .configReloadDone k b => isIsl k && decide (b < 4)
  | .transitCredit c o b _ _ _ => isCol c && decide (o < 8) && decide (b < 4)
  | .transitFoldApply c i _ _ => isCol c && decide (i < 8)
  | .transitFlushApply c i _ => isCol c && decide (i < 8)
  | .transitSenderPacket c => isCol c
  | .copyTransfer c => isCol c
  | .copyComplete c q => isCol c && decide (q < 4)
  | .swapHoldArrive _ c => isCol c
  | .swapHoldAck _ c => isCol c
  | .swapLiftArrive _ c => isCol c
  | .rangeDropArrive _ t => isTbl t
  | .rangeDropAck _ t => isTbl t
  | .rangeEntryInvalid t i => isTbl t && decide (i < 32)
  | .rgresUpdateArrive _ t => isTbl t
  | .gateArrive t _ _ => isThr t
  | .gateAck t => isThr t
  | .stepEnd c => isCol c
  | .debugHalt t => isThr t
  | .debugResume t => isThr t
  | .setret c _ => isCol c
  | .attest n => decide (n.length = 32)
  | .extend i g => decide (i < 8) && decide (g.length = 64)
  | _ => true

end Sys2Proof
end

