-- ==== Sys2Proof/Decode.lean ====
section
/-! DEFINITION. The decoder of R77 to R83, total on every word and rejecting by name, and the encoder, each written from the
field tables of the chapters that own the major opcodes. -/
namespace Sys2Proof

/-- Why a word is no instruction (R83). -/
inductive Reject where
  | reservedMajor
  | reservedFn
  | reservedField
deriving DecidableEq, Repr

/-- The field of `n` bits at bit `lo`. -/
def fld (w : Word) (lo n : Nat) : BitVec n := w.extractLsb' lo n

/-- The instruction when its operand limits hold, else the fate of a reserved field. -/
def accept (ok : Bool) (i : Instr) : Except Reject Instr := if ok then .ok i else .error .reservedField

/-! ### Codes of the subfields -/

def decFmt (c : BitVec 4) : Option Fmt :=
  match c.toNat with
  | 0 => some .int8 | 1 => some .int32 | 2 => some .fp32 | 3 => some .fp16 | 4 => some .bf16
  | 5 => some .ps2 | 6 => some .ps1 | 7 => some .sd | 8 => some .int16 | _ => none

def encFmt : Fmt → BitVec 4
  | .int8 => 0 | .int32 => 1 | .fp32 => 2 | .fp16 => 3 | .bf16 => 4 | .ps2 => 5 | .ps1 => 6 | .sd => 7 | .int16 => 8

def decLane (c : BitVec 3) : Option LaneType :=
  match c.toNat with
  | 0 => some .i32 | 1 => some .f32 | 2 => some .i16 | 3 => some .f16 | 4 => some .bf16 | 5 => some .i8 | _ => none

def encLane : LaneType → BitVec 3
  | .i32 => 0 | .f32 => 1 | .i16 => 2 | .f16 => 3 | .bf16 => 4 | .i8 => 5

def decSize (c : BitVec 3) : Option MSize :=
  match c.toNat with
  | 0 => some .b | 1 => some .h | 2 => some .w | 3 => some .d | 4 => some .v | _ => none

def encSize : MSize → BitVec 3
  | .b => 0 | .h => 1 | .w => 2 | .d => 3 | .v => 4

/-- Scope codes but for 0b000, none (R82). -/
def decScope (c : BitVec 3) : Option Scope :=
  match c.toNat with
  | 1 => some .core | 2 => some .col | 3 => some .pkg | 4 => some .chain | 5 => some .sys | _ => none

def encScope : Scope → BitVec 3
  | .core => 1 | .col => 2 | .pkg => 3 | .chain => 4 | .sys => 5

def decCond (c : BitVec 3) : Option Cond :=
  match c.toNat with
  | 0 => some .eq | 1 => some .ne | 2 => some .lt | 3 => some .ge | 4 => some .ltu | 5 => some .geu | _ => none

def encCond : Cond → BitVec 3
  | .eq => 0 | .ne => 1 | .lt => 2 | .ge => 3 | .ltu => 4 | .geu => 5

def decFCond (c : BitVec 3) : Option FCond :=
  match c.toNat with
  | 0 => some .eq | 1 => some .ne | 2 => some .lt | 3 => some .le | _ => none

def encFCond : FCond → BitVec 3
  | .eq => 0 | .ne => 1 | .lt => 2 | .le => 3

def decKind (c : BitVec 4) : Option TokKind :=
  match c.toNat with
  | 0 => some .value | 1 => some .coord | 2 => some .pair | 3 => some .ref | 4 => some .empty | 5 => some .stop
  | 6 => some .done | 7 => some .fold | 8 => some .sdv | 9 => some .permit | _ => none

def encKind : TokKind → BitVec 4
  | .value => 0 | .coord => 1 | .pair => 2 | .ref => 3 | .empty => 4 | .stop => 5 | .done => 6 | .fold => 7
  | .sdv => 8 | .permit => 9

def decVamo (c : BitVec 4) : Option VamoOp :=
  match c.toNat with
  | 0 => some .add | 1 => some .and | 2 => some .or | 3 => some .xor | 4 => some .min | 5 => some .max
  | 6 => some .minu | 7 => some .maxu | 8 => some .swap | 9 => some .fadd | _ => none

def encVamo : VamoOp → BitVec 4
  | .add => 0 | .and => 1 | .or => 2 | .xor => 3 | .min => 4 | .max => 5 | .minu => 6 | .maxu => 7 | .swap => 8 | .fadd => 9

def decWFmt (c : BitVec 2) : WFmt :=
  match c.toNat with
  | 0 => .ps1 | 1 => .ps2 | 2 => .int8 | _ => .bf16

def encWFmt : WFmt → BitVec 2
  | .ps1 => 0 | .ps2 => 1 | .int8 => 2 | .bf16 => 3

/-- The two-bit activation format of MGO and MGOS (R159). -/
def decAFmt (c : BitVec 2) : Option AFmt :=
  match c.toNat with
  | 0 => some .int8 | 1 => some .bf16 | _ => none

def encAFmt : AFmt → BitVec 2
  | .int8 => 0 | .bf16 => 1

def decShuf (c : BitVec 6) : Option ShufKind :=
  match c.toNat with
  | 0 => some .ziplo | 1 => some .ziphi | 2 => some .unzipe | 3 => some .unzipo | _ => none

def encShuf : ShufKind → BitVec 6
  | .ziplo => 0 | .ziphi => 1 | .unzipe => 2 | .unzipo => 3

def decRed (c : BitVec 8) : Option RedOp :=
  match c.toNat with
  | 1 => some .sum | 2 => some .max | 3 => some .min | _ => none

def encRed : RedOp → BitVec 8
  | .sum => 1 | .max => 2 | .min => 3

def decAct (c : BitVec 12) : Option ResumeAct :=
  match c.toNat with
  | 0 => some .retry | 1 => some .skip | 2 => some .kill | _ => none

def encAct : ResumeAct → BitVec 12
  | .retry => 0 | .skip => 1 | .kill => 2

/-- Order and scope of an atomic (R82, R213). -/
def decAmoOrd (o : BitVec 2) (s : BitVec 3) : Option AmoOrd :=
  match o.toNat with
  | 0 => if s = 0 then some .plain else none
  | 1 => (decScope s).map .acq
  | 2 => (decScope s).map .rel
  | _ => none

def encAmoOrd : AmoOrd → BitVec 2
  | .plain => 0 | .acq _ => 1 | .rel _ => 2

def encAmoScope : AmoOrd → BitVec 3
  | .plain => 0 | .acq s => encScope s | .rel s => encScope s

def decAmoSize (c : BitVec 2) : Option AmoSize :=
  match c.toNat with
  | 2 => some .w | 3 => some .d | _ => none

def encAmoSize : AmoSize → BitVec 2
  | .w => 2 | .d => 3

/-- Target, island and index fields of RGSET and RGGET (R366). -/
def decTarget (t : BitVec 2) (k : BitVec 4) (i : BitVec 5) : Option RgTarget :=
  match t.toNat with
  | 0 => if k = 0 then some (.entry i) else none
  | 1 => some (.island k i)
  | 2 => if k = 0 ∧ i.extractLsb' 4 1 = 0 then some (.ctag (i.extractLsb' 0 4)) else none
  | _ => if i = 0 then some (.itag k) else none

def encTargetIsl : RgTarget → BitVec 4
  | .entry _ => 0 | .island k _ => k | .ctag _ => 0 | .itag k => k

def encTargetIdx : RgTarget → BitVec 5
  | .entry i => i | .island _ i => i | .ctag n => (n.setWidth 5) | .itag _ => 0

def encTargetCode : RgTarget → BitVec 2
  | .entry _ => 0 | .island _ _ => 1 | .ctag _ => 2 | .itag _ => 3

/-! ### Shapes of operand fields -/

/-- Three scalar registers of format R. -/
def decR3 (w : Word) (mk : Reg → Reg → Reg → Instr) : Except Reject Instr :=
  .ok (mk (fld w 21 5) (fld w 16 5) (fld w 11 5))

/-- Two scalar registers, b zero. -/
def decR2 (w : Word) (mk : Reg → Reg → Instr) : Except Reject Instr :=
  accept (fld w 11 5 == 0) (mk (fld w 21 5) (fld w 16 5))

/-- Three predicates in five-bit fields (R80). -/
def decP3 (w : Word) (mk : PReg → PReg → PReg → Instr) : Except Reject Instr :=
  accept (fld w 24 2 == 0 && fld w 19 2 == 0 && fld w 14 2 == 0) (mk (fld w 21 3) (fld w 16 3) (fld w 11 3))

/-- Lane type, predicate and three vector registers of format V, under a limit on the instruction. -/
def decV3 (w : Word) (mk : LaneType → PReg → VReg → VReg → VReg → Instr) : Except Reject Instr :=
  match decLane (fld w 11 3) with
  | some lt =>
    let i := mk lt (fld w 8 3) (fld w 22 4) (fld w 18 4) (fld w 14 4)
    accept (WellFormed i) i
  | none => .error .reservedField

/-- As `decV3`, with vb zero. -/
def decV2 (w : Word) (mk : LaneType → PReg → VReg → VReg → Instr) : Except Reject Instr :=
  match decLane (fld w 11 3) with
  | some lt =>
    let i := mk lt (fld w 8 3) (fld w 22 4) (fld w 18 4)
    accept (fld w 14 4 == 0 && WellFormed i) i
  | none => .error .reservedField

/-- Three vector registers, lane type 0b000 only. -/
def decVBits (w : Word) (mk : PReg → VReg → VReg → VReg → Instr) : Except Reject Instr :=
  accept (fld w 11 3 == 0) (mk (fld w 8 3) (fld w 22 4) (fld w 18 4) (fld w 14 4))

/-- An M-format access without ordering. -/
def decM (w : Word) (mk : MSize → Reg → Reg → BitVec 8 → Instr) : Except Reject Instr :=
  match decSize (fld w 13 3) with
  | some z =>
    let i := mk z (fld w 21 5) (fld w 16 5) (fld w 0 8)
    accept (fld w 8 3 == 0 && WellFormed i) i
  | none => .error .reservedField

/-- An M-format access with a scope. -/
def decMS (w : Word) (mk : MSize → Scope → Reg → Reg → BitVec 8 → Instr) : Except Reject Instr :=
  match decSize (fld w 13 3), decScope (fld w 8 3) with
  | some z, some s =>
    let i := mk z s (fld w 21 5) (fld w 16 5) (fld w 0 8)
    accept (WellFormed i) i
  | _, _ => .error .reservedField

/-- An atomic of major 0x28. -/
def decAmo (w : Word) (mk : AmoSize → AmoOrd → Reg → Reg → Reg → Instr) : Except Reject Instr :=
  match decAmoSize (fld w 4 2), decAmoOrd (fld w 6 2) (fld w 8 3) with
  | some z, some o => .ok (mk z o (fld w 21 5) (fld w 16 5) (fld w 11 5))
  | _, _ => .error .reservedField

/-! ### One decoder for each major opcode -/

def decMajor00 (w : Word) : Except Reject Instr :=
  match (fld w 0 11).toNat with
  | 0 => accept (fld w 11 15 == 0) .ill
  | 1 => decR3 w .add
  | 2 => decR3 w .sub
  | 3 => decR3 w .and
  | 4 => decR3 w .or
  | 5 => decR3 w .xor
  | 6 => decR3 w .andn
  | 7 => decR3 w .min
  | 8 => decR3 w .max
  | 9 => decR3 w .minu
  | 10 => decR3 w .maxu
  | _ => .error .reservedFn

def decMajor01 (w : Word) : Except Reject Instr :=
  match (fld w 0 11).toNat with
  | 1 => decR3 w .shl
  | 2 => decR3 w .shr
  | 3 => decR3 w .sra
  | 4 => decR3 w .rol
  | 5 => decR3 w .ror
  | _ => .error .reservedFn

def decMajor02 (w : Word) : Except Reject Instr :=
  match (fld w 0 11).toNat with
  | 1 => decR3 w .mul
  | 2 => decR3 w .mulh
  | 3 => decR3 w .mulhu
  | 4 => decR3 w .div
  | 5 => decR3 w .divu
  | 6 => decR3 w .rem
  | 7 => decR3 w .remu
  | _ => .error .reservedFn

def decMajor03 (w : Word) : Except Reject Instr :=
  match (fld w 0 11).toNat with
  | 1 => decR2 w .clz
  | 2 => decR2 w .ctz
  | 3 => decR2 w .popc
  | 4 => decR3 w .bext
  | 5 => decR3 w .bins
  | 6 => decR2 w .sxtB
  | 7 => decR2 w .sxtH
  | 8 => decR2 w .sxtW
  | _ => .error .reservedFn

def decMajor04 (w : Word) : Except Reject Instr :=
  match decCond (fld w 0 3) with
  | some c => accept (fld w 24 2 == 0 && fld w 3 8 == 0) (.cmp (fld w 21 3) c (fld w 16 5) (fld w 11 5))
  | none => .error .reservedFn

def decMajor09 (w : Word) : Except Reject Instr :=
  match (fld w 6 10).toNat with
  | 0 => .ok (.shli (fld w 21 5) (fld w 16 5) (fld w 0 6))
  | 1 => .ok (.shri (fld w 21 5) (fld w 16 5) (fld w 0 6))
  | 2 => .ok (.srai (fld w 21 5) (fld w 16 5) (fld w 0 6))
  | _ => .error .reservedFn

def decMajor0A (w : Word) : Except Reject Instr :=
  match decCond (fld w 13 3) with
  | some c => accept (fld w 24 2 == 0) (.cmpi (fld w 21 3) c (fld w 16 5) (fld w 0 13))
  | none => .error .reservedFn

def decMajor0B (w : Word) : Except Reject Instr :=
  accept (fld w 18 3 == 0) (.movk (fld w 21 5) (fld w 16 2) (fld w 0 16))

def decMajor0C (w : Word) : Except Reject Instr :=
  match (fld w 0 11).toNat with
  | 1 => decR3 w .fadd
  | 2 => decR3 w .fsub
  | 3 => decR3 w .fmul
  | 4 => decR3 w .fdiv
  | 5 => decR2 w .fsqrt
  | 6 => decR3 w .fmin
  | 7 => decR3 w .fmax
  | _ => .error .reservedFn

def decMajor0D (w : Word) : Except Reject Instr :=
  match (fld w 0 11).toNat with
  | 1 => decR3 w .fma
  | 2 => decR3 w .fms
  | 3 => decR3 w .fnma
  | _ => .error .reservedFn

def decMajor0E (w : Word) : Except Reject Instr :=
  if fld w 0 11 = 0x010#11 then decR2 w .fclass
  else match decFCond (fld w 0 3) with
    | some c => accept (fld w 24 2 == 0 && fld w 3 8 == 0) (.fcmp (fld w 21 3) c (fld w 16 5) (fld w 11 5))
    | none => .error .reservedFn

def decMajor0F (w : Word) : Except Reject Instr :=
  match decFmt (fld w 4 4), decFmt (fld w 0 4) with
  | some dst, some src => accept (fld w 8 8 == 0 && fcvtOk dst src) (.fcvt (fld w 21 5) (fld w 16 5) dst src)
  | _, _ => .error .reservedField

def decMajor12 (w : Word) : Except Reject Instr :=
  accept (fld w 21 5 != 0) (.loop (fld w 21 5) (fld w 0 21))

def decMajor13 (w : Word) : Except Reject Instr :=
  match (fld w 0 11).toNat with
  | 0x001 => accept (fld w 21 5 == 0 && fld w 11 5 == 0) (.jmpr (fld w 16 5))
  | 0x002 => decR2 w .callr
  | 0x010 => decP3 w .pand
  | 0x011 => decP3 w .por
  | 0x012 => decP3 w .pxor
  | 0x013 => accept (fld w 24 2 == 0 && fld w 19 2 == 0 && fld w 11 5 == 0) (.pnot (fld w 21 3) (fld w 16 3))
  | 0x014 => accept (fld w 24 2 == 0 && fld w 11 5 == 0) (.pmovFromScalar (fld w 21 3) (fld w 16 5))
  | 0x015 => accept (fld w 19 2 == 0 && fld w 11 5 == 0) (.pmovToScalar (fld w 21 5) (fld w 16 3))
  | _ => .error .reservedFn

def decMajor14 (w : Word) : Except Reject Instr :=
  match (fld w 0 8).toNat with
  | 1 => decV3 w .vadd
  | 2 => decV3 w .vsub
  | 3 => decV3 w .vmul
  | 4 => decV3 w .vmin
  | 5 => decV3 w .vmax
  | 6 => decV2 w .vabs
  | 7 => decV3 w .vadds
  | 8 => decV3 w .vsubs
  | _ => .error .reservedFn

def decMajor15 (w : Word) : Except Reject Instr :=
  match (fld w 0 8).toNat with
  | 1 => decV3 w .vfadd
  | 2 => decV3 w .vfsub
  | 3 => decV3 w .vfmul
  | 4 => decV3 w .vfdiv
  | 5 => decV3 w .vfmin
  | 6 => decV3 w .vfmax
  | _ => .error .reservedFn

def decMajor16 (w : Word) : Except Reject Instr :=
  match (fld w 0 8).toNat with
  | 1 => decV3 w .vfma
  | 2 => decV3 w .vfms
  | _ => .error .reservedFn

def decMajor17 (w : Word) : Except Reject Instr :=
  match decLane (fld w 11 3) with
  | none => .error .reservedField
  | some lt =>
    match (fld w 3 3).toNat with
    | 0 =>
      match decCond (fld w 0 3) with
      | some c =>
        accept (fld w 25 1 == 0 && fld w 7 1 == 0 && lt.isInt)
          (.vcmp lt (fld w 8 3) (fld w 22 3) (fld w 6 1 == 1) c (fld w 18 4) (fld w 14 4))
      | none => .error .reservedFn
    | 1 =>
      match decFCond (fld w 0 3) with
      | some c =>
        accept (fld w 25 1 == 0 && fld w 7 1 == 0 && lt.isFloat)
          (.vfcmp lt (fld w 8 3) (fld w 22 3) (fld w 6 1 == 1) c (fld w 18 4) (fld w 14 4))
      | none => .error .reservedFn
    | _ => .error .reservedFn

def decMajor18 (w : Word) : Except Reject Instr :=
  match (fld w 0 8).toNat with
  | 1 => decVBits w .vand
  | 2 => decVBits w .vor
  | 3 => decVBits w .vxor
  | 4 => decV3 w .vshl
  | 5 => decV3 w .vshr
  | 6 => decV3 w .vsra
  | 7 => decVBits w .vsel
  | _ => .error .reservedFn

def decMajor19 (w : Word) : Except Reject Instr :=
  match (fld w 6 2).toNat with
  | 0 => decV2 w (fun lt g d a => .vbcast lt g d a (fld w 0 6))
  | 1 => if fld w 0 6 = 0#6 then decV3 w .vperm else .error .reservedFn
  | 2 =>
    match decShuf (fld w 0 6) with
    | some k => decV3 w (fun lt g d a b => .vshuf lt g d a b k)
    | none => .error .reservedFn
  | _ => decV3 w (fun lt g d a b => .vslide lt g d a b (fld w 0 6))

def decMajor1A (w : Word) : Except Reject Instr :=
  match decRed (fld w 0 8) with
  | some op => decV2 w (fun lt g d a => .vred lt g d a op)
  | none => .error .reservedFn

def decMajor1B (w : Word) : Except Reject Instr :=
  match decLane (fld w 0 3) with
  | some dst =>
    if fld w 3 3 = 0#3 then decV2 w (fun src g d a => .vcvt src dst g d a (fld w 6 2)) else .error .reservedFn
  | none => .error .reservedFn

def decMajor1C (w : Word) : Except Reject Instr :=
  match (fld w 0 8).toNat with
  | 1 => accept (fld w 14 4 == 0 && fld w 11 3 == 1) (.vlog2 (fld w 8 3) (fld w 22 4) (fld w 18 4))
  | 2 => accept (fld w 14 4 == 0 && fld w 11 3 == 1) (.vexp2 (fld w 8 3) (fld w 22 4) (fld w 18 4))
  | _ => .error .reservedFn

def decMajor1D (w : Word) : Except Reject Instr :=
  match decLane (fld w 11 3) with
  | none => .error .reservedField
  | some lt =>
    match (fld w 5 3).toNat with
    | 1 => accept (fld w 14 8 == 0) (.vmovs lt (fld w 8 3) (fld w 22 4) (fld w 0 5))
    | 2 =>
      let i := Instr.vins lt (fld w 8 3) (fld w 22 4) (fld w 0 5) (fld w 14 6)
      accept (fld w 20 2 == 0 && WellFormed i) i
    | 3 =>
      let i := Instr.vext lt (fld w 8 3) (fld w 0 5) (fld w 22 4) (fld w 14 6)
      accept (fld w 20 2 == 0 && WellFormed i) i
    | 4 =>
      accept (fld w 14 4 == 0 && fld w 0 5 == 0 && lt == .i32) (.vmovp (fld w 8 3) (fld w 22 4) (fld w 18 4))
    | _ => .error .reservedFn

def decMajor1E (w : Word) : Except Reject Instr :=
  match (fld w 0 11).toNat with
  | 0x000 => decR3 w .tld
  | 0x100 => decR3 w .tst
  | 0x200 => accept (fld w 25 1 == 0) (.tvget (fld w 21 4) (fld w 16 5) (fld w 11 5))
  | 0x300 => accept (fld w 20 1 == 0) (.tvset (fld w 21 5) (fld w 16 4) (fld w 11 5))
  | _ => .error .reservedFn

def decMajor1F (w : Word) : Except Reject Instr :=
  match (fld w 9 2).toNat with
  | 0 =>
    let i := Instr.mwld (decWFmt (fld w 2 2)) (fld w 8 1 == 1) (fld w 16 5) (fld w 11 5) (fld w 4 4)
    accept (fld w 21 5 == 0 && fld w 0 2 == 0 && WellFormed i) i
  | 1 =>
    let i := Instr.mwlt (decWFmt (fld w 2 2)) (fld w 8 1 == 1) (fld w 16 5) (fld w 11 5) (fld w 4 4)
    accept (fld w 21 5 == 0 && fld w 0 2 == 0 && WellFormed i) i
  | 2 =>
    match decAFmt (fld w 0 2) with
    | some f =>
      let i := Instr.mgo f (fld w 21 2) (fld w 16 5) (fld w 8 1 == 1) (fld w 4 4) (fld w 3 1 == 1) (fld w 2 1 == 1)
        (fld w 11 5)
      accept (fld w 23 3 == 0 && WellFormed i) i
    | none => .error .reservedFn
  | _ =>
    match decFmt (fld w 4 4) with
    | some f =>
      if fld w 8 1 = 0#1 then
        accept (fld w 18 3 == 0 && fld w 11 5 == 0 && fld w 0 3 == 0 && moutFmt f)
          (.moutTile f (fld w 21 5) (fld w 16 2) (fld w 3 1 == 1))
      else
        accept (fld w 18 3 == 0 && fld w 0 3 == 0 && moutFmt f)
          (.moutMemory f (fld w 21 5) (fld w 16 2) (fld w 11 5) (fld w 3 1 == 1))
    | none => .error .reservedFn

def decMajor20 (w : Word) : Except Reject Instr :=
  match (fld w 9 2).toNat with
  | 0 =>
    match decAFmt (fld w 0 2) with
    | some f =>
      accept (fld w 23 3 == 0 && fld w 19 2 == 0 && fld w 2 1 == 0)
        (.mgos f (fld w 21 2) (fld w 16 3) (fld w 11 5) (fld w 8 1 == 1) (fld w 4 4) (fld w 3 1 == 1))
    | none => .error .reservedFn
  | 1 => accept (fld w 21 5 == 0 && fld w 11 5 == 0 && fld w 0 9 == 0) (.mmask (fld w 16 5))
  | _ => .error .reservedFn

def decMajor21 (w : Word) : Except Reject Instr :=
  match (fld w 0 11).toNat with
  | 0x000 => accept (fld w 11 15 == 0) .mhold
  | 0x100 => accept (fld w 11 15 == 0) .myield
  | 0x200 => accept (fld w 23 3 == 0 && fld w 11 10 == 0) (.mclr (fld w 21 2))
  | _ => .error .reservedFn

def decMajor22 (w : Word) : Except Reject Instr :=
  match (fld w 14 2).toNat with
  | 0 => accept (fld w 16 5 == 0 && crAssigned (fld w 0 14).toNat) (.crrd (fld w 21 5) (fld w 0 14))
  | 1 => accept (fld w 21 5 == 0 && crAssigned (fld w 0 14).toNat) (.crwr (fld w 16 5) (fld w 0 14))
  | 2 => accept (fld w 21 5 == 0 && crAssigned (fld w 0 14).toNat) (.crset (fld w 16 5) (fld w 0 14))
  | _ => accept (fld w 21 5 == 0 && crAssigned (fld w 0 14).toNat) (.crclr (fld w 16 5) (fld w 0 14))

def decMajor23 (w : Word) : Except Reject Instr :=
  match (fld w 12 4).toNat with
  | 0 => accept (fld w 16 10 == 0) (.trap (fld w 0 12))
  | 1 => accept (fld w 16 10 == 0) (.bkpt (fld w 0 12))
  | 2 => accept (fld w 16 5 == 0 && fld w 1 11 == 0 && regIn (fld w 21 5) 1 28) (.tqpop (fld w 21 5) (fld w 0 1 == 1))
  | 3 =>
    match decAct (fld w 0 12) with
    | some x => .ok (.tresume (fld w 21 5) (fld w 16 5) x)
    | none => .error .reservedFn
  | _ => .error .reservedFn

def decMajor24 (w : Word) : Except Reject Instr :=
  match (fld w 11 2).toNat with
  | 0 => decM w .ld
  | 1 => decMS w .ldAcq
  | 2 => decM w .lds
  | _ => .error .reservedField

def decMajor25 (w : Word) : Except Reject Instr :=
  match (fld w 11 2).toNat with
  | 0 => decM w .ldu
  | 1 => decMS w .lduAcq
  | _ => .error .reservedField

def decMajor26 (w : Word) : Except Reject Instr :=
  match (fld w 11 2).toNat with
  | 0 => decM w .st
  | 1 => decMS w .stRel
  | 2 => decM w .stf
  | _ => .error .reservedField

def decMajor27 (w : Word) : Except Reject Instr :=
  match (fld w 11 2).toNat with
  | 2 => decM w .ldse
  | _ => .error .reservedField

def decMajor28 (w : Word) : Except Reject Instr :=
  match (fld w 0 4).toNat with
  | 0 => decAmo w .amoadd
  | 1 => decAmo w .amoand
  | 2 => decAmo w .amoor
  | 3 => decAmo w .amoxor
  | 4 => decAmo w .amomin
  | 5 => decAmo w .amomax
  | 6 => decAmo w .amominu
  | 7 => decAmo w .amomaxu
  | 8 => decAmo w .amoswap
  | 9 => decAmo w .amocas
  | _ => .error .reservedFn

def decMajor29 (w : Word) : Except Reject Instr :=
  match (fld w 13 3).toNat with
  | 0 =>
    match decScope (fld w 10 3) with
    | some s => accept (fld w 16 10 == 0 && fld w 0 10 == 0) (.fence s)
    | none => .error .reservedField
  | 1 => accept (fld w 21 5 == 0 && fld w 8 5 == 0) (.feset (fld w 16 5) (fld w 0 8))
  | 2 => accept (fld w 21 5 == 0 && fld w 8 5 == 0) (.feclr (fld w 16 5) (fld w 0 8))
  | 3 =>
    match decVamo (fld w 9 4), decLane (fld w 6 3) with
    | some op, some lt =>
      accept (fld w 25 1 == 0 && fld w 0 6 == 0 && vamoOk op lt) (.vamo op lt (fld w 21 4) (fld w 16 5))
    | _, _ => .error .reservedField
  | _ => .error .reservedFn

def decMajor2A (w : Word) : Except Reject Instr :=
  match (fld w 12 2).toNat with
  | 0 =>
    match decKind (fld w 14 4) with
    | some k =>
      let i := Instr.csend (fld w 18 3) k (fld w 0 4) (fld w 21 5)
      accept (fld w 4 8 == 0 && WellFormed i) i
    | none => .error .reservedField
  | 1 =>
    accept (fld w 14 4 == 0 && fld w 9 3 == 0 && fld w 0 4 == 0) (.crecv (fld w 21 5) (fld w 4 5) (fld w 18 3))
  | 2 => accept (fld w 14 4 == 0 && fld w 0 12 == 0) (.cpoll (fld w 21 5) (fld w 18 3))
  | _ => .error .reservedFn

def decMajor2B (w : Word) : Except Reject Instr :=
  let i := Instr.invoke (fld w 21 5) (fld w 11 3) (fld w 18 3) (fld w 14 4)
  accept (fld w 0 11 == 0 && WellFormed i) i

def decMajor2C (w : Word) : Except Reject Instr :=
  match (fld w 12 4).toNat with
  | 0 =>
    let i := Instr.xbind (fld w 0 3) (fld w 16 5) (fld w 8 3)
    accept (fld w 21 5 == 0 && fld w 11 1 == 0 && fld w 3 5 == 0 && WellFormed i) i
  | 1 => accept (fld w 3 9 == 0) (.xsend (fld w 0 3) (fld w 16 5) (fld w 21 5))
  | 2 => accept (fld w 16 5 == 0 && fld w 3 9 == 0 && regIn (fld w 21 5) 1 30) (.xrecv (fld w 21 5) (fld w 0 3))
  | 3 => accept (fld w 16 10 == 0 && fld w 3 9 == 0) (.xfree (fld w 0 3))
  | 4 => accept (fld w 16 10 == 0 && fld w 3 9 == 0) (.xflush (fld w 0 3))
  | 5 => accept (fld w 21 5 == 0 && fld w 3 9 == 0) (.xfold (fld w 0 3) (fld w 16 5))
  | 6 => accept (fld w 16 5 == 0 && fld w 4 8 == 0) (.xstat (fld w 21 5) (fld w 3 1 == 1) (fld w 0 3))
  | _ => .error .reservedFn

def decMajor2D (w : Word) : Except Reject Instr :=
  match (fld w 12 4).toNat with
  | 0 => accept (fld w 21 5 == 0 && fld w 0 12 == 0) (.cpy (fld w 16 5))
  | 1 => accept (fld w 21 5 == 0 && fld w 0 12 == 0) (.lswap (fld w 16 5))
  | 2 => accept (fld w 16 5 == 0 && fld w 1 11 == 0) (.engstat (fld w 21 5) (fld w 0 1 == 1))
  | _ => .error .reservedFn

/-- Two registers of format X, sysfn[11:0] zero. -/
def decX2 (w : Word) (mk : Reg → Reg → Instr) : Except Reject Instr :=
  accept (fld w 0 12 == 0) (mk (fld w 21 5) (fld w 16 5))

def decMajor2E (w : Word) : Except Reject Instr :=
  match (fld w 12 4).toNat with
  | 0 => decX2 w .spawn
  | 1 => accept (fld w 16 10 == 0 && fld w 0 12 == 0) .exit
  | 2 => accept (fld w 16 10 == 0) (.yield (fld w 0 12))
  | 3 => decX2 w .dpush
  | 4 => decX2 w .dkey
  | 5 => decX2 w .ddel
  | 6 => decX2 w .dpop
  | _ => .error .reservedFn

def decMajor2F (w : Word) : Except Reject Instr :=
  match (fld w 13 3).toNat with
  | 0 =>
    match decTarget (fld w 11 2) (fld w 5 4) (fld w 0 5) with
    | some t =>
      let i := Instr.rgset (fld w 21 5) t (fld w 16 5)
      accept (fld w 9 2 == 0 && WellFormed i) i
    | none => .error .reservedField
  | 1 =>
    match decTarget (fld w 11 2) (fld w 5 4) (fld w 0 5) with
    | some t =>
      let i := Instr.rgget (fld w 21 5) t
      accept (fld w 16 5 == 0 && fld w 9 2 == 0 && WellFormed i) i
    | none => .error .reservedField
  | 2 => accept (fld w 0 13 == 0 && regIn (fld w 21 5) 1 30) (.rgprobe (fld w 21 5) (fld w 16 5))
  | 3 => accept (fld w 10 3 == 0) (.rgsplit (fld w 21 5) (fld w 0 5) (fld w 5 5) (fld w 16 5))
  | 4 => accept (fld w 16 5 == 0 && fld w 10 3 == 0) (.rgmerge (fld w 21 5) (fld w 0 5) (fld w 5 5))
  | _ => .error .reservedFn

def decMajor30 (w : Word) : Except Reject Instr :=
  match (fld w 13 3).toNat with
  | 0 =>
    match decScope (fld w 10 3) with
    | some s =>
      let i := Instr.rgres s (fld w 21 5) (fld w 16 5)
      accept (fld w 0 10 == 0 && WellFormed i) i
    | none => .error .reservedField
  | 1 =>
    match decScope (fld w 10 3) with
    | some s =>
      let i := Instr.rginv s (fld w 9 1 == 1) (fld w 21 5) (fld w 16 5)
      accept (fld w 0 9 == 0 && WellFormed i) i
    | none => .error .reservedField
  | 2 => accept (fld w 16 10 == 0 && fld w 0 13 == 0) .rgsync
  | 3 => accept (fld w 21 5 == 0 && fld w 0 13 == 0) (.rgcpt (fld w 16 5))
  | _ => .error .reservedFn

def decMajor31 (w : Word) : Except Reject Instr :=
  match (fld w 13 3).toNat with
  | 0 =>
    let i := Instr.ginstall (fld w 21 5) (fld w 16 5) (fld w 0 4)
    accept (fld w 4 9 == 0 && WellFormed i) i
  | 1 =>
    let i := Instr.garg (fld w 21 5) (fld w 16 5) (fld w 0 7)
    accept (fld w 7 6 == 0 && WellFormed i) i
  | 2 => accept (fld w 0 13 == 0) (.gdrain (fld w 21 5) (fld w 16 5))
  | 3 => accept (fld w 0 13 == 0) (.greconf (fld w 21 5) (fld w 16 5))
  | _ => .error .reservedFn

def decMajor32 (w : Word) : Except Reject Instr :=
  match (fld w 12 4).toNat with
  | 0 => accept (fld w 16 5 == 0 && fld w 4 8 == 0) (.barj (fld w 21 5) (fld w 0 4))
  | 1 => accept (fld w 21 5 == 0 && fld w 4 8 == 0) (.barw (fld w 16 5) (fld w 0 4))
  | 2 => accept (fld w 21 5 == 0 && fld w 4 8 == 0) (.cntinc (fld w 0 4) (fld w 16 5))
  | 3 => accept (fld w 21 5 == 0 && fld w 4 8 == 0) (.cntwait (fld w 0 4) (fld w 16 5))
  | _ => .error .reservedFn

def decMajor33 (w : Word) : Except Reject Instr :=
  match (fld w 12 4).toNat with
  | 0 => decX2 w .rngdraw
  | 1 => accept (fld w 21 5 == 0 && fld w 4 8 == 0 && regIn (fld w 16 5) 1 30) (.snoise (fld w 0 4) (fld w 16 5))
  | 2 => accept (fld w 5 7 == 0) (.smaxk (fld w 21 5) (fld w 0 4) (fld w 16 5) (fld w 4 1 == 1))
  | 3 => accept (fld w 0 12 == 0 && fld w 21 5 != 0) (.accept (fld w 21 5) (fld w 16 5))
  | 4 => decX2 w .kvcommit
  | 5 => accept (fld w 21 5 == 0 && fld w 0 12 == 0) (.genabort (fld w 16 5))
  | _ => .error .reservedFn

def decMajor34 (w : Word) : Except Reject Instr :=
  match (fld w 12 4).toNat with
  | 0 => accept (fld w 21 5 == 0 && fld w 1 11 == 0) (.gate (fld w 16 5) (fld w 0 1 == 1))
  | 1 => decX2 w .qwait
  | 2 => decX2 w .ctxsave
  | 3 => decX2 w .ctxload
  | _ => .error .reservedFn

/-- The instruction that a word is, or why it is none (R77 to R83). -/
def decode (w : Word) : Except Reject Instr :=
  match (fld w 26 6).toNat with
  | 0x00 => decMajor00 w
  | 0x01 => decMajor01 w
  | 0x02 => decMajor02 w
  | 0x03 => decMajor03 w
  | 0x04 => decMajor04 w
  | 0x05 => .ok (.addi (fld w 21 5) (fld w 16 5) (fld w 0 16))
  | 0x06 => .ok (.andi (fld w 21 5) (fld w 16 5) (fld w 0 16))
  | 0x07 => .ok (.ori (fld w 21 5) (fld w 16 5) (fld w 0 16))
  | 0x08 => .ok (.xori (fld w 21 5) (fld w 16 5) (fld w 0 16))
  | 0x09 => decMajor09 w
  | 0x0A => decMajor0A w
  | 0x0B => decMajor0B w
  | 0x0C => decMajor0C w
  | 0x0D => decMajor0D w
  | 0x0E => decMajor0E w
  | 0x0F => decMajor0F w
  | 0x10 => accept (fld w 24 1 == 0) (.bra (fld w 25 1 == 1) (fld w 21 3) (fld w 0 21))
  | 0x11 => .ok (.call (fld w 21 5) (fld w 0 21))
  | 0x12 => decMajor12 w
  | 0x13 => decMajor13 w
  | 0x14 => decMajor14 w
  | 0x15 => decMajor15 w
  | 0x16 => decMajor16 w
  | 0x17 => decMajor17 w
  | 0x18 => decMajor18 w
  | 0x19 => decMajor19 w
  | 0x1A => decMajor1A w
  | 0x1B => decMajor1B w
  | 0x1C => decMajor1C w
  | 0x1D => decMajor1D w
  | 0x1E => decMajor1E w
  | 0x1F => decMajor1F w
  | 0x20 => decMajor20 w
  | 0x21 => decMajor21 w
  | 0x22 => decMajor22 w
  | 0x23 => decMajor23 w
  | 0x24 => decMajor24 w
  | 0x25 => decMajor25 w
  | 0x26 => decMajor26 w
  | 0x27 => decMajor27 w
  | 0x28 => decMajor28 w
  | 0x29 => decMajor29 w
  | 0x2A => decMajor2A w
  | 0x2B => decMajor2B w
  | 0x2C => decMajor2C w
  | 0x2D => decMajor2D w
  | 0x2E => decMajor2E w
  | 0x2F => decMajor2F w
  | 0x30 => decMajor30 w
  | 0x31 => decMajor31 w
  | 0x32 => decMajor32 w
  | 0x33 => decMajor33 w
  | 0x34 => decMajor34 w
  | _ => .error .reservedMajor

/-- The instruction of a word; a word that is none is the operation of R83. -/
def decodeOrReserved (w : Word) : Instr :=
  match decode w with
  | .ok i => i
  | .error _ => .reservedEncoding w

/-- What the decoder reads from the bits `w`; every instruction is one 32-bit word, so bits above `nbits` are zero. -/
def decodeTableWord (nbits w : Nat) : Option Instr :=
  match decode (BitVec.ofNat 32 (w % 2 ^ nbits)) with
  | .ok i => some i
  | .error _ => none

/-! ### The encoder -/

def bit1 (b : Bool) : BitVec 1 := BitVec.ofBool b

/-- Two fields, the higher first. -/
def cat {n m : Nat} (x : BitVec n) (y : BitVec m) : BitVec (n + m) := x ++ y

/-- Fields joined from the highest to the lowest, as a word. -/
def asWord {n : Nat} (x : BitVec n) : Word := x.setWidth 32

/-- A word of format R or T. -/
def encR (m : BitVec 6) (d a b : BitVec 5) (fn : BitVec 11) : Word :=
  asWord (cat m (cat d (cat a (cat b fn))))

/-- A word of format V. -/
def encV (m : BitVec 6) (lt : LaneType) (g : PReg) (d a b : VReg) (fn : BitVec 8) : Word :=
  asWord (cat m (cat d (cat a (cat b (cat (encLane lt) (cat g fn))))))

/-- The word of an instruction; `none` for a reserved encoding and for the steps that are no words. -/
def encode : Instr → Option Word
  | .ill => some 0
  | .add d a b => some (encR 0x00 d a b 0x001)
  | .sub d a b => some (encR 0x00 d a b 0x002)
  | .and d a b => some (encR 0x00 d a b 0x003)
  | .or d a b => some (encR 0x00 d a b 0x004)
  | .xor d a b => some (encR 0x00 d a b 0x005)
  | .andn d a b => some (encR 0x00 d a b 0x006)
  | .min d a b => some (encR 0x00 d a b 0x007)
  | .max d a b => some (encR 0x00 d a b 0x008)
  | .minu d a b => some (encR 0x00 d a b 0x009)
  | .maxu d a b => some (encR 0x00 d a b 0x00a)
  | .shl d a b => some (encR 0x01 d a b 0x001)
  | .shr d a b => some (encR 0x01 d a b 0x002)
  | .sra d a b => some (encR 0x01 d a b 0x003)
  | .rol d a b => some (encR 0x01 d a b 0x004)
  | .ror d a b => some (encR 0x01 d a b 0x005)
  | .mul d a b => some (encR 0x02 d a b 0x001)
  | .mulh d a b => some (encR 0x02 d a b 0x002)
  | .mulhu d a b => some (encR 0x02 d a b 0x003)
  | .div d a b => some (encR 0x02 d a b 0x004)
  | .divu d a b => some (encR 0x02 d a b 0x005)
  | .rem d a b => some (encR 0x02 d a b 0x006)
  | .remu d a b => some (encR 0x02 d a b 0x007)
  | .clz d a => some (encR 0x03 d a 0 0x001)
  | .ctz d a => some (encR 0x03 d a 0 0x002)
  | .popc d a => some (encR 0x03 d a 0 0x003)
  | .bext d a b => some (encR 0x03 d a b 0x004)
  | .bins d a b => some (encR 0x03 d a b 0x005)
  | .sxtB d a => some (encR 0x03 d a 0 0x006)
  | .sxtH d a => some (encR 0x03 d a 0 0x007)
  | .sxtW d a => some (encR 0x03 d a 0 0x008)
  | .cmp p c a b => some (asWord (cat 0x04#6 (cat 0#2 (cat p (cat a (cat b (cat 0#8 (encCond c))))))))
  | .addi d a imm => some (asWord (cat 0x05#6 (cat d (cat a imm))))
  | .andi d a imm => some (asWord (cat 0x06#6 (cat d (cat a imm))))
  | .ori d a imm => some (asWord (cat 0x07#6 (cat d (cat a imm))))
  | .xori d a imm => some (asWord (cat 0x08#6 (cat d (cat a imm))))
  | .shli d a k => some (asWord (cat 0x09#6 (cat d (cat a (cat 0#10 k)))))
  | .shri d a k => some (asWord (cat 0x09#6 (cat d (cat a (cat 1#10 k)))))
  | .srai d a k => some (asWord (cat 0x09#6 (cat d (cat a (cat 2#10 k)))))
  | .cmpi p c a imm => some (asWord (cat 0x0A#6 (cat 0#2 (cat p (cat a (cat (encCond c) imm))))))
  | .movk d k imm => some (asWord (cat 0x0B#6 (cat d (cat 0#3 (cat k imm)))))
  | .fadd d a b => some (encR 0x0C d a b 0x001)
  | .fsub d a b => some (encR 0x0C d a b 0x002)
  | .fmul d a b => some (encR 0x0C d a b 0x003)
  | .fdiv d a b => some (encR 0x0C d a b 0x004)
  | .fsqrt d a => some (encR 0x0C d a 0 0x005)
  | .fmin d a b => some (encR 0x0C d a b 0x006)
  | .fmax d a b => some (encR 0x0C d a b 0x007)
  | .fma d a b => some (encR 0x0D d a b 0x001)
  | .fms d a b => some (encR 0x0D d a b 0x002)
  | .fnma d a b => some (encR 0x0D d a b 0x003)
  | .fcmp p c a b => some (asWord (cat 0x0E#6 (cat 0#2 (cat p (cat a (cat b (cat 0#8 (encFCond c))))))))
  | .fclass d a => some (encR 0x0E d a 0 0x010)
  | .fcvt d a dst src => some (asWord (cat 0x0F#6 (cat d (cat a (cat 0#5 (cat 0#3 (cat (encFmt dst) (encFmt src))))))))
  | .bra neg p off => some (asWord (cat 0x10#6 (cat (bit1 neg) (cat 0#1 (cat p off)))))
  | .call l off => some (asWord (cat 0x11#6 (cat l off)))
  | .loop c off => some (asWord (cat 0x12#6 (cat c off)))
  | .jmpr a => some (encR 0x13 0 a 0 0x001)
  | .callr d a => some (encR 0x13 d a 0 0x002)
  | .pand d a b => some (asWord (cat 0x13#6 (cat 0#2 (cat d (cat 0#2 (cat a (cat 0#2 (cat b 0x010#11))))))))
  | .por d a b => some (asWord (cat 0x13#6 (cat 0#2 (cat d (cat 0#2 (cat a (cat 0#2 (cat b 0x011#11))))))))
  | .pxor d a b => some (asWord (cat 0x13#6 (cat 0#2 (cat d (cat 0#2 (cat a (cat 0#2 (cat b 0x012#11))))))))
  | .pnot d a => some (asWord (cat 0x13#6 (cat 0#2 (cat d (cat 0#2 (cat a (cat 0#5 0x013#11)))))))
  | .pmovFromScalar d a => some (asWord (cat 0x13#6 (cat 0#2 (cat d (cat a (cat 0#5 0x014#11))))))
  | .pmovToScalar d a => some (asWord (cat 0x13#6 (cat d (cat 0#2 (cat a (cat 0#5 0x015#11))))))
  | .vadd lt g d a b => some (encV 0x14 lt g d a b 0x01)
  | .vsub lt g d a b => some (encV 0x14 lt g d a b 0x02)
  | .vmul lt g d a b => some (encV 0x14 lt g d a b 0x03)
  | .vmin lt g d a b => some (encV 0x14 lt g d a b 0x04)
  | .vmax lt g d a b => some (encV 0x14 lt g d a b 0x05)
  | .vabs lt g d a => some (encV 0x14 lt g d a 0 0x06)
  | .vadds lt g d a b => some (encV 0x14 lt g d a b 0x07)
  | .vsubs lt g d a b => some (encV 0x14 lt g d a b 0x08)
  | .vfadd lt g d a b => some (encV 0x15 lt g d a b 0x01)
  | .vfsub lt g d a b => some (encV 0x15 lt g d a b 0x02)
  | .vfmul lt g d a b => some (encV 0x15 lt g d a b 0x03)
  | .vfdiv lt g d a b => some (encV 0x15 lt g d a b 0x04)
  | .vfmin lt g d a b => some (encV 0x15 lt g d a b 0x05)
  | .vfmax lt g d a b => some (encV 0x15 lt g d a b 0x06)
  | .vfma lt g d a b => some (encV 0x16 lt g d a b 0x01)
  | .vfms lt g d a b => some (encV 0x16 lt g d a b 0x02)
  | .vcmp lt g p all c a b => some (asWord (cat 0x17#6 (cat 0#1 (cat p (cat a (cat b (cat (encLane lt) (cat g (cat 0#1 (cat (bit1 all) (cat 0#3 (encCond c))))))))))))
  | .vfcmp lt g p all c a b => some (asWord (cat 0x17#6 (cat 0#1 (cat p (cat a (cat b (cat (encLane lt) (cat g (cat 0#1 (cat (bit1 all) (cat 1#3 (encFCond c))))))))))))
  | .vand g d a b => some (encV 0x18 .i32 g d a b 0x01)
  | .vor g d a b => some (encV 0x18 .i32 g d a b 0x02)
  | .vxor g d a b => some (encV 0x18 .i32 g d a b 0x03)
  | .vshl lt g d a b => some (encV 0x18 lt g d a b 0x04)
  | .vshr lt g d a b => some (encV 0x18 lt g d a b 0x05)
  | .vsra lt g d a b => some (encV 0x18 lt g d a b 0x06)
  | .vsel g d a b => some (encV 0x18 .i32 g d a b 0x07)
  | .vbcast lt g d a l => some (asWord (cat 0x19#6 (cat d (cat a (cat 0#4 (cat (encLane lt) (cat g (cat 0#2 l))))))))
  | .vperm lt g d a b => some (asWord (cat 0x19#6 (cat d (cat a (cat b (cat (encLane lt) (cat g (cat 1#2 0#6))))))))
  | .vshuf lt g d a b k => some (asWord (cat 0x19#6 (cat d (cat a (cat b (cat (encLane lt) (cat g (cat 2#2 (encShuf k)))))))))
  | .vslide lt g d a b k => some (asWord (cat 0x19#6 (cat d (cat a (cat b (cat (encLane lt) (cat g (cat 3#2 k))))))))
  | .vred lt g d a op => some (asWord (cat 0x1A#6 (cat d (cat a (cat 0#4 (cat (encLane lt) (cat g (encRed op))))))))
  | .vcvt src dst g d a part => some (asWord (cat 0x1B#6 (cat d (cat a (cat 0#4 (cat (encLane src) (cat g (cat part (cat 0#3 (encLane dst))))))))))
  | .vlog2 g d a => some (encV 0x1C .f32 g d a 0 0x01)
  | .vexp2 g d a => some (encV 0x1C .f32 g d a 0 0x02)
  | .vmovs lt g d s => some (asWord (cat 0x1D#6 (cat d (cat 0#8 (cat (encLane lt) (cat g (cat 1#3 s)))))))
  | .vins lt g d s l => some (asWord (cat 0x1D#6 (cat d (cat 0#2 (cat l (cat (encLane lt) (cat g (cat 2#3 s))))))))
  | .vext lt g s d l => some (asWord (cat 0x1D#6 (cat d (cat 0#2 (cat l (cat (encLane lt) (cat g (cat 3#3 s))))))))
  | .vmovp g d a => some (asWord (cat 0x1D#6 (cat d (cat a (cat 0#4 (cat 0#3 (cat g (cat 4#3 0#5))))))))
  | .tld t a b => some (encR 0x1E t a b 0x000)
  | .tst t a b => some (encR 0x1E t a b 0x100)
  | .tvget d t b => some (asWord (cat 0x1E#6 (cat 0#1 (cat d (cat t (cat b 0x200#11))))))
  | .tvset t a b => some (asWord (cat 0x1E#6 (cat t (cat 0#1 (cat a (cat b 0x300#11))))))
  | .mwld f pl a s tag => some (asWord (cat 0x1F#6 (cat 0#5 (cat a (cat s (cat 0#2 (cat (bit1 pl) (cat tag (cat (encWFmt f) 0#2)))))))))
  | .mwlt f pl t s tag => some (asWord (cat 0x1F#6 (cat 0#5 (cat t (cat s (cat 1#2 (cat (bit1 pl) (cat tag (cat (encWFmt f) 0#2)))))))))
  | .mgo f acc t pl tag add mask r => some (asWord (cat 0x1F#6 (cat 0#3 (cat acc (cat t (cat r (cat 2#2 (cat (bit1 pl) (cat tag (cat (bit1 add) (cat (bit1 mask) (encAFmt f))))))))))))
  | .moutTile f t acc emp => some (asWord (cat 0x1F#6 (cat t (cat 0#3 (cat acc (cat 0#5 (cat 3#2 (cat 0#1 (cat (encFmt f) (cat (bit1 emp) 0#3))))))))))
  | .moutMemory f d acc r emp => some (asWord (cat 0x1F#6 (cat d (cat 0#3 (cat acc (cat r (cat 3#2 (cat 1#1 (cat (encFmt f) (cat (bit1 emp) 0#3))))))))))
  | .mgos f acc c m pl tag add => some (asWord (cat 0x20#6 (cat 0#3 (cat acc (cat 0#2 (cat c (cat m (cat 0#2 (cat (bit1 pl) (cat tag (cat (bit1 add) (cat 0#1 (encAFmt f)))))))))))))
  | .mmask t => some (asWord (cat 0x20#6 (cat 0#5 (cat t (cat 0#5 (cat 1#2 0#9))))))
  | .mhold => some (asWord (cat 0x21#6 (cat 0#15 0x000#11)))
  | .myield => some (asWord (cat 0x21#6 (cat 0#15 0x100#11)))
  | .mclr acc => some (asWord (cat 0x21#6 (cat 0#3 (cat acc (cat 0#10 0x200#11)))))
  | .crrd d n => some (asWord (cat 0x22#6 (cat d (cat 0#5 (cat 0#2 n)))))
  | .crwr a n => some (asWord (cat 0x22#6 (cat 0#5 (cat a (cat 1#2 n)))))
  | .crset a n => some (asWord (cat 0x22#6 (cat 0#5 (cat a (cat 2#2 n)))))
  | .crclr a n => some (asWord (cat 0x22#6 (cat 0#5 (cat a (cat 3#2 n)))))
  | .trap imm => some (asWord (cat 0x23#6 (cat 0#10 (cat 0#4 imm))))
  | .bkpt imm => some (asWord (cat 0x23#6 (cat 0#10 (cat 1#4 imm))))
  | .tqpop d nw => some (asWord (cat 0x23#6 (cat d (cat 0#5 (cat 2#4 (cat 0#11 (bit1 nw)))))))
  | .tresume d a act => some (asWord (cat 0x23#6 (cat d (cat a (cat 3#4 (encAct act))))))
  | .ld z d b off => some (asWord (cat 0x24#6 (cat d (cat b (cat (encSize z) (cat 0#2 (cat 0#3 off)))))))
  | .lds z d b off => some (asWord (cat 0x24#6 (cat d (cat b (cat (encSize z) (cat 2#2 (cat 0#3 off)))))))
  | .ldu z d b off => some (asWord (cat 0x25#6 (cat d (cat b (cat (encSize z) (cat 0#2 (cat 0#3 off)))))))
  | .st z d b off => some (asWord (cat 0x26#6 (cat d (cat b (cat (encSize z) (cat 0#2 (cat 0#3 off)))))))
  | .stf z d b off => some (asWord (cat 0x26#6 (cat d (cat b (cat (encSize z) (cat 2#2 (cat 0#3 off)))))))
  | .ldse z d b off => some (asWord (cat 0x27#6 (cat d (cat b (cat (encSize z) (cat 2#2 (cat 0#3 off)))))))
  | .ldAcq z s d b off => some (asWord (cat 0x24#6 (cat d (cat b (cat (encSize z) (cat 1#2 (cat (encScope s) off)))))))
  | .lduAcq z s d b off => some (asWord (cat 0x25#6 (cat d (cat b (cat (encSize z) (cat 1#2 (cat (encScope s) off)))))))
  | .stRel z s d b off => some (asWord (cat 0x26#6 (cat d (cat b (cat (encSize z) (cat 1#2 (cat (encScope s) off)))))))
  | .amoadd z o d a b => some (asWord (cat 0x28#6 (cat d (cat a (cat b (cat (encAmoScope o) (cat (encAmoOrd o) (cat (encAmoSize z) 0#4))))))))
  | .amoand z o d a b => some (asWord (cat 0x28#6 (cat d (cat a (cat b (cat (encAmoScope o) (cat (encAmoOrd o) (cat (encAmoSize z) 1#4))))))))
  | .amoor z o d a b => some (asWord (cat 0x28#6 (cat d (cat a (cat b (cat (encAmoScope o) (cat (encAmoOrd o) (cat (encAmoSize z) 2#4))))))))
  | .amoxor z o d a b => some (asWord (cat 0x28#6 (cat d (cat a (cat b (cat (encAmoScope o) (cat (encAmoOrd o) (cat (encAmoSize z) 3#4))))))))
  | .amomin z o d a b => some (asWord (cat 0x28#6 (cat d (cat a (cat b (cat (encAmoScope o) (cat (encAmoOrd o) (cat (encAmoSize z) 4#4))))))))
  | .amomax z o d a b => some (asWord (cat 0x28#6 (cat d (cat a (cat b (cat (encAmoScope o) (cat (encAmoOrd o) (cat (encAmoSize z) 5#4))))))))
  | .amominu z o d a b => some (asWord (cat 0x28#6 (cat d (cat a (cat b (cat (encAmoScope o) (cat (encAmoOrd o) (cat (encAmoSize z) 6#4))))))))
  | .amomaxu z o d a b => some (asWord (cat 0x28#6 (cat d (cat a (cat b (cat (encAmoScope o) (cat (encAmoOrd o) (cat (encAmoSize z) 7#4))))))))
  | .amoswap z o d a b => some (asWord (cat 0x28#6 (cat d (cat a (cat b (cat (encAmoScope o) (cat (encAmoOrd o) (cat (encAmoSize z) 8#4))))))))
  | .amocas z o d a b => some (asWord (cat 0x28#6 (cat d (cat a (cat b (cat (encAmoScope o) (cat (encAmoOrd o) (cat (encAmoSize z) 9#4))))))))
  | .fence s => some (asWord (cat 0x29#6 (cat 0#10 (cat 0#3 (cat (encScope s) 0#10)))))
  | .feset a n => some (asWord (cat 0x29#6 (cat 0#5 (cat a (cat 1#3 (cat 0#5 n))))))
  | .feclr a n => some (asWord (cat 0x29#6 (cat 0#5 (cat a (cat 2#3 (cat 0#5 n))))))
  | .vamo op lt d a => some (asWord (cat 0x29#6 (cat 0#1 (cat d (cat a (cat 3#3 (cat (encVamo op) (cat (encLane lt) 0#6))))))))
  | .csend c k aux s => some (asWord (cat 0x2A#6 (cat s (cat c (cat (encKind k) (cat 0#2 (cat 0#8 aux)))))))
  | .crecv d e c => some (asWord (cat 0x2A#6 (cat d (cat c (cat 0#4 (cat 1#2 (cat 0#3 (cat e 0#4))))))))
  | .cpoll d c => some (asWord (cat 0x2A#6 (cat d (cat c (cat 0#4 (cat 2#2 0#12))))))
  | .invoke d k b m => some (asWord (cat 0x2B#6 (cat d (cat b (cat m (cat k 0#11))))))
  | .xbind o a n => some (asWord (cat 0x2C#6 (cat 0#5 (cat a (cat 0#4 (cat 0#1 (cat n (cat 0#5 o))))))))
  | .xsend o a d => some (asWord (cat 0x2C#6 (cat d (cat a (cat 1#4 (cat 0#9 o))))))
  | .xrecv d i => some (asWord (cat 0x2C#6 (cat d (cat 0#5 (cat 2#4 (cat 0#9 i))))))
  | .xfree i => some (asWord (cat 0x2C#6 (cat 0#10 (cat 3#4 (cat 0#9 i)))))
  | .xflush o => some (asWord (cat 0x2C#6 (cat 0#10 (cat 4#4 (cat 0#9 o)))))
  | .xfold o a => some (asWord (cat 0x2C#6 (cat 0#5 (cat a (cat 5#4 (cat 0#9 o))))))
  | .xstat d inb c => some (asWord (cat 0x2C#6 (cat d (cat 0#5 (cat 6#4 (cat 0#8 (cat (bit1 inb) c)))))))
  | .cpy a => some (asWord (cat 0x2D#6 (cat 0#5 (cat a (cat 0#4 0#12)))))
  | .lswap a => some (asWord (cat 0x2D#6 (cat 0#5 (cat a (cat 1#4 0#12)))))
  | .engstat d swap => some (asWord (cat 0x2D#6 (cat d (cat 0#5 (cat 2#4 (cat 0#11 (bit1 swap)))))))
  | .spawn d a => some (asWord (cat 0x2E#6 (cat d (cat a (cat 0#4 0#12)))))
  | .exit => some (asWord (cat 0x2E#6 (cat 0#10 (cat 1#4 0#12))))
  | .yield n => some (asWord (cat 0x2E#6 (cat 0#10 (cat 2#4 n))))
  | .dpush d a => some (asWord (cat 0x2E#6 (cat d (cat a (cat 3#4 0#12)))))
  | .dkey d a => some (asWord (cat 0x2E#6 (cat d (cat a (cat 4#4 0#12)))))
  | .ddel d a => some (asWord (cat 0x2E#6 (cat d (cat a (cat 5#4 0#12)))))
  | .dpop d a => some (asWord (cat 0x2E#6 (cat d (cat a (cat 6#4 0#12)))))
  | .rgset d t a => some (asWord (cat 0x2F#6 (cat d (cat a (cat 0#3 (cat (encTargetCode t) (cat 0#2 (cat (encTargetIsl t) (encTargetIdx t)))))))))
  | .rgget d t => some (asWord (cat 0x2F#6 (cat d (cat 0#5 (cat 1#3 (cat (encTargetCode t) (cat 0#2 (cat (encTargetIsl t) (encTargetIdx t)))))))))
  | .rgprobe d a => some (asWord (cat 0x2F#6 (cat d (cat a (cat 2#3 0#13)))))
  | .rgsplit d i j a => some (asWord (cat 0x2F#6 (cat d (cat a (cat 3#3 (cat 0#3 (cat j i)))))))
  | .rgmerge d i j => some (asWord (cat 0x2F#6 (cat d (cat 0#5 (cat 4#3 (cat 0#3 (cat j i)))))))
  | .rgres s d a => some (asWord (cat 0x30#6 (cat d (cat a (cat 0#3 (cat (encScope s) 0#10))))))
  | .rginv s nw d a => some (asWord (cat 0x30#6 (cat d (cat a (cat 1#3 (cat (encScope s) (cat (bit1 nw) 0#9)))))))
  | .rgsync => some (asWord (cat 0x30#6 (cat 0#10 (cat 2#3 0#13))))
  | .rgcpt a => some (asWord (cat 0x30#6 (cat 0#5 (cat a (cat 3#3 0#13)))))
  | .ginstall d a k => some (asWord (cat 0x31#6 (cat d (cat a (cat 0#3 (cat 0#9 k))))))
  | .garg d a j => some (asWord (cat 0x31#6 (cat d (cat a (cat 1#3 (cat 0#6 j))))))
  | .gdrain d a => some (asWord (cat 0x31#6 (cat d (cat a (cat 2#3 0#13)))))
  | .greconf d a => some (asWord (cat 0x31#6 (cat d (cat a (cat 3#3 0#13)))))
  | .barj d n => some (asWord (cat 0x32#6 (cat d (cat 0#5 (cat 0#4 (cat 0#8 n))))))
  | .barw a n => some (asWord (cat 0x32#6 (cat 0#5 (cat a (cat 1#4 (cat 0#8 n))))))
  | .cntinc n a => some (asWord (cat 0x32#6 (cat 0#5 (cat a (cat 2#4 (cat 0#8 n))))))
  | .cntwait n a => some (asWord (cat 0x32#6 (cat 0#5 (cat a (cat 3#4 (cat 0#8 n))))))
  | .rngdraw d a => some (asWord (cat 0x33#6 (cat d (cat a (cat 0#4 0#12)))))
  | .snoise v a => some (asWord (cat 0x33#6 (cat 0#5 (cat a (cat 1#4 (cat 0#8 v))))))
  | .smaxk d v a new => some (asWord (cat 0x33#6 (cat d (cat a (cat 2#4 (cat 0#7 (cat (bit1 new) v)))))))
  | .accept d a => some (asWord (cat 0x33#6 (cat d (cat a (cat 3#4 0#12)))))
  | .kvcommit d a => some (asWord (cat 0x33#6 (cat d (cat a (cat 4#4 0#12)))))
  | .genabort a => some (asWord (cat 0x33#6 (cat 0#5 (cat a (cat 5#4 0#12)))))
  | .gate a opn => some (asWord (cat 0x34#6 (cat 0#5 (cat a (cat 0#4 (cat 0#11 (bit1 opn)))))))
  | .qwait d a => some (asWord (cat 0x34#6 (cat d (cat a (cat 1#4 0#12)))))
  | .ctxsave d a => some (asWord (cat 0x34#6 (cat d (cat a (cat 2#4 0#12)))))
  | .ctxload d a => some (asWord (cat 0x34#6 (cat d (cat a (cat 3#4 0#12)))))
  | _ => none

end Sys2Proof
end

