-- ==== Sys2Proof/Machine/Event.lean ====
section
/-! DEFINITION. The steps that are no words, as the schedule holds them (log 2). They are the rows of `Instr` that no thread issues, in a
type of their own: Lean's compiler does not build values of a type with more than 244 constructors that carry data. -/
namespace Sys2Proof

inductive Event where
  | dealerOperation (t : Nat) (op : DealerOp)
  | sequenceTableOperation (t : Nat) (op : SeqOp)
  | parkWake (t : Nat)
  | memReply (t : Nat) (r : Reply)
  | ownerAccess (seq : Nat)
  | feWaitService (seq : Nat)
  | feWaitResend (t : Nat)
  | eccWriteback (ga : Nat)
  | gangCompare (c : Nat)
  | gangStart (c id : Nat)
  | gangComplete (c id : Nat)
  | gangAbort (c id : Nat)
  | arrayWatchdog (c : Nat)
  | waitWatchdog (t : Nat)
  | deadlock (c : Nat)
  | quiescenceReport (t : Nat)
  | qwaitLimit (t : Nat)
  | retentionEnter (c g : Nat)
  | retentionEnterDone (c g : Nat)
  | retentionExitDone (c g : Nat)
  | patrolClaim (g : PatrolSeg)
  | patrolChunkDone (fails : List Nat)
  | patrolRelease
  | channelTokenDepart (t c : Nat)
  | channelTokenArrive (t c : Nat) (inv : Nat) (tok : Tok)
  | invokeRequest (k : Nat) (r : InvReq)
  | invokeAnswer (t : Nat) (r : Reply)
  | invocationStart (k : Nat)
  | activeNotice (t inv : Nat)
  | invocationEnd (k : Nat)
  | nodeFaultReport (k : Nat)
  | islandFaultTrap (t inv : Nat) (i : TrapInfo)
  | scan (k n : Nat)
  | scanl (k n : Nat)
  | intersect (k n : Nat)
  | union (k n : Nat)
  | repeatNode (k n : Nat)
  | reduce (k n : Nat)
  | aluAdd (k n : Nat)
  | aluSub (k n : Nat)
  | aluMul (k n : Nat)
  | aluDiv (k n : Nat)
  | aluMin (k n : Nat)
  | aluMax (k n : Nat)
  | aluAnd (k n : Nat)
  | aluOr (k n : Nat)
  | aluXor (k n : Nat)
  | aluShl (k n : Nat)
  | aluShr (k n : Nat)
  | aluAbs (k n : Nat)
  | aluNeg (k n : Nat)
  | aluPass (k n : Nat)
  | aluCmp (k n : Nat)
  | aluFma (k n : Nat)
  | cvt (k n : Nat)
  | sd2b (k n : Nat)
  | b2sd (k n : Nat)
  | wconv (k n : Nat)
  | steer (k n : Nat)
  | merge (k n : Nat)
  | carry (k n : Nat)
  | invariant (k n : Nat)
  | select (k n : Nat)
  | pmenter (k n : Nat)
  | pmexit (k n : Nat)
  | mbar (k n : Nat)
  | arg (k n : Nat)
  | sink (k n : Nat)
  | mtload (k n : Nat)
  | mtstore (k n : Nat)
  | mtrmw (k n : Nat)
  | array (k n : Nat)
  | portin (k n : Nat)
  | portout (k n : Nat)
  | reconfiguration (k b : Nat)
  | reconfigurationDone (k b : Nat)
  | islandInstall (k : Nat) (r : InstallReq)
  | islandInstallDone (k b : Nat)
  | islandCommand (k : Nat) (c : IslCmd)
  | configError (k b n : Nat)
  | configReloadDone (k b : Nat)
  | transitPacket (p : TransitPkt)
  | transitCredit (c o b n : Nat) (answer ret : Bool)
  | transitFoldApply (c i tag emit : Nat)
  | transitFlushApply (c i emit : Nat)
  | copyTransfer (c : Nat)
  | copyComplete (c q : Nat)
  | swapHold (id : Nat)
  | swapHoldArrive (id c : Nat)
  | swapHoldAck (id c : Nat)
  | swapRun (id : Nat)
  | swapBurst (id : Nat)
  | swapDone (id : Nat)
  | swapLiftArrive (id c : Nat)
  | residencyFetchComplete (id : Nat)
  | residencyFetchFail (id : Nat)
  | rangeDropArrive (id tbl : Nat)
  | rangeDropAck (id tbl : Nat)
  | rangeEntryInvalid (tbl i : Nat)
  | rgresUpdateArrive (id tbl : Nat)
  | compactorTake
  | compactorDrainDone
  | compactorMoveDone
  | gateArrive (t : Nat) (u : GateUnit) (opn : Bool)
  | gateAck (t : Nat)
  | launchTakeEntry
  | launchInstallDone
  | freeze (cols isls : Nat)
  | stopTheColumn (cols isls : Nat)
  | release (cols isls : Nat)
  | step (cols core : Nat)
  | partitionGate (p : Partition)
  | stepEnd (c : Nat)
  | freezePinAssert
  | freezePinRelease
  | debugHalt (t : Nat)
  | debugResume (t : Nat)
  | debugWrite (off : Nat) (v : W64)
  | registerWrite (off size : Nat) (v : W64)
  | pointerDropRead (off size : Nat)
  | ringBaseWrite (err : Bool) (v : W64)
  | intstatWrite (en : Bool) (v : W64)
  | rcctlWrite (v : W64)
  | hostBar2Read (off n : Nat)
  | hostBar2Write (off : Nat) (data : List (Option Byte))
  | hostUnsupportedRequest (isRead : Bool)
  | hostWindowTimeout (seq : Nat)
  | hostWindowStoreFail (seq : Nat)
  | chainPacket (src dst seq : Nat) (op : ChainOp)
  | chainLinkDown (west : Bool)
  | timeSyncSend
  | timeSyncReceive (v : Nat)
  | setret (c : Nat) (mask : BitVec 32)
  | patrol (en : Bool)
  | repair (c bank row : Nat)
  | scanmap (off n : Nat)
  | powercap (watts : Nat)
  | chainnum (pkg count : BitVec 4)
  | reset
  | replay (on : Bool)
  | attest (nonce : List Byte)
  | extend (i : Nat) (digest : List Byte)
  | firmwareUpdate (image : List Byte)
  | platformMonitoring (sensor : Nat)
  | pldmBase (cmd : Nat)
  | conventionalReset
  | hotReset
  | functionLevelReset
  | bootStage (err : BitVec 8)
  | powerWindow (watts : Nat)
  | clockStepChange (mhz : Nat)
  | coolingLoopLost (top : Bool) (sensor temp : Nat)
  | coolingLoopRestored (top : Bool) (sensor temp : Nat)
  | junctionHot (sensor temp : Nat)
  | replayApply
  | transitSenderPacket (c : Nat)
  | arrayRequestComplete (k n id : Nat)
  | newClockRuns
  | ucieLinkRetrain (west : Bool) (width : Nat)
  | deviceControl2Write (v : Nat)
deriving DecidableEq, Repr

end Sys2Proof
end

