-- ==== Sys2Proof/Machine/State.lean ====
section
/-! DEFINITION. The state of one package, as plain data: threads, cores, columns, islands, memories, accesses in flight, package
registers, dispatch, engines, host port and management, and the model's own schedule (log 2). -/
namespace Sys2Proof.Machine

/-! ### Threads -/

/-- Park reasons (R27). -/
inductive Park where
  | mem | bank | chan | fe | gang | tile | window | transit | barrier | event | range | trap
deriving DecidableEq, Repr

/-- Slot states (R27, R341). -/
inductive SlotSt where
  | empty | ready | parked (r : Park) | halted | trapped
deriving DecidableEq, Repr

/-- What ends a park (R38, R41). `reply`, `accept`, `fence`, `gang`, `exit` and `dying` end with the instruction, the others make the
thread issue its instruction again. -/
inductive Wait where
  | none
  /-- a reply completes the instruction (R38) -/
  | reply
  /-- the access with this number can be accepted (R204, R219, R226) -/
  | accept (seq : Nat)
  /-- FENCE: every earlier access performed to the point of the scope (R216, R227) -/
  | fence (s : Scope)
  /-- every earlier store performed at its owner (R231) -/
  | drain
  /-- issued again in the next own cycle: after a forfeit (R194), or with a full wait list (R202) -/
  | retry
  | chan (c : Nat)
  | barrier (n : Nat) (ph : Bool)
  /-- QWAIT (R439): the columns and islands, TOKENS, and the status register -/
  | quiet (cols isls : Nat) (tokens : Bool) (d : Reg)
  | event (n : Nat) (thr : Nat)
  | tile (t : Nat) (readsToo : Bool)
  | window (o : Nat)
  | transit (i : Nat)
  /-- the array is held by another thread (R166) -/
  | hold
  /-- a compute operation on the bank is in flight (R163, R166) -/
  | bankBusy (a : Nat)
  /-- a masked MGO is in flight (R165) -/
  | masked
  /-- at a gang port, in its queue, or in a gang (R149) -/
  | gang
  /-- an entry leaves FETCHING, MOVING or DROPPING (R359, R367); `share`: the fetch covers the access at `va` (R362) -/
  | entry (tbl i : Nat) (share : Bool) (va : Nat)
  /-- an entry is VALID or INVALID (R364, R367) -/
  | entryFree (tbl i : Nat)
  /-- a patrolled segment is released (R249) -/
  | patrol (g : PatrolSeg)
  /-- a place in the queue of an engine: 0 copies of the core, 1 swap queue, 2 compactor (R329, R330, R378) -/
  | queue (n : Nat)
  /-- the end of the thread's own RGINV or RGRES (R374, R377) -/
  | inval (id : Nat)
  /-- at most `max` outstanding invalidations (R374, R375) -/
  | invalidations (max : Nat)
  /-- a trap record enters the queue (R186) -/
  | record
  /-- in a wait list (R201) -/
  | feList (seq : Nat)
  /-- room in the trap queue (R183) -/
  | trapRoom
  /-- EXIT waits for its stores (R346) -/
  | exit
  /-- a kill waits for its stores (R343) -/
  | dying
  /-- CTXSAVE waits until thread `t` is settled (R441) -/
  | settle (t : Nat)
deriving DecidableEq, Repr

/-- Check state of a stream under R259: tokens seen since its start, kind and last coordinate of the open fibre(0), an EMPTY in it,
and the rank of a stop that stands last. -/
structure Gram where
  begun : Bool := false
  kind : Option Nat := none
  coord : Option Nat := none
  empt : Bool := false
  stop : Option Nat := none
  /-- restored from an image: the next token is checked as at the start of a fibre (R445) -/
  resumed : Bool := false
deriving DecidableEq, Repr

/-- States of a channel register (R264). -/
inductive ChanSt where
  | unbound | outb | inb
deriving DecidableEq, Repr

/-- A channel register (R264). -/
structure Chan where
  st : ChanSt := .unbound
  /-- FULL, and the token bits, which stay where nothing writes them (log 46) -/
  full : Bool := false
  tok : Tok := 0
  landing : List Tok := []
  active : Bool := false
  isl : Nat := 0
  port : Nat := 0
  depth : Nat := 0
  inv : Nat := 0
  gram : Gram := {}
  /-- stores numbered below this precede the token in an OUT register (R267) -/
  since : Nat := 0
deriving DecidableEq, Repr

/-- A fault of a held store, to be reported (R205): cause, detail, virtual address, word address of the store. -/
structure Deferred where
  cause : Nat
  va : W64
  at_ : Nat
deriving DecidableEq, Repr

/-- A trap record (R183). -/
structure TrapRec where
  w0 : W64 := 0
  w1 : W64 := 0
  w2 : W64 := 0
  w3 : W64 := 0
deriving DecidableEq, Repr

/-- A thread slot (R24, R103). The numbers of cycles are column cycles (R427). -/
structure Thread where
  st : SlotSt := .empty
  regs : Vector W64 32 := Vector.replicate 32 0
  vregs : Vector Vec 16 := Vector.replicate 16 0
  preds : BitVec 8 := 1
  chans : Vector Chan 8 := Vector.replicate 8 {}
  seg : BitVec 10 := 0
  hand : W64 := 0xFFFFFFFFFF800000
  pc : W64 := 0
  fpm : BitVec 7 := 0
  ctag : BitVec 12 := 0
  /-- the context tag until the slot's next issue, where RGSET has written another since its last one (R367) -/
  ctagWas : Option (BitVec 12) := none
  resume : Bool := false
  skips : Nat := 0
  wait : Wait := .none
  parkedAt : Nat := 0
  readyFrom : Nat := 0
  /-- the next presentation follows a forfeit (R193) -/
  reissue : Bool := false
  /-- the next issue follows a park (RANGE), so that the checks before translation are not repeated (R359) -/
  retrans : Bool := false
  /-- the shape of its tile that a move of a tile had checked when it parked (RANGE), and the words of a descriptor or block that a command
  had read when it did, with whether they are all of them (R359) -/
  shapeAt : BitVec 32 := 0
  desc : Option (Sparse Byte × Bool) := none
  deferred : List Deferred := []
  /-- asynchronous traps due at the next issues, in order (R40, R268) -/
  asyncTraps : List TrapInfo := []
  /-- the SPAWN that has started the thread: its package cycle plus 1, its thread and its status register (R342) -/
  spawner : Option (Nat × Nat × Reg) := none
  /-- the record of the last trap, which an image of a TRAPPED thread holds although a handler has taken it from the queue (R442) -/
  trapRec : TrapRec := {}
  /-- the thread whose CTXSAVE settles this one, which issues nothing more (R441) -/
  savedBy : Option Nat := none
deriving DecidableEq, Repr

/-! ### Cores -/

/-- Marks of a stored word (R240 to R243). -/
inductive Mark where
  | clean | correctable | uncorrectable | poison
deriving DecidableEq, Repr

/-- States of a range entry (R364). -/
inductive EntrySt where
  | invalid | valid | fetching | moving | dropping
deriving DecidableEq, Repr

/-- A range entry (R356): permissions in the order E, A, X, W, R from bit 4 down, and addresses in bytes. -/
structure Entry where
  st : EntrySt := .invalid
  perms : BitVec 5 := 0
  fetch : Bool := false
  tag : BitVec 12 := 0
  base : Nat := 0
  limit : Nat := 0
  offset : Int := 0
  rlo : Nat := 0
  rhi : Nat := 0
deriving DecidableEq, Repr

/-- A virtual extent that a range entry has translated: table and entry (32 once another entry stands in its place), the virtual address,
the length, and the global address that it gave (R236, R237, R377). -/
structure Via where
  tbl : Nat
  idx : Nat
  va : Nat
  len : Nat
  ga : Nat
deriving DecidableEq, Repr

/-- A copy command after its checks (R328, R329): the translated starts, strides and counts, and the completion word. -/
structure CopyCmd where
  thr : Nat
  src : Nat
  dst : Nat
  fin : Option Nat
  esz : Nat
  dims : List (Int × Int × Nat)
  total : Nat
  seq : Nat
  done : Nat := 0
  bad : Bool := false
  /-- the extents that range entries have translated for it (R236) -/
  via : List Via := []
  /-- whether the source, the destination and the completion word lie in the core window (R190) -/
  srcWin : Bool := false
  dstWin : Bool := false
  /-- package cycle since which the next transfer waits -/
  since : Nat := 0
  /-- an access to another package that the transfer waits for, the bytes that it has brought, and the places of those from
  bad words -/
  flight : Option Nat := none
  buf : Option (Sparse Byte × List Nat) := none
  /-- the package cycle, plus 1, of the end of a memory tile's pipeline that the present part of the transfer is in (R301) -/
  pipe : Nat := 0
deriving DecidableEq, Repr

/-- A gang instruction at a port (R149): the thread and the word's fields that are compared, and those that may differ. -/
structure PortItem where
  slot : Nat
  cycle : Nat
  instr : Instr
  /-- what is compared -/
  key : List Nat
deriving DecidableEq, Repr

/-- A core (R18). -/
structure Core where
  code : Sparse Word := []
  codeMarks : Sparse Mark := []
  hctl : W64 := 0x0000000100000000
  hctlOld : W64 := 0x0000000100000000
  hctlAt : Nat := 0
  ssmask : BitVec 16 := 0
  hmask : BitVec 16 := 0
  bps : Vector W64 4 := Vector.replicate 4 0
  wpa : Vector W64 4 := Vector.replicate 4 0
  wpc : Vector W64 4 := Vector.replicate 4 0x0000000300000000
  tq : List TrapRec := []
  /-- records at the end of the queue and of those that wait behind it whose threads trapped in package cycle `tqAt` − 1 (R183: one
  cycle's records by ascending slot) -/
  tqAt : Nat := 0
  tqSame : Nat := 0
  waiting : List TrapRec := []
  dbl : Bool := false
  dtrec : TrapRec := {}
  copies : List CopyCmd := []
  copiesDone : BitVec 32 := 0
  port : Option PortItem := none
  portQ : List PortItem := []
deriving DecidableEq, Repr

/-! ### Columns -/

/-- States of a stationary plane (R145). -/
inductive PlaneSt where
  | empty | loading | ready (f : WFmt)
deriving DecidableEq, Repr

/-- A stationary plane (R145): bytes of its four quarters as stored, and its scales. -/
structure Plane where
  st : PlaneSt := .empty
  data : Sparse Byte := []
  scales : Sparse (BitVec 16) := []
  marks : Sparse Mark := []
deriving DecidableEq, Repr

/-- An array operation's stage. -/
inductive GangSt where
  | formed
  /-- a load that waits for a residency fetch (R363) -/
  | fetching
  /-- a load that waits for ports or segments (R152) -/
  | moving
  /-- completes in a cycle that is known, or an MGOS that takes tokens -/
  | running (start : Nat)
deriving DecidableEq, Repr

/-- The origin of an array request of an island, its plane and activation format (R304, R305). -/
structure ArrayReq where
  isl : Nat
  node : Nat
  plane : Bool
  fmt : AFmt
deriving DecidableEq, Repr

/-- The stream of one quarter of an MGOS (R164): the rows so far as lists of (K index, value), the open row, its check state, and
whether its DONE has been consumed. -/
structure MgosSt where
  rows : List (List (Nat × Nat)) := []
  cur : List (Nat × Nat) := []
  gram : Gram := {}
  ended : Bool := false
deriving DecidableEq, Repr

/-- A gang with its members by core, or an ARRAY request standing in the compute side's order (R151). Rows are lists of (K index,
value); cycles are column cycles. -/
structure Gang where
  id : Nat
  formed : Nat
  members : List PortItem
  req : Option ArrayReq := none
  st : GangSt := .formed
  rows : List (List (Nat × Nat)) := []
  streams : List MgosSt := []
  /-- first cycle in which each layer's part of a load moves -/
  layerStart : Sparse Nat := []
  m : Nat := 0
  /-- last cycle of the side's use, and of the operation, once known -/
  busyTo : Nat := 0
  doneAt : Nat := 0
  /-- a load's global addresses by quarter, the entries that gave them, and its number among transfers (R236) -/
  bases : List Nat := []
  via : List Via := []
  num : Nat := 0
  /-- what has made it abort, by quarter (R153) -/
  fails : List (Nat × TrapInfo) := []
  /-- the tokens that an MGOS has taken, last first: thread, channel register, and the register before (R11, R153) -/
  taken : List (Nat × PReg × Chan) := []
deriving DecidableEq, Repr

/-- The exclusive hold (R155). -/
structure Hold where
  core : Nat
  slot : Nat
  start : Nat
deriving DecidableEq, Repr

/-- Retention of a stacked segment (R244 to R246); cycle numbers are package cycles. -/
inductive RetSt where
  | normal | entering (till : Nat) (exitAfter : Bool) | retained | leaving (till : Nat)
deriving DecidableEq, Repr

/-- A branch of an outbound channel (R312). -/
structure Branch where
  col : Nat
  inc : Nat
  w : Nat
  credits : Nat
  /-- the swap commands whose holds cover its inbound channel, as the producer has heard (R332) -/
  holds : List Nat := []
deriving DecidableEq, Repr

/-- An outbound transit channel (R312, R315). -/
structure OutChan where
  bound : Bool := false
  /-- branches of a restored binding whose other end is not loaded (R444) -/
  half : List Nat := []
  branches : List Branch := []
  floor : BitVec 32 := 0
  gate : Bool := false
  holds : List Nat := []
deriving DecidableEq, Repr

/-- States of a window slot (R316). -/
inductive WinSt where
  | free | inflight | filled | claimed | returning
deriving DecidableEq, Repr

/-- A window slot (R315). -/
structure WinSlot where
  st : WinSt := .free
  tag : Nat := 0
  len : Nat := 0
  err : Bool := false
deriving DecidableEq, Repr

/-- An inbound transit channel (R315). -/
structure InChan where
  bound : Bool := false
  /-- the producer's end of a restored binding is not loaded (R444) -/
  half : Bool := false
  prod : Nat := 0
  out : Nat := 0
  branch : Nat := 0
  w : Nat := 0
  head : Nat := 0
  recv : Nat := 0
  fill : Nat := 0
  slots : List WinSlot := []
  lastFold : BitVec 32 := 0
  folds : BitVec 3 := 0
  holds : List Nat := []
deriving DecidableEq, Repr

/-- What a transit sender sends. -/
inductive SendKind where
  | data | fold | flush
deriving DecidableEq, Repr

/-- An item of the transit sender of a column (R318): its packets so far, and the package cycle from which it may emit. -/
structure SendItem where
  kind : SendKind
  thr : Option Nat
  out : Nat
  src : Nat := 0
  len : Nat := 0
  tag : Nat
  seq : Nat
  from_ : Nat
  done : Nat := 0
  via : List Via := []
  /-- the source lies in the core window (R190) -/
  win : Bool := false
  flight : Option Nat := none
  buf : Option (Sparse Byte × List Nat) := none
  pipe : Nat := 0
deriving DecidableEq, Repr

/-- A flush, and the branches whose answers are awaited (R321). -/
structure FlushWait where
  thr : Option Nat
  out : Nat
  left : List Nat
deriving DecidableEq, Repr

/-- What the quiescence tree knows of a unit (R408), by past cycle from bit 0 back: HOLD; HOLD from tokens and operations alone; HOLD from
one thread alone. Then the cycle of the last HOLD from tokens, and the last HOLDs of two different threads, each cycle plus 1. -/
structure Hist where
  all : BitVec 32 := 0
  tok : BitVec 32 := 0
  solo : BitVec 32 := 0
  lastTok : Nat := 0
  by1 : Nat × Nat := (0, 0)
  by2 : Nat × Nat := (0, 0)
deriving DecidableEq, Repr

/-- A column (R18). -/
structure Col where
  cyc : Nat := 0
  frozen : Bool := false
  gatedAt : Nat := 0
  fcyc : W64 := 0
  fskid : BitVec 5 := 0
  stepCore : Option Nat := none
  /-- a trigger of a freeze or a stop (R430): the cycle t, whether it is a stop, and whether a trap has made it -/
  gateDue : Option (Nat × Bool × Bool) := none
  tiles : Sparse Byte := []
  tileMarks : Sparse Mark := []
  tshape : Vector (BitVec 32) 32 := Vector.replicate 32 0x07F0007F
  acc : Sparse (BitVec 32) := []
  accMarks : Sparse Mark := []
  accFull : BitVec 4 := 0
  accPoison : BitVec 4 := 0
  plane0 : Plane := {}
  plane1 : Plane := {}
  mask : Sparse (BitVec 128) := []
  maskOff : Sparse (BitVec 16) := []
  maskMarks : Sparse Mark := []
  hold : Option Hold := none
  gangs : List Gang := []
  nextGang : Nat := 0
  outs : Vector OutChan 8 := Vector.replicate 8 {}
  ins : Vector InChan 8 := Vector.replicate 8 {}
  sendQ : List SendItem := []
  flushes : List FlushWait := []
  /-- packets on their way to the reserved slots, with the package cycle of their writing (R318) -/
  arriving : List (Nat × TransitPkt) := []
  barc : Vector (BitVec 33) 16 := Vector.replicate 16 0
  evc : Vector W64 16 := Vector.replicate 16 0
  perf : Vector W64 64 := Vector.replicate 64 0
  wdlimit : BitVec 32 := 0
  cevent : BitVec 5 := 0
  lastWin : Sparse Nat := []
  bankBusy : Sparse Nat := []
  portBusy : Sparse Nat := []
  /-- holder of a vertical port (R195): 1 an MWLD, 2 a layer-swap burst -/
  portHold : Sparse Nat := []
  /-- performance counters written, and CEVENT bits set, in the present cycle (R8) -/
  perfHeld : List Nat := []
  cevNow : BitVec 5 := 0
  retMask : BitVec 32 := 0
  ret : Sparse RetSt := []
  segUsed : Sparse Nat := []
  moved : Nat := 0
  hist : Hist := {}
  copyTurn : Nat := 0
deriving DecidableEq, Repr

/-! ### Islands -/

/-- States of a configuration bank (R386). -/
inductive BankSt where
  | free | installing | installed | active | draining
deriving DecidableEq, Repr

/-- A bank of the configuration store (R384). -/
structure Bank where
  st : BankSt := .free
  graph : Nat := 0
  nslots : Nat := 0
  tiles : Nat := 0
  nodes : List (BitVec 128) := []
  /-- errors of the 8-byte words of the nodes, by 2 × slot and half (R240, R384) -/
  marks : Sparse Mark := []
  args : Sparse W64 := []
  /-- depth of the stream at each input port, by 4 × slot + port (R284) -/
  depths : Sparse Nat := []
  reloading : Bool := false
  /-- threads awaiting the end of a GDRAIN, with the status register -/
  waiters : List (Nat × Reg) := []
  /-- the thread and status register of a GINSTALL that is writing the bank -/
  installer : Option (Nat × Reg) := none
  /-- an uncorrectable error in its words: the lowest slot in error (R394) -/
  errSlot : Nat := 0
  /-- the CRC-32C of the block (R384) -/
  signature : Nat := 0
deriving DecidableEq, Repr

/-- A token within an island: the vector of the data plane (R284), and the mark of a faulted DONE, with the slot and the cause and
subcode of the fault (R298). -/
structure ITok where
  tok : Tok
  vec : Vec := 0
  mark : Option (Nat × Nat) := none
deriving DecidableEq, Repr

/-- A token in a buffer, and the island cycle from which it stands there (R261) or may leave (R290). -/
structure Buf where
  tok : ITok
  from_ : Nat
deriving DecidableEq, Repr

/-- The running state of a node. -/
structure Node where
  ins : Vector (List Buf) 3 := Vector.replicate 3 []
  /-- conditions at port 3, with the island cycle from which each stands there -/
  conds : List (Bool × Nat) := []
  /-- a PORTIN's tokens from its channel register, with the package cycle of arrival -/
  mesh : List (Tok × Nat) := []
  /-- input ports whose slots have been freed in island cycle `freedAt` − 1 (R261) -/
  freed : List Nat := []
  freedAt : Nat := 0
  /-- slots of the far side in use as this side sees them: a PORTOUT's of its channel register, a PORTIN's own as seen by its channel
  register, and the package cycles at which freed ones are seen (R266) -/
  inUse : Nat := 0
  returns : List Nat := []
  outA : List Buf := []
  outB : List Buf := []
  condOut : List (Bool × Nat) := []
  grams : Vector Gram 3 := Vector.replicate 3 {}
  /-- a stop held back until the next token is known (R258) -/
  held : Option Nat := none
  phase : Nat := 0
  /-- registers of the operation -/
  r0 : Nat := 0
  r1 : Nat := 0
  r2 : Nat := 0
  r3 : Nat := 0
  /-- last data kind of each input of a UNION -/
  kinds : List (Option Nat) := [none, none]
  acc : Option ITok := none
  store : List ITok := []
  rows : List (List (Nat × Nat)) := []
  cur : List (Nat × Nat) := []
  /-- accesses and requests outstanding, and what they have brought in order: the value, and the cause of a failure -/
  busy : Nat := 0
  got : List (Nat × Nat) := []
  /-- a read of a scan node waits for a residency fetch: the entry, and whether the fetch covers it (R362) -/
  fetchWait : Option (Nat × Bool) := none
  /-- a memory node waits for a word to become FULL -/
  stall : Bool := false
  /-- after a suppressed fault (R298): the mark, and the ports whose DONE is still to be discarded -/
  drop : Option (Nat × Nat) := none
  dropLeft : List Nat := []
  stopped : Bool := false
  /-- a PORTIN, PORTOUT or SINK has passed a DONE -/
  doneSeen : Bool := false
deriving DecidableEq, Repr

/-- An invocation in the queue or running (R276, R307). -/
structure Inv where
  id : Nat
  thr : Nat
  graph : Nat
  ops : List W64
  port : Nat
  ch : Nat
  n : Nat
  bank : Nat := 0
  /-- the invoker has been killed or saved (R308) -/
  gone : Bool := false
  /-- restored from an image: its argument table, and the words of its nodes (R445) -/
  table : Option (List W64) := none
  states : List (Nat × W64 × W64) := []
deriving DecidableEq, Repr

/-- A reconfiguration in progress (R391). -/
structure Reconf where
  bank : Nat
  waiters : List (Nat × Reg) := []
  /-- for the invocation at the head of the queue -/
  head : Bool := false
  /-- the bank has become FREE meanwhile -/
  void : Bool := false
deriving DecidableEq, Repr

/-- A stream island (R19). -/
structure Isl where
  cyc : Nat := 0
  frozen : Bool := false
  gatedAt : Nat := 0
  ifcyc : W64 := 0
  gateDue : Option Nat := none
  rt : Vector Entry 32 := Vector.replicate 32 {}
  itag : BitVec 12 := 0
  banks : Vector Bank 4 := Vector.replicate 4 {}
  activeBank : Option Nat := none
  queue : List Inv := []
  /-- accepted requests that wait for an entry of the queue, with what their answers bind (R348) -/
  waiting : List (InvReq × List (PReg × Bool × Nat × Nat)) := []
  run : Option Inv := none
  nodes : Sparse Node := []
  /-- the node whose fault ends the invocation, and the island cycle of that fault (R309) -/
  faulting : Option (Nat × Nat) := none
  nfault : Sparse W64 := []
  /-- FLAGS set in the present cycle (R8) -/
  flagNow : Sparse W64 := []
  /-- GARGs that wait for the end of an invocation (R393) -/
  gargs : List (Nat × Nat × Nat × W64 × Reg) := []
  reconf : Option Reconf := none
  /-- GRECONFs held for the next idle cycle, with the threads that wait (R392) -/
  heldReconf : Option (Nat × List (Nat × Reg)) := none
  islblk : W64 := 0
  moved : Nat := 0
  hist : Hist := {}
  /-- memory tiles: the cycle after the last entry, and the writes on their way by 16 × tile + bank (R301) -/
  tileNext : Sparse Nat := []
  tileWrites : List (Nat × Nat) := []
deriving DecidableEq, Repr

/-! ### Memories and accesses -/

/-- The memories of the address map (R188), keyed by bits [47:0] of the global address; FE bits and marks by that number / 8; host memory
by host address; and the blocks of 64 bytes in retention in which BCH finds errors, by that number / 64 (R240, R245). -/
structure Memory where
  bytes : List Host.Cell := []
  host : Sparse (Option Byte) := []
  fe : Sparse Bool := []
  marks : Sparse Mark := []
  blocks : Sparse Mark := []
deriving DecidableEq, Repr

/-- The canonical form of the memories: addresses rise strictly, and nothing is listed that equals what an unlisted address reads as. -/
def Memory.wf (m : Memory) : Bool := swf 0 m.bytes && swf none m.host && swf false m.fe && swf .clean m.marks &&
  swf .clean m.blocks

/-- Who makes an access (R223). -/
inductive Agent where
  | thread (t : Nat)
  | copy (core : Nat)
  | swap
  | compactor
  | transit (col : Nat)
  | stream (isl node : Nat)
  | host
  | chain (pkg : Nat)
  | launch
  /-- the array of a column, for an MWLD (R160) -/
  | array (col : Nat)
deriving DecidableEq, Repr

/-- A part of a move of many words, within one aligned block of 64 bytes, or of 128 bytes of stacked memory: its address, the virtual
one, its place in the data moved, and its length; the package cycle from which it stands at its owner; and whether it has entered the
pipeline of a memory tile (R301). -/
structure Piece where
  ga : Nat
  va : Nat
  off : Nat
  n : Nat
  due : Nat := 0
  piped : Bool := false
deriving DecidableEq, Repr

/-- What the bytes that a move of many words reads are for. -/
inductive GatherUse where
  /-- TLD (R157) -/
  | tile (t : Nat)
  /-- CTXLOAD (R440) with its status register and selector -/
  | context (d : Reg) (sel : W64)
  /-- GINSTALL (R397): status register, island, and whether the node words are among the bytes -/
  | install (d : Reg) (k : Nat) (whole : Bool)
  /-- the descriptor of CPY, LSWAP or RGCPT (0, 1, 2), and whether all of it is among the bytes -/
  | descriptor (kind : Nat) (whole : Bool)
  /-- an engine's transfer from another package, and the places of bytes from bad words -/
  | engine (bad : List Nat)
  /-- quarter `q` of a load of the array: column, and number of the gang (R160) -/
  | plane (c id q : Nat)
  /-- a BAR2 read (R454) -/
  | host
  /-- the image of the launch that is loading (R339) -/
  | image
deriving DecidableEq, Repr

/-- What an access does at its owner. -/
inductive AccOp where
  /-- LD, LDU: size, sign extension, destination -/
  | load (z : MSize) (signed : Bool) (d : Reg)
  /-- LDS (`empty` false) and LDSE -/
  | fe (z : MSize) (empty : Bool) (d : Reg)
  /-- ST (`full` false) and STF -/
  | store (z : MSize) (full : Bool) (data : Nat)
  /-- an atomic of major 0x28: operation 0 to 9 -/
  | amo (op : Nat) (z : AmoSize) (d : Reg) (x c : W64)
  /-- VAMO: the words still to do, and the old values so far -/
  | vamo (op : VamoOp) (lt : LaneType) (d : VReg) (x : BitVec 256) (old : List W64)
  /-- FESET and FECLR: words still to do -/
  | feBits (full : Bool) (n : Nat)
  | gather (todo : List Piece) (got : Sparse Byte) (use : GatherUse)
  | scatter (todo : List Piece) (data : Sparse Byte) (full : Bool) (r : Reply)
  /-- MTRMW (R300): operation, element format, elements, operand -/
  | rmw (op : Nat) (f : Fmt) (n : Nat) (x : Nat)
  /-- a BAR2 write: the parts still to do, and the enabled bytes by place (R454) -/
  | hostWrite (todo : List Piece) (data : List (Option Byte))
  /-- LD and ST of space 0x5 -/
  | regLoad (d : Reg)
  | regStore (v : W64)
deriving DecidableEq, Repr

/-- An access on its way to, or waiting at, its owner. -/
structure Access where
  seq : Nat := 0
  agent : Agent
  op : AccOp
  ga : Nat
  va : Nat
  size : Nat
  /-- package cycle from which it stands at its owner -/
  due : Nat := 0
  acq : Bool := false
  rel : Option Scope := none
  /-- not yet accepted: its thread waits (R204, R219) -/
  waiting : Bool := false
  /-- class 2 of R193: re-issued after a forfeit, or a later word of a VAMO -/
  again : Bool := false
  /-- in the wait list of R201, from this package cycle on -/
  joined : Option Nat := none
  /-- held on a residency fetch: table and entry, and whether that fetch covers it (R205, R362) -/
  held : Option (Nat × Nat × Bool) := none
  /-- the extents that range entries have translated for it (R236) -/
  via : List Via := []
  /-- word address of a store (R205) -/
  pc : Nat := 0
  /-- the tile that a TST reads, and the bank that a MOUT empties at its end (R148, R163) -/
  tile : Option Nat := none
  clear : Option Nat := none
  /-- in the pipeline of a memory tile (R301); of an access at another package, that its withdrawal has been asked for (R220) -/
  entered : Bool := false
  /-- the trap of the bad words that a read of many words has met so far -/
  bad : Option TrapInfo := none
  /-- a move of many words: the package cycle in which the last of its words so far has come back, and whether any of them lies outside
  its column's own memories (R194, R195) -/
  back : Nat := 0
  far : Bool := false
deriving DecidableEq, Repr

/-! ### Package -/

/-- Package registers (R169, R451). -/
structure Pkg where
  tbudget : BitVec 23 := 4096
  vocabLimit : BitVec 32 := 0xFFFFFFFF
  padlo : BitVec 32 := 1
  padhi : BitVec 32 := 0
  lqtail : BitVec 6 := 0
  lqhead : BitVec 6 := 0
  lqskip : Bool := false
  /-- SKIPPED of LQSTAT and OVF of RCCTL set in the present cycle, and the count by which DROP of THPTR has risen in it (R8) -/
  skipNow : Bool := false
  ovfNow : Bool := false
  thDropNow : Nat := 0
  iter : BitVec 32 := 0
  homebase : BitVec 7 := 0
  icfgbase : W64 := 0
  rngkey : W64 := 0
  frzctl : BitVec 34 := 0
  frztrig : BitVec 10 := 0
  pin : Bool := false
  plsel : BitVec 32 := 0
  /-- words of raw scan chains that debug writes have replaced (R434), by unit, page and word -/
  scan : Sparse (Option W64) := []
  hwbase : W64 := 0
  bar2win : W64 := 0
  intstat : W64 := 0
  inten : W64 := 0
  hperr : W64 := 0
  /-- bits of INTSTAT and HPERR set in the present cycle (R8) -/
  intNow : W64 := 0
  hperrNow : W64 := 0
  bootstat : W64 := 0
  pkgNo : BitVec 4 := 0
  pkgCount : BitVec 4 := 0
  eastUp : Bool := false
  westUp : Bool := false
  loops : BitVec 2 := 3
  vhalf : Bool := false
  cap : Nat := 300
  mhz : Nat := 1800
  thring : W64 := 0
  erring : W64 := 0
  thptr : W64 := 0
  errptr : W64 := 0
  rcbase : W64 := 0
  rcctl : W64 := 0
deriving DecidableEq, Repr

/-- A request of the dealer (R349). -/
structure DealReq where
  ident : BitVec 16
  deadline : BitVec 48
  demand : BitVec 16
deriving DecidableEq, Repr

/-- An entry of the sequence table (R411). -/
structure SeqEntry where
  committed : BitVec 32 := 0
  req : BitVec 16 := 0
  pos : BitVec 32 := 0
  draw : BitVec 16 := 0
  oov : Bool := false
  wrap : Bool := false
deriving DecidableEq, Repr

/-- A data section of a launch that is still to be written (R102): its core, virtual address, bytes and virtual column. -/
structure DataSection where
  core : Nat
  va : Nat
  bytes : List Byte
  vc : Nat
deriving DecidableEq, Repr

/-- A launch whose image has been read: data sections to write, slots to start with their addresses, columns, and the image's digest. -/
structure LaunchLoad where
  todo : List DataSection := []
  starts : List (Nat × Nat) := []
  cols : List Nat := []
  digest : List Byte := []
  /-- the write of a data section that is under way -/
  flight : Option Nat := none
deriving DecidableEq, Repr

/-- Launch queue, dealer, launches, sequence table and abort list. -/
structure Disp where
  lq : Sparse W64 := []
  /-- the entry being loaded -/
  loading : Option Nat := none
  /-- the read of its image that is under way: the number of the access, and whether it is of what follows the header (R340) -/
  reading : Option (Nat × Bool) := none
  data : Option LaunchLoad := none
  /-- RUNNING entries and the columns of each -/
  running : List (Nat × List Nat) := []
  launchGate : Bool := false
  heap : List DealReq := []
  dealerGate : Bool := false
  seqs : Sparse SeqEntry := []
  /-- DRAWWRAP (1) and OOV (2) of the sequence table set in the present cycle, by entry (R8) -/
  seqNow : Sparse Nat := []
  aborts : List (BitVec 32) := []
  /-- GATEs whose acknowledgements are awaited: number, thread, and how many (R438) -/
  gateWaits : List (Nat × Nat × Nat) := []
deriving DecidableEq, Repr

/-- States of a swap command (R331). -/
inductive SwapSt where
  | queued | holding (left : List Nat) (since : Nat) | drainwait | running (start : Nat)
deriving DecidableEq, Repr

/-- A layer-swap command (R330). -/
structure SwapCmd where
  id : Nat
  stacked : Nat
  gddr : Nat
  len : Nat
  writeback : Bool
  outMask : Nat
  inMask : Nat
  fin : Option Nat
  st : SwapSt := .queued
  bad : Bool := false
  via : List Via := []
  /-- the store of the completion word on its way -/
  sent : Option Nat := none
  /-- per layer, the offset of the next burst and the end, and the layer whose turn it is (R333) -/
  ptrs : List (Nat × Nat) := []
  turn : Nat := 0
deriving DecidableEq, Repr

/-- A residency fetch (R362): the entry, its column and the bounds of its windows, in virtual addresses. -/
structure Fetch where
  id : Nat
  tbl : Nat
  idx : Nat
  lo : Nat
  hi : Nat
  newLo : Nat
  newHi : Nat
  /-- the entry before the fetch -/
  old : Entry := {}
  /-- the column, the parts to fill by layer, and the package cycle of the first burst -/
  col : Nat
  ptrs : List (Nat × Nat)
  turn : Nat := 0
  start : Nat
  failed : Bool := false
  dropped : Bool := false
deriving DecidableEq, Repr

/-- A burst that holds a vertical port (R333): the command or fetch that it is for, and the last package cycle of its hold. -/
structure Burst where
  num : Nat
  fetch : Bool
  col : Nat
  off : Nat
  len : Nat
  till : Nat
deriving DecidableEq, Repr

/-- States of a compactor command (R379). -/
inductive CompSt where
  | queued | drain (marked old : List (Nat × Nat)) | move (marked : List (Nat × Nat)) | rewritten
deriving DecidableEq, Repr

/-- A compactor command (R378). -/
structure CompCmd where
  src : Nat
  dst : Nat
  len : Nat
  fin : Option Nat
  seq : Nat
  st : CompSt := .queued
  bad : Bool := false
  via : List Via := []
  /-- the store of the completion word on its way -/
  sent : Option Nat := none
deriving DecidableEq, Repr

/-- An invalidation or a window update under way (R374, R377): tables still to acknowledge, entries still dropping, the packages
still to answer, and the thread or the request over a link that it belongs to. -/
structure Inval where
  id : Nat
  thr : Option Nat
  origin : Option (Nat × Nat) := none
  sel : W64
  fin : Nat
  res : Bool
  rmode : Bool
  rlo : Nat
  rhi : Nat
  nowait : Bool
  left : List Nat
  pkgs : List Nat := []
  dropped : List (Nat × Nat) := []
  awaits : List Nat := []
  /-- entries FETCHING or MOVING when the update reached their table -/
  later : List (Nat × Nat) := []
deriving DecidableEq, Repr

/-- The patrol tester (R247 to R249). -/
structure Patrol where
  enabled : Bool := false
  seg : Option PatrolSeg := none
  chunk : Nat := 0
  releasing : Bool := false
  /-- the package cycle of the release -/
  releaseAt : Option Nat := none
deriving DecidableEq, Repr

/-- Layer-swap engine, fetches, compactor, invalidations and patrol tester. -/
structure Eng where
  swaps : List SwapCmd := []
  swapsDone : BitVec 32 := 0
  swapHolds : List (Nat × Nat) := []
  fetches : List Fetch := []
  bursts : List Burst := []
  comps : List CompCmd := []
  invals : List Inval := []
  patrol : Patrol := {}
  repairs : List (Nat × Nat × Nat) := []
  repairsLater : List (Nat × Nat × Nat) := []
  nextSwapTurn : Nat := 0
deriving DecidableEq, Repr

/-- What the package sends outside: answers to the host and to management, interrupts, PCIe and chain packets. -/
inductive Msg where
  | bar0Data (v : W64)
  | bar2Data (data : List Byte) (ep : Bool)
  | unsupported
  | msix (vector : Nat)
  /-- to package `dst`, from package `src` -/
  | chain (dst src seq : Nat) (op : ChainOp)
  | chainTime (v : Nat)
  | mgmt (code : Nat) (data : List Byte)
deriving DecidableEq, Repr

/-- A record of an error ring that is to be written at the end of its cycle: the location by which it is ordered (R253), and its
words. -/
structure LogRec where
  at_ : Nat
  w : TrapRec
deriving DecidableEq, Repr

/-- Host port, links, log rings and replay. -/
structure HostPort where
  out : List Msg := []
  timeoutMs : Nat := 10
  widthWest : Nat := 16
  widthEast : Nat := 16
  /-- time of the last record of a corrected error, by word, plus 1 (R253) -/
  lastLogged : Sparse Nat := []
  logBuf : List LogRec := []
  /-- words of records for GDDR-7 that wait while the compactor moves their region (R379): address and value -/
  ringLater : List (Nat × Nat) := []
  dropsDue : Nat := 0
  /-- requests of the host and of the links that wait for their words, in order (R234, R249, R380) -/
  held : List Event := []
  /-- the BAR2 request whose words are being read or written (R454) -/
  busy : Option Nat := none
  /-- the packets that captured flits hold, by offset in the buffer (R471), and the next record of a replay (R472) -/
  flits : List (Nat × Event) := []
  replayAt : Nat := 0
  /-- links that are down until a reset (R461) -/
  westLost : Bool := false
  eastLost : Bool := false
  /-- what a slew has still to add to the time base (R462), in eighteenths of a nanosecond -/
  slew : Int := 0
deriving DecidableEq, Repr

/-- Management and power (R463 to R470). -/
structure Mgmt where
  meas : Vector (BitVec 512) 8 := Vector.replicate 8 0
  mgmtCap : Nat := 300
  /-- the image that takes effect at the next cold reset (R466) -/
  firmware : Option (List Byte) := none
  /-- the last reset was a warm one (R465) -/
  warm : Bool := false
  pendingMhz : Option Nat := none
  off : Bool := false
  cleanWindows : Nat := 0
deriving DecidableEq, Repr

/-- The instruction that is issuing: column, core, slot and its word (log 2). -/
structure Issuing where
  col : Nat := 0
  core : Nat := 0
  slot : Nat := 0
  word : Word := 0
deriving DecidableEq, Repr

/-- The model's schedule (log 2): the package cycle, the position within it, the next number of a message, the counter of free values
(log 5), the events due, and what comes from outside. Time is counted in eighteenths of a nanosecond (R407). -/
structure Sched where
  cycle : Nat := 0
  pos : Nat := 0
  seq : Nat := 0
  free : Nat := 0
  time : Nat := 0
  /-- the device is gated (R432, R469), and the package cycle from which the freeze pin will gate it -/
  stopped : Bool := false
  pinDue : Option Nat := none
  agenda : List (Nat × Event) := []
  inputs : List (Nat × Event) := []
deriving DecidableEq, Repr

/-- What stood at the start of the present cycle, for what a cycle's steps see as it was then (R8, R143, R365). It is the model's own
(log 2). -/
structure CycleStart where
  threads : Sparse Thread := []
  cores : Sparse Core := []
  cols : Sparse Col := []
  isls : Sparse Isl := []
  tables : Sparse (Vector Entry 32) := []
  pkg : Pkg := {}
  disp : Disp := {}
deriving DecidableEq, Repr

/-- The state of the package. Threads are numbered 64 × column + 16 × core + slot, cores 4 × column + core. -/
structure State where
  sched : Sched := {}
  cur : Issuing := {}
  threads : Sparse Thread := []
  cores : Sparse Core := []
  cols : Sparse Col := []
  isls : Sparse Isl := []
  tables : Sparse (Vector Entry 32) := []
  mem : Memory := {}
  flights : List Access := []
  pkg : Pkg := {}
  disp : Disp := {}
  eng : Eng := {}
  host : HostPort := {}
  mgmt : Mgmt := {}
  start : CycleStart := {}
deriving DecidableEq, Repr

/-- The state right after a cold reset (R29, R465): every slot EMPTY, every range entry INVALID, no graph, every channel unbound,
an empty dealer heap, memories zero-filled, and every register at the reset value of its map (log 4, log 18). -/
def State.reset : State := {}

/-- How a step may stop. -/
inductive Fault where
  /-- Raised by `step` when an outside input names a unit that the package does not have: no such input exists. Safe. -/
  | noSuchUnit
deriving DecidableEq, Repr

/-- Why an instruction has no meaning here. -/
inductive Refusal where
  /-- Raised by `exec` for an instruction whose arm has no meaning yet. Safe. -/
  | notModelled (mnemonic : String)
deriving DecidableEq, Repr

end Sys2Proof.Machine
end

