-- ==== Sys2Proof/Machine/Flags.lean ====
section
/-! DEFINITION. Floating point (R48 to R54), conversions (R55 to R57, R65), LOG2 and EXP2 (R72 to R74), and the sticky flags:
every operation is computed exactly on integers and rounded once. -/
namespace Sys2Proof.Machine

/-- The five flags NV, DZ, OF, UF, NX from bit 4 down, as FPMODE holds them in [6:2] (R54, R171). -/
abbrev FFlags := BitVec 5
def fNV : FFlags := 16
def fDZ : FFlags := 8
def fOF : FFlags := 4
def fUF : FFlags := 2
def fNX : FFlags := 1

/-- A binary floating-point format: exponent bits and fraction bits (R48). -/
structure FpFmt where
  eb : Nat
  fb : Nat
deriving DecidableEq, Repr

def fp32 : FpFmt := ⟨8, 23⟩
def fp16 : FpFmt := ⟨5, 10⟩
def bf16 : FpFmt := ⟨8, 7⟩

def FpFmt.bias (f : FpFmt) : Nat := 2 ^ (f.eb - 1) - 1
def FpFmt.width (f : FpFmt) : Nat := 1 + f.eb + f.fb
/-- Exponent of the least significant bit of a subnormal. -/
def FpFmt.qmin (f : FpFmt) : Int := 1 - (f.bias : Int) - (f.fb : Int)
def FpFmt.inf (f : FpFmt) (neg : Bool) : Nat := bnat neg * 2 ^ (f.eb + f.fb) + (2 ^ f.eb - 1) * 2 ^ f.fb
def FpFmt.nan (f : FpFmt) : Nat := (2 ^ f.eb - 1) * 2 ^ f.fb + 2 ^ (f.fb - 1)
def FpFmt.maxFinite (f : FpFmt) (neg : Bool) : Nat := f.inf neg - 1
def FpFmt.zero (f : FpFmt) (neg : Bool) : Nat := bnat neg * 2 ^ (f.eb + f.fb)

/-- The value of a bit pattern; a finite one is (−1)^neg × m × 2^e. -/
inductive FVal where
  | nan (sig : Bool)
  | inf (neg : Bool)
  | fin (neg : Bool) (m : Nat) (e : Int)
deriving DecidableEq, Repr

/-- The value that bits [width−1:0] of `x` stand for (R48). -/
def fdec (f : FpFmt) (x : Nat) : FVal :=
  let neg := bit x (f.eb + f.fb)
  let ex := bits x (f.eb + f.fb - 1) f.fb
  let fr := x % 2 ^ f.fb
  if ex = 2 ^ f.eb - 1 then
    if fr = 0 then .inf neg else .nan (!bit fr (f.fb - 1))
  else if ex = 0 then .fin neg fr f.qmin
  else .fin neg (fr + 2 ^ f.fb) (f.qmin + (ex : Int) - 1)

/-- Number of bits of a natural number. -/
def bitLen (m : Nat) : Nat := if m = 0 then 0 else Nat.log2 m + 1

/-- Whether the magnitude `M` with remainder `rem` of `2^k`, and a rest below it when `sticky`, is raised by one (R51).
Modes: 0 RNE, 1 RTZ, 2 RUP, 3 RDN. -/
def roundsUp (mode : Nat) (neg : Bool) (M rem k : Nat) (sticky : Bool) : Bool :=
  let inexact := decide (rem ≠ 0) || sticky
  match mode with
  | 0 => decide (k ≠ 0) && (decide (2 ^ (k - 1) < rem) || (decide (rem = 2 ^ (k - 1)) && (sticky || decide (M % 2 = 1))))
  | 1 => false
  | 2 => inexact && !neg
  | _ => inexact && neg

/-- A magnitude rounded at the bit of weight `2^(e+k)`. -/
def roundAt (mode : Nat) (neg : Bool) (m k : Nat) (sticky : Bool) : Nat :=
  let M := m >>> k
  if roundsUp mode neg M (m % 2 ^ k) k sticky then M + 1 else M

/-- The exact value (−1)^neg × m × 2^e, raised by less than one unit of m when `sticky`, rounded once (R51, R53), with its flags
(R54); tininess is detected after rounding (R50). With `sticky`, m has at least two bits more than the format. -/
def fround (f : FpFmt) (mode : Nat) (neg : Bool) (m : Nat) (e : Int) (sticky : Bool) : Nat × FFlags :=
  if m = 0 ∧ sticky = false then (f.zero neg, 0)
  else
    let len := (bitLen m : Int)
    let p := (f.fb + 1 : Int)
    let q := max (e + len - p) f.qmin
    let k := (q - e).toNat
    let m' := if q < e then m <<< (e - q).toNat else m
    let r := roundAt mode neg m' k sticky
    let inexact := decide (m' % 2 ^ k ≠ 0) || sticky
    let tinyBefore := decide (e + len ≤ f.qmin + (f.fb : Int))
    let k2 := (e + len - p - e).toNat
    let tiny := tinyBefore &&
      !(decide (e + len = f.qmin + (f.fb : Int)) && decide (roundAt mode neg m k2 sticky = 2 ^ (f.fb + 1)))
    let packed := if r < 2 ^ f.fb then r else ((q - f.qmin).toNat) * 2 ^ f.fb + r
    if (2 ^ f.eb - 1) * 2 ^ f.fb ≤ packed then
      let toInf := match mode with
        | 0 => true
        | 1 => false
        | 2 => !neg
        | _ => neg
      (if toInf then f.inf neg else f.maxFinite neg, fOF ||| fNX)
    else
      (f.zero neg + packed, (if inexact then fNX else 0) ||| (if tiny && inexact then fUF else 0))

/-- The flag of a NaN result (R49). -/
def nanFlags (sig : Bool) : FFlags := if sig then fNV else 0

def FVal.isSig : FVal → Bool
  | .nan true => true
  | _ => false

def FVal.isNan : FVal → Bool
  | .nan _ => true
  | _ => false

/-- The canonical NaN, with NV when an operand is signalling or the operation is invalid. -/
def invalid (f : FpFmt) (nv : Bool) : Nat × FFlags := (f.nan, nanFlags nv)

/-- Signed magnitude as an integer at exponent `e0 ≤ e`. -/
def alignTo (neg : Bool) (m : Nat) (e e0 : Int) : Int :=
  let x := ((m <<< (e - e0).toNat : Nat) : Int)
  if neg then -x else x

/-- Exact sum of two finite values, rounded; an exact zero takes its sign by R52. -/
def addFinite (f : FpFmt) (mode : Nat) (n1 : Bool) (m1 : Nat) (e1 : Int) (n2 : Bool) (m2 : Nat) (e2 : Int) : Nat × FFlags :=
  if m1 = 0 ∧ m2 = 0 then (f.zero (if n1 = n2 then n1 else mode = 3), 0)
  else
    let e0 := min e1 e2
    let x := alignTo n1 m1 e1 e0 + alignTo n2 m2 e2 e0
    if x = 0 then (f.zero (mode = 3), 0) else fround f mode (x < 0) x.natAbs e0 false

/-- Sum of two values (R124). -/
def vadd2 (f : FpFmt) (mode : Nat) (x y : FVal) : Nat × FFlags :=
  match x, y with
  | .nan s, v => invalid f (s || v.isSig)
  | v, .nan s => invalid f (s || v.isSig)
  | .inf a, .inf b => if a = b then (f.inf a, 0) else invalid f true
  | .inf a, .fin _ _ _ => (f.inf a, 0)
  | .fin _ _ _, .inf b => (f.inf b, 0)
  | .fin n1 m1 e1, .fin n2 m2 e2 => addFinite f mode n1 m1 e1 n2 m2 e2

def FVal.negate : FVal → FVal
  | .nan s => .nan s
  | .inf a => .inf (!a)
  | .fin n m e => .fin (!n) m e

/-- Exact product of two values; `none` for ∞ × 0. -/
def vmulExact (x y : FVal) : Option FVal :=
  match x, y with
  | .nan s, v => some (.nan (s || v.isSig))
  | v, .nan s => some (.nan (s || v.isSig))
  | .inf a, .inf b => some (.inf (a != b))
  | .inf a, .fin n m _ => if m = 0 then none else some (.inf (a != n))
  | .fin n m _, .inf b => if m = 0 then none else some (.inf (n != b))
  | .fin n1 m1 e1, .fin n2 m2 e2 => some (.fin (n1 != n2) (m1 * m2) (e1 + e2))

/-- A value rounded to a format, with its flags. -/
def vround (f : FpFmt) (mode : Nat) : FVal → Nat × FFlags
  | .nan s => invalid f s
  | .inf a => (f.inf a, 0)
  | .fin n m e => fround f mode n m e false

def fadd (f : FpFmt) (mode x y : Nat) : Nat × FFlags := vadd2 f mode (fdec f x) (fdec f y)

def fsub (f : FpFmt) (mode x y : Nat) : Nat × FFlags := vadd2 f mode (fdec f x) (fdec f y).negate

def fmul (f : FpFmt) (mode x y : Nat) : Nat × FFlags :=
  match vmulExact (fdec f x) (fdec f y) with
  | none => invalid f true
  | some v => vround f mode v

/-- Quotient of R124. -/
def fdiv (f : FpFmt) (mode x y : Nat) : Nat × FFlags :=
  match fdec f x, fdec f y with
  | .nan s, v => invalid f (s || v.isSig)
  | v, .nan s => invalid f (s || v.isSig)
  | .inf _, .inf _ => invalid f true
  | .inf a, .fin n _ _ => (f.inf (a != n), 0)
  | .fin n _ _, .inf b => (f.zero (n != b), 0)
  | .fin n1 m1 e1, .fin n2 m2 e2 =>
    if m2 = 0 then (if m1 = 0 then invalid f true else (f.inf (n1 != n2), fDZ))
    else
      let s := f.fb + 4 + bitLen m2
      let num := m1 <<< s
      fround f mode (n1 != n2) (num / m2) (e1 - e2 - (s : Int)) (decide (num % m2 ≠ 0))

/-- The integer square root below `2^b`, bit by bit. -/
def isqrt (n : Nat) : Nat → Nat → Nat
  | 0, r => r
  | b + 1, r => let r' := r + 2 ^ b; isqrt n b (if r' * r' ≤ n then r' else r)

/-- Square root of R124. -/
def fsqrt (f : FpFmt) (mode x : Nat) : Nat × FFlags :=
  match fdec f x with
  | .nan s => invalid f s
  | .inf neg => if neg then invalid f true else (f.inf false, 0)
  | .fin neg m e =>
    if m = 0 then (f.zero neg, 0)
    else if neg then invalid f true
    else
      let s := 2 * (f.fb + 4) + (if e % 2 = 0 then 0 else 1)
      let n := m <<< s
      let r := isqrt n (bitLen n / 2 + 1) 0
      fround f mode false r ((e - (s : Int)) / 2) (decide (r * r ≠ n))

/-- Whether the first pattern lies below the second, with −0 below +0 (R49); neither is a NaN. -/
def fltTotal (f : FpFmt) (x y : Nat) : Bool :=
  let w := f.eb + f.fb
  let key := fun (z : Nat) => if bit z w then -((z % 2 ^ w : Nat) : Int) - 1 else ((z % 2 ^ w : Nat) : Int)
  decide (key x < key y)

/-- Minimum (`wantMax` false) and maximum of R49. -/
def fminmax (f : FpFmt) (wantMax : Bool) (x y : Nat) : Nat × FFlags :=
  let fl := nanFlags ((fdec f x).isSig || (fdec f y).isSig)
  match (fdec f x).isNan, (fdec f y).isNan with
  | true, true => (f.nan, fl)
  | true, false => (y, fl)
  | false, true => (x, fl)
  | false, false => (if fltTotal f x y = wantMax then y else x, fl)

/-- Fused forms of R125: `± a × b ± c`, rounded once. -/
def fmaGen (f : FpFmt) (mode : Nat) (negProd negAdd : Bool) (a b c : Nat) : Nat × FFlags :=
  let z := fdec f c
  let z := if negAdd then z.negate else z
  match vmulExact (fdec f a) (fdec f b) with
  | none => invalid f true
  | some p => vadd2 f mode (if negProd then p.negate else p) z

/-- Comparison of R126: `eq`, `ne`, `lt`, `le`; only a signalling NaN sets NV. -/
def fcompare (f : FpFmt) (c : FCond) (x y : Nat) : Bool × FFlags :=
  let vx := fdec f x
  let vy := fdec f y
  let fl := nanFlags (vx.isSig || vy.isSig)
  let w := f.eb + f.fb
  let key := fun (z : Nat) => if bit z w then -((z % 2 ^ w : Nat) : Int) else ((z % 2 ^ w : Nat) : Int)
  if vx.isNan || vy.isNan then (c == .ne, fl)
  else match c with
    | .eq => (decide (key x = key y), fl)
    | .ne => (decide (key x ≠ key y), fl)
    | .lt => (decide (key x < key y), fl)
    | .le => (decide (key x ≤ key y), fl)

/-- The class bits of R126. -/
def fclassBits (x : Nat) : Nat :=
  match fdec fp32 x with
  | .nan true => 256
  | .nan false => 512
  | .inf true => 1
  | .inf false => 128
  | .fin neg m _ =>
    if m = 0 then (if neg then 8 else 16)
    else if m < 2 ^ 23 then (if neg then 4 else 32)
    else (if neg then 2 else 64)

/-! ### Conversions (R65) -/

/-- A signed integer held to `n` bits, with NV when it saturates. -/
def saturate (n : Nat) (x : Int) : Int × FFlags :=
  let y := clampInt (-(2 : Int) ^ (n - 1)) ((2 : Int) ^ (n - 1) - 1) x
  (y, if y = x then 0 else fNV)

/-- A finite value rounded to an integer by a mode, and whether that was inexact. -/
def roundToInt (mode : Nat) (neg : Bool) (m : Nat) (e : Int) : Int × Bool :=
  if 0 ≤ e then (alignTo neg m e 0, false)
  else
    let k := (-e).toNat
    let r := roundAt mode neg m k false
    (if neg then -(r : Int) else r, decide (m % 2 ^ k ≠ 0))

/-- Floating point to an integer of `n` bits. -/
def fpToInt (f : FpFmt) (n mode x : Nat) : Int × FFlags :=
  match fdec f x with
  | .nan _ => (0, fNV)
  | .inf neg => (if neg then -(2 : Int) ^ (n - 1) else (2 : Int) ^ (n - 1) - 1, fNV)
  | .fin neg m e =>
    let r := roundToInt mode neg m e
    let t := saturate n r.1
    (t.1, t.2 ||| (if r.2 then fNX else 0))

/-- An integer rounded into a floating-point format. -/
def intToFp (f : FpFmt) (mode : Nat) (x : Int) : Nat × FFlags := fround f mode (x < 0) x.natAbs 0 false

/-- Floating point to another floating-point format. -/
def fpToFp (dst src : FpFmt) (mode x : Nat) : Nat × FFlags := vround dst mode (fdec src x)

/-- A term of a PS weight with sign bit and exponent code, in units of 2^−6 (R56, R57). -/
def psTerm (s : Bool) (e : Nat) : Int := if e = 7 then 0 else if s then -((2 ^ (6 - e) : Nat) : Int) else ((2 ^ (6 - e) : Nat) : Int)

/-- The value of a PS1 code in units of 2^−6 (R57). -/
def ps1Val (x : Nat) : Int := psTerm (bit x 3) (x % 8)

/-- The value of a PS2 byte in units of 2^−6 (R56). -/
def ps2Val (x : Nat) : Int := psTerm (bit x 7) (bits x 6 4) + psTerm (bit x 3) (x % 8)

/-- Width of an integer format, and the binary format of a floating-point one. -/
def intWidth : Fmt → Nat
  | .int8 => 8 | .int16 => 16 | .int32 => 32 | .fp32 => 0 | .fp16 => 0 | .bf16 => 0 | .ps2 => 0 | .ps1 => 0 | .sd => 0

def fpOf : Fmt → FpFmt
  | .fp16 => fp16 | .bf16 => bf16 | .fp32 => fp32
  | .int8 => fp32 | .int16 => fp32 | .int32 => fp32 | .ps2 => fp32 | .ps1 => fp32 | .sd => fp32

/-- A source value of a conversion. -/
inductive CvtVal where
  | int (x : Int)
  | fp (f : FpFmt) (x : Nat)
  | ps (x : Int)
deriving DecidableEq, Repr

/-- The source bits of a format, read as R127 says. -/
def cvtSource (src : Fmt) (x : Nat) : CvtVal :=
  match src with
  | .int8 => .int (toSigned 8 x)
  | .int16 => .int (toSigned 16 x)
  | .int32 => .int (toSigned 32 x)
  | .fp32 => .fp fp32 (x % 2 ^ 32)
  | .fp16 => .fp fp16 (x % 2 ^ 16)
  | .bf16 => .fp bf16 (x % 2 ^ 16)
  | .ps2 => .ps (ps2Val x)
  | .ps1 => .ps (ps1Val x)
  | .sd => .int 0

/-- Conversion into an integer format: the signed result. -/
def cvtToInt (n mode : Nat) : CvtVal → Int × FFlags
  | .int x => saturate n x
  | .fp f x => fpToInt f n mode x
  | .ps x => saturate n x

/-- Conversion into a floating-point format: the bits. -/
def cvtToFp (f : FpFmt) (mode : Nat) : CvtVal → Nat × FFlags
  | .int x => intToFp f mode x
  | .fp g x => fpToFp f g mode x
  | .ps x => fround f mode (x < 0) x.natAbs (-6) false

/-- The conversion of R65 as a bit pattern of the destination's width. -/
def cvtBits (dst src : Fmt) (mode x : Nat) : Nat × FFlags :=
  if intWidth dst = 0 then cvtToFp (fpOf dst) mode (cvtSource src x)
  else
    let r := cvtToInt (intWidth dst) mode (cvtSource src x)
    (wrapTo (intWidth dst) r.1, r.2)

/-! ### LOG2 and EXP2 -/

/-- The table L of R72. -/
def tableL : List Nat :=
  [0, 2909, 5732, 8473, 11136, 13727, 16248, 18704, 21098, 23433, 25711, 27936, 30109, 32234, 34312, 36346, 38336, 40286,
   42196, 44068, 45904, 47705, 49472, 51207, 52911, 54584, 56229, 57845, 59434, 60997, 62534, 64047, 65536]

/-- The table X of R72. -/
def tableX : List Nat :=
  [65536, 66971, 68438, 69936, 71468, 73032, 74632, 76266, 77936, 79642, 81386, 83168, 84990, 86851, 88752, 90696, 92682,
   94711, 96785, 98905, 101070, 103283, 105545, 107856, 110218, 112631, 115098, 117618, 120194, 122825, 125515, 128263, 131072]

/-- Linear interpolation in a table, in units of 2^−34. -/
def interp (tbl : List Nat) (i t : Nat) : Nat := tbl.getD i 0 * 2 ^ 18 + (tbl.getD (i + 1) 0 - tbl.getD i 0) * t

/-- LOG2 of R73 on FP32. -/
def flog2 (x : Nat) : Nat × FFlags :=
  match fdec fp32 x with
  | .nan s => invalid fp32 s
  | .inf neg => if neg then invalid fp32 true else (fp32.inf false, 0)
  | .fin neg m e =>
    if m = 0 then (fp32.inf true, fDZ)
    else if neg then invalid fp32 true
    else
      let len := bitLen m
      let f := (m <<< (24 - len)) % 2 ^ 23
      let ex := e + (len : Int) - 1
      let v := ex * (2 : Int) ^ 34 + (interp tableL (bits f 22 18) (f % 2 ^ 18) : Int)
      fround fp32 0 (v < 0) v.natAbs (-34) false

/-- EXP2 of R74 on FP32. -/
def fexp2 (x : Nat) : Nat × FFlags :=
  match fdec fp32 x with
  | .nan s => invalid fp32 s
  | .inf neg => if neg then (0, fUF ||| fNX) else (fp32.inf false, fOF ||| fNX)
  | .fin neg m e =>
    let big := alignTo neg m (e + 23 + 149) 0
    let n23 := if 0 ≤ e + 23 then alignTo neg m (e + 23) 0 else (if neg then -(m : Int) else m) / (2 : Int) ^ (-(e + 23)).toNat
    if (128 : Int) * 2 ^ 23 ≤ n23 then (fp32.inf false, fOF ||| fNX)
    else if big < -(160 : Int) * 2 ^ (23 + 149) then (0, fUF ||| fNX)
    else
      let n := n23 / (2 : Int) ^ 23
      let g := (n23 % (2 : Int) ^ 23).toNat
      fround fp32 0 false (interp tableX (bits g 22 18) (g % 2 ^ 18)) (n - 34) false

end Sys2Proof.Machine
end

