-- ==== Sys2Proof/Machine/Ops.lean ====
section
/-! DEFINITION. The named operations over the state: units by number, registers, the schedule, parking and waking, taking a trap
(R183, R425) and returning from one (R186). -/
namespace Sys2Proof.Machine

abbrev Out := Host.Outcome State Fault Refusal

/-! ### Units by number -/

def thrNo (col core slot : Nat) : Nat := 64 * col + 16 * core + slot
def colOf (t : Nat) : Nat := t / 64
/-- The core number 4 × column + core of a thread. -/
def coreOf (t : Nat) : Nat := t / 16
def slotOf (t : Nat) : Nat := t % 16
/-- The core within its column. -/
def quarterOf (t : Nat) : Nat := t / 16 % 4

def State.thr (s : State) (t : Nat) : Thread := sget {} s.threads t
def State.core (s : State) (q : Nat) : Core := sget {} s.cores q
def State.col (s : State) (c : Nat) : Col := sget {} s.cols c
def State.isl (s : State) (k : Nat) : Isl := sget {} s.isls k

def State.putThr (s : State) (t : Nat) (x : Thread) : State := { s with threads := sset {} s.threads t x }
def State.putCore (s : State) (q : Nat) (x : Core) : State := { s with cores := sset {} s.cores q x }
def State.putCol (s : State) (c : Nat) (x : Col) : State := { s with cols := sset {} s.cols c x }
def State.putIsl (s : State) (k : Nat) (x : Isl) : State := { s with isls := sset {} s.isls k x }

def State.modThr (s : State) (t : Nat) (f : Thread → Thread) : State := s.putThr t (f (s.thr t))
def State.modCore (s : State) (q : Nat) (f : Core → Core) : State := s.putCore q (f (s.core q))
def State.modCol (s : State) (c : Nat) (f : Col → Col) : State := s.putCol c (f (s.col c))
def State.modIsl (s : State) (k : Nat) (f : Isl → Isl) : State := s.putIsl k (f (s.isl k))

/-- The issuing thread. -/
def State.me (s : State) : Nat := thrNo s.cur.col s.cur.core s.cur.slot
def State.myCore (s : State) : Nat := 4 * s.cur.col + s.cur.core

/-! ### The schedule (log 2) -/

/-- An event due in a package cycle. -/
def State.post (s : State) (due : Nat) (e : Event) : State :=
  { s with sched := { s.sched with agenda := s.sched.agenda ++ [(due, e)] } }

/-- An event that is due at once, before every other one. -/
def State.atOnce (s : State) (e : Event) : State :=
  { s with sched := { s.sched with agenda := (s.sched.cycle, e) :: s.sched.agenda } }

/-- An event due `n` cycles from now. -/
def State.after (s : State) (n : Nat) (e : Event) : State := s.post (s.sched.cycle + n) e

/-- The next message number, and the state that has given it out. -/
def State.fresh (s : State) : Nat × State := (s.sched.seq, { s with sched := { s.sched with seq := s.sched.seq + 1 } })

/-- An event after a delay that the specification does not promise (log 3). -/
def State.later (s : State) (base : Nat) (e : Event) : State :=
  (s.fresh.2).after (base + Config.delay s.fresh.1) e

/-- The place of a station in the mesh (R20): columns 0 to 19, islands 20 to 29, then (11, 1) and (0, 1), and the four stations of the
GDDR-7 channels, two channels each: (0, 0), (0, 2), (11, 0) and (11, 2). -/
def stationX (n : Nat) : Nat :=
  if n < 20 then n / 2 + 1 else if n < 30 then n - 19 else if n = 30 ∨ n = 34 ∨ n = 35 then 11 else 0
def stationY (n : Nat) : Nat := if n < 20 then 2 * (n % 2) else if n < 32 then 1 else 2 * (n % 2)

/-- The link by which a packet from station `a` comes to station `b`, in the order of R201: x−, x+, y−, y+, and last a unit of the
station itself. A packet goes along x first (R21). -/
def inputLink (a b : Nat) : Nat :=
  if stationY a < stationY b then 2
  else if stationY b < stationY a then 3
  else if stationX a < stationX b then 0
  else if stationX b < stationX a then 1
  else 4

/-- Hops between two stations (R21). -/
def hops (a b : Nat) : Nat :=
  (stationX a - stationX b) + (stationX b - stationX a) + ((stationY a - stationY b) + (stationY b - stationY a))

/-- The station of a range table. -/
def tableStation (tbl : Nat) : Nat := if tbl < 80 then tbl / 4 else tbl - 60

/-- The station from which an invalidation or update goes out: its thread's, or that of the link that has brought it. -/
def State.invalHome (s : State) (id : Nat) : Option Nat :=
  match s.eng.invals.find? (fun x => x.id == id) with
  | some x => (match x.origin with
    | some (p, _) => some (if p < s.pkg.pkgNo.toNat then 31 else 30)
    | none => x.thr.map colOf)
  | none => none

/-- The stations between which a class 0 message on its way goes. -/
def State.zeroPath (s : State) : Event → Option (Nat × Nat)
  | .dealerOperation t _ => some (colOf t, 30)
  | .sequenceTableOperation t _ => some (colOf t, 30)
  | .swapHoldArrive _ c => some (30, c)
  | .swapLiftArrive _ c => some (30, c)
  | .swapHoldAck _ c => some (c, 30)
  | .rangeDropArrive id tbl => (s.invalHome id).map (fun a => (a, tableStation tbl))
  | .rgresUpdateArrive id tbl => (s.invalHome id).map (fun a => (a, tableStation tbl))
  | .rangeDropAck id tbl => (s.invalHome id).map (fun a => (tableStation tbl, a))
  | _ => none

/-- An event that a class 0 message from one station to another brings about: at least 3 cycles per hop, at most 96 cycles, and in the order
in which the messages of one path are sent (R21, R228, R460). -/
def State.classZero (s : State) (a b : Nat) (e : Event) : State :=
  let d := s.sched.cycle + max 1 (3 * hops a b) + Config.delay s.fresh.1 % (97 - max 1 (3 * hops a b))
  (s.fresh.2).post (s.sched.agenda.foldl (fun m x => if s.zeroPath x.2 = some (a, b) then max m x.1 else m) d) e

/-- The cycle of a column (R427). -/
def State.cycOf (s : State) (t : Nat) : Nat := (s.col (colOf t)).cyc

/-- The time base (R407): whole nanoseconds. -/
def State.time (s : State) : W64 := BitVec.ofNat 64 (s.sched.time / 18)

/-- A message to the outside. -/
def State.tell (s : State) (m : Msg) : State := { s with host := { s.host with out := s.host.out ++ [m] } }

/-- The units as they stood at the start of the cycle (R8, R143, R365). -/
def State.before (s : State) : State :=
  { s with threads := s.start.threads, cores := s.start.cores, cols := s.start.cols, isls := s.start.isls, tables := s.start.tables
           pkg := s.start.pkg, disp := s.start.disp }

/-- The start of a cycle: what stands now is what this cycle's steps see as its start. -/
def State.noteStart (s : State) : State :=
  { s with start := { threads := s.threads, cores := s.cores, cols := s.cols, isls := s.isls, tables := s.tables, pkg := s.pkg
                      disp := s.disp } }

/-- Bit `n` of INTSTAT is set, and its message goes out when the bit of INTSTAT AND INTEN changes to 1 (R457). -/
def State.interrupt (s : State) (n : Nat) : State :=
  let was := s.pkg.intstat.getLsbD n
  let s := { s with pkg := { s.pkg with intstat := s.pkg.intstat ||| (1#64 <<< n), intNow := s.pkg.intNow ||| (1#64 <<< n) } }
  if !was && s.pkg.inten.getLsbD n then s.tell (.msix n) else s

/-! ### Scalar, vector and predicate registers of a thread (R103) -/

def Thread.sreg (x : Thread) (r : Reg) : W64 := if r = 0 then 0 else x.regs[r.toNat]'r.isLt
def Thread.putS (x : Thread) (r : Reg) (v : W64) : Thread :=
  if r = 0 then x else { x with regs := x.regs.set r.toNat v r.isLt }
def Thread.vreg (x : Thread) (r : VReg) : Vec := x.vregs[r.toNat]'r.isLt
def Thread.putV (x : Thread) (r : VReg) (v : Vec) : Thread := { x with vregs := x.vregs.set r.toNat v r.isLt }
def Thread.pred (x : Thread) (p : PReg) : Bool := p == 0 || x.preds.getLsbD p.toNat
def Thread.putP (x : Thread) (p : PReg) (v : Bool) : Thread :=
  if p = 0 then x
  else { x with preds := if v then x.preds ||| (1#8 <<< p.toNat) else x.preds &&& ~~~(1#8 <<< p.toNat) }
def Thread.chan (x : Thread) (c : PReg) : Chan := x.chans[c.toNat]'c.isLt
def Thread.putChan (x : Thread) (c : PReg) (v : Chan) : Thread := { x with chans := x.chans.set c.toNat v c.isLt }

/-- Register `r + n`, the n-th of a run. -/
def regPlus (r : Reg) (n : Nat) : Reg := r + BitVec.ofNat 5 n

/-- A run of scalar registers from `r` on. -/
def Thread.putRun (x : Thread) (r : Reg) : List W64 → Thread
  | [] => x
  | v :: vs => (x.putS r v).putRun (r + 1) vs

def State.rd (s : State) (r : Reg) : W64 := (s.thr s.me).sreg r
def State.wr (s : State) (r : Reg) (v : W64) : State := s.modThr s.me (fun x => x.putS r v)
def State.rdV (s : State) (r : VReg) : Vec := (s.thr s.me).vreg r
def State.wrV (s : State) (r : VReg) (v : Vec) : State := s.modThr s.me (fun x => x.putV r v)
def State.rdP (s : State) (p : PReg) : Bool := (s.thr s.me).pred p
def State.wrP (s : State) (p : PReg) (v : Bool) : State := s.modThr s.me (fun x => x.putP p v)
def State.pc (s : State) : W64 := (s.thr s.me).pc

/-! ### Performance counters (R404) -/

/-- The counters with event `e` of a core counted once; a counter written in this cycle keeps the written value (R8). -/
def State.count (s : State) (t e : Nat) : State :=
  s.modCol (colOf t) (fun c =>
    if c.perfHeld.contains (4 * e + quarterOf t) then c
    else { c with perf := c.perf.setIfInBounds (4 * e + quarterOf t) (c.perf.getD (4 * e + quarterOf t) 0 + 1) })

/-- Bits of CEVENT set (R181). -/
def Col.raiseEvent (c : Col) (m : BitVec 5) : Col := { c with cevent := c.cevent ||| m, cevNow := c.cevNow ||| m }

/-! ### Completion of an instruction -/

/-- The instruction completes: it is counted, the thread's RESUME bit is cleared (R184) and the PC is set. -/
def State.finishAt (s : State) (pc : W64) : State :=
  (s.modThr s.me (fun x => { x with pc := pc, resume := false, reissue := false, retrans := false })).count s.me 0

/-- The instruction completes, and the next one in sequence follows (R75). -/
def State.finish (s : State) : State := s.finishAt (s.pc + 1)

/-! ### Privilege (R168) -/

/-- The handler slot of a core: the old one in the cycle of a write of HCTL (R168). -/
def State.handlerSlot (s : State) (q : Nat) : Nat :=
  let c := s.core q
  bits (if c.hctlAt = s.sched.cycle + 1 then c.hctlOld.toNat else c.hctl.toNat) 3 0

/-- The entry address of an EMPTY handler slot (R174). A value written in this cycle is used at once (DESIGN CHOICE, log 47). -/
def State.hvec (s : State) (q : Nat) : W64 := BitVec.ofNat 64 (bits (s.core q).hctl.toNat 27 16)

/-- Whether slot `n` of a core runs at SUPERVISOR privilege. -/
def State.superSlot (s : State) (q n : Nat) : Bool :=
  n = bits (s.core q).hctl.toNat 3 0 || bit (s.core q).hctl.toNat (32 + n)

def State.isSuper (s : State) (t : Nat) : Bool := s.superSlot (coreOf t) (slotOf t)

/-! ### Parking and waking (R38, R341) -/

/-- The thread parks. The checks before a translation are passed by only right after a park (RANGE) (R359). -/
def State.park (s : State) (t : Nat) (r : Park) (w : Wait) : State :=
  s.modThr t (fun x => { x with st := .parked r, wait := w, parkedAt := s.cycOf t, retrans := x.retrans && r == .range })

/-- The issuing thread parks, and its instruction has had no effect. -/
def State.parkMe (s : State) (r : Park) (w : Wait) : State := s.park s.me r w

/-- The state of a slot that becomes READY: HALTED while its bit of HMASK stands (R341, R428). -/
def State.readySt (s : State) (t : Nat) : SlotSt :=
  if (s.core (coreOf t)).hmask.getLsbD (slotOf t) then .halted else .ready

/-- A park ends: the thread is READY from the next cycle, or HALTED when a halt is pending (R341). -/
def State.wake (s : State) (t : Nat) : State :=
  s.modThr t (fun x => { x with st := s.readySt t, wait := .none, readyFrom := s.cycOf t + 1 })

/-- A parked instruction completes: registers are written and the PC advances (R108). -/
def State.completeParked (s : State) (t : Nat) (f : Thread → Thread) : State :=
  ((s.modThr t (fun x => { f x with pc := x.pc + 1, resume := false, reissue := false, retrans := false })).wake t).count t 0

/-- The slot is EMPTY; its registers take the initial values, its CTAG stays (R103, R355). -/
def State.emptySlot (s : State) (t : Nat) : State :=
  s.modThr t (fun x => { ctag := x.ctag, readyFrom := s.cycOf t + 1 })

/-- A thread starts in an EMPTY slot with the initial values of R103. -/
def State.startThread (s : State) (t : Nat) (pc : W64) (f : Thread → Thread) : State :=
  s.modThr t (fun x => f { ctag := x.ctag, st := s.readySt t, pc := pc, readyFrom := s.cycOf t + 1 })

/-! ### Taking a trap (R183, R425, R430) -/

/-- The word at the PC of a thread; outside the code store a free value (log 5). -/
def State.wordAt (s : State) (t : Nat) : Word :=
  let pc := (s.thr t).pc
  if pc.toNat < 4096 then sget 0 (s.core (coreOf t)).code pc.toNat else Config.wordOutsideStore pc

/-- The trap record of a thread (R183). -/
def State.record (s : State) (t : Nat) (i : TrapInfo) : TrapRec :=
  { w0 := BitVec.ofNat 64
      (i.cause * 2 ^ 56 + slotOf t * 2 ^ 52 + quarterOf t * 2 ^ 50 + colOf t * 2 ^ 45 + bnat i.gangp * 2 ^ 44 +
        (s.wordAt t).toNat)
    w1 := (s.thr t).pc
    w2 := i.w2
    w3 := BitVec.ofNat 64 (s.time.toNat % 2 ^ 32 * 2 ^ 32 + i.sub % 2 ^ 16 * 2 ^ 16 + i.detail % 2 ^ 16) }

/-- The slot that a record names. -/
def TrapRec.slot (r : TrapRec) : Nat := bits r.w0.toNat 55 52

/-- A record among those of its cycle, by ascending slot (R183). -/
def insertRecord (r : TrapRec) : List TrapRec → List TrapRec
  | [] => [r]
  | x :: xs => if r.slot < x.slot then r :: x :: xs else x :: insertRecord r xs

/-- The records of a core in the order in which their threads trapped: those in the queue, then those that wait for room. -/
def Core.records (c : Core) : List TrapRec := c.tq ++ c.waiting

/-- The queue holds the first 16 records, and the others wait (R183). -/
def Core.setRecords (c : Core) (l : List TrapRec) : Core := { c with tq := l.take 16, waiting := l.drop 16 }

/-- The records with one of a trap raised in package cycle `now`, among those of its cycle by ascending slot. -/
def Core.enqueue (c : Core) (now : Nat) (r : TrapRec) : Core :=
  let n := if c.tqAt = now + 1 then c.tqSame else 0
  let l := c.records
  { c.setRecords (l.take (l.length - n) ++ insertRecord r (l.drop (l.length - n))) with tqAt := now + 1, tqSame := n + 1 }

/-- The slots of a core that are parked in TQPOP issue it again (R186). -/
def State.wakePops (s : State) (q : Nat) : State :=
  (List.range 16).foldl (fun s n => if (s.thr (16 * q + n)).wait = .record then s.wake (16 * q + n) else s) s

/-- An EMPTY handler slot starts at HVEC; a SPAWN that has started the slot in this cycle loses it, and reports status 1 (R342). -/
def State.startHandler (s : State) (q h : Nat) : State :=
  match (s.thr h).st, (s.thr h).spawner with
  | .empty, _ => s.startThread h (s.hvec q) id
  | _, some (n, p, d) => if n = s.sched.cycle + 1 then (s.startThread h (s.hvec q) id).modThr p (fun x => x.putS d 1) else s
  | _, none => s

/-- A record has entered the queue: its thread is TRAPPED, an EMPTY handler slot starts at HVEC, and slots parked in TQPOP are woken
(R183, R186). -/
def State.entered (s : State) (q : Nat) (r : TrapRec) : State :=
  let t := 16 * q + r.slot
  let s := (s.modThr t (fun x => { x with st := .trapped, wait := .none, trapRec := r })).count t 9
  let h := 16 * q + s.handlerSlot q
  (s.startHandler q h).wakePops q

/-- A record waits for room, and so its thread is PARKED(TRAP) (R183). -/
def State.waitsRoom (s : State) (q : Nat) (r : TrapRec) : State :=
  (s.modThr (16 * q + r.slot) (fun x => { x with trapRec := r })).park (16 * q + r.slot) .trap .trapRoom

/-- A record takes its place. Where the queue was full, the last of the queue's records may give its place up to one of a lower slot of
the same cycle. -/
def State.enterRecord (s : State) (q : Nat) (r : TrapRec) : State :=
  let old := (s.core q).tq
  let s := s.modCore q (fun c => c.enqueue s.sched.cycle r)
  if old.length < 16 then s.entered q r
  else if (s.core q).tq = old then s.waitsRoom q r
  else (old.drop 15).foldl (fun s l => s.waitsRoom q l) (s.entered q r)

/-- Records that have left the queue let the first waiting ones in (R183). -/
def State.admitWaiting (s : State) (q : Nat) : State :=
  let n := (s.core q).tq.length
  let s := s.modCore q (fun c => c.setRecords c.records)
  ((s.core q).tq.drop n).foldl (fun s r => s.entered q r) s

/-- A trap that matches FRZTRIG freezes or stops the trapping column (R429, R430). -/
def State.freezeTrigger (s : State) (c cause : Nat) : State :=
  let f := s.pkg.frztrig.toNat
  if bit f 8 && (f % 256 = 0 || f % 256 = cause) && !(s.col c).frozen && (s.col c).gateDue.isNone then
    s.modCol c (fun x => { x with gateDue := some (x.cyc, bit f 9, true) })
  else s

/-- A thread takes a trap: its record enters the core's queue, or waits for room, or is the record of a double trap when the thread
stands in the handler slot. Nothing else of the thread changes (R11). -/
def State.trap (s : State) (t : Nat) (i : TrapInfo) : State :=
  let q := coreOf t
  let r := s.record t i
  let s := s.freezeTrigger (colOf t) i.cause
  let s := s.modThr t (fun x => { x with resume := false, reissue := false, retrans := false })
  if slotOf t = s.handlerSlot q then
    let s := s.modCore q (fun c => { c with
      dbl := true
      dtrec := { r with
        w0 := BitVec.ofNat 64 (0x14 * 2 ^ 56 + r.w0.toNat % 2 ^ 56)
        w3 := BitVec.ofNat 64 (r.w3.toNat / 2 ^ 16 * 2 ^ 16 + i.cause * 2 ^ 8 + r.w3.toNat % 2 ^ 8) } })
    (s.modCol (colOf t) (fun c => c.raiseEvent (1#5 <<< quarterOf t))).interrupt 3
  else s.enterRecord q r

/-- The issuing thread traps. -/
def State.trapMe (s : State) (i : TrapInfo) : State := s.trap s.me i

/-- A trap of a cause without detail. -/
def cause (c : Nat) : TrapInfo := { cause := c }

/-- A SUPERVISOR instruction: its effect, or PRIVILEGE at USER (R84, R168). -/
def State.supervisor (s : State) (k : State → State) : State :=
  if s.isSuper s.me then k s else s.trapMe (cause 0x18)

/-! ### Vector lanes (R104) -/

def lane (w : Nat) (v : Vec) (i : Nat) : Nat := v.toNat / 2 ^ (w * i) % 2 ^ w

def joinLanes (w : Nat) : List Nat → Nat
  | [] => 0
  | x :: xs => x % 2 ^ w + 2 ^ w * joinLanes w xs

def ofLanes (w : Nat) (l : List Nat) : Vec := BitVec.ofNat 512 (joinLanes w l)

def laneFp : LaneType → FpFmt
  | .f32 => fp32 | .f16 => fp16 | .bf16 => bf16 | .i32 => fp32 | .i16 => fp16 | .i8 => fp16

end Sys2Proof.Machine
end

