-- ==== Sys2Proof/Machine/Operands.lean ====
section
/-! DEFINITION. Operand forms: immediates (R79, R116), conditions (R115, R126), field descriptors (R114), branch targets (R76),
effective addresses (R206), lanes under a predicate (R129), and the lane functions of the vector unit. -/
namespace Sys2Proof.Machine

/-- An integer condition (R115). -/
def condHolds (c : Cond) (a b : W64) : Bool :=
  match c with
  | .eq => a == b
  | .ne => a != b
  | .lt => a.slt b
  | .ge => !a.slt b
  | .ltu => a.ult b
  | .geu => !a.ult b

/-- The 13-bit immediate of CMPI: zero-extended for the unsigned conditions, else sign-extended (R115). -/
def cmpImm (c : Cond) (imm : BitVec 13) : W64 :=
  match c with
  | .ltu => imm.zeroExtend 64
  | .geu => imm.zeroExtend 64
  | .eq => imm.signExtend 64
  | .ne => imm.signExtend 64
  | .lt => imm.signExtend 64
  | .ge => imm.signExtend 64

/-- The shift amount b[5:0] (R112). -/
def shiftAmt (b : W64) : Nat := b.toNat % 64

/-- Position and width of a field descriptor (R114). -/
def fieldPos (b : W64) : Nat := b.toNat % 64
def fieldWidth (b : W64) : Nat := bits b.toNat 13 8 + 1
/-- The mask `2^w − 1`. -/
def fieldMask (b : W64) : W64 := BitVec.ofNat 64 (2 ^ fieldWidth b - 1)

/-- Leading zeros, trailing zeros and one bits of a 64-bit value (R114). -/
def countLeading (a : W64) : Nat := 64 - bitLen a.toNat
def countTrailing (a : W64) : Nat := if a = 0 then 64 else Nat.log2 (a &&& (-a)).toNat
def countOnes (a : W64) : Nat := ((List.range 64).filter (fun i => a.getLsbD i)).length

/-- Signed quotient and remainder of R113. -/
def divSigned (a b : W64) : W64 := if b = 0 then 0xFFFFFFFFFFFFFFFF else a.sdiv b
def remSigned (a b : W64) : W64 := if b = 0 then a else a.srem b
def divUnsigned (a b : W64) : W64 := if b = 0 then 0xFFFFFFFFFFFFFFFF else a / b
def remUnsigned (a b : W64) : W64 := if b = 0 then a else a % b

/-- High half of a signed product (R113). -/
def mulHigh (a b : W64) : W64 := ((a.signExtend 128 * b.signExtend 128) >>> 64).setWidth 64
def mulHighU (a b : W64) : W64 := ((a.zeroExtend 128 * b.zeroExtend 128) >>> 64).setWidth 64

/-- A 16-bit field of a register replaced (R118). -/
def movkVal (old : W64) (k : BitVec 2) (imm : BitVec 16) : W64 :=
  let sh := 16 * k.toNat
  (old &&& ~~~((0xFFFF : W64) <<< sh)) ||| (imm.zeroExtend 64 <<< sh)

/-- A branch target `PC + off21`, when it lies in the code store (R76, R79). -/
def branchTarget (pc : W64) (off : BitVec 21) : Option W64 :=
  let t := (pc.toNat : Int) + off.toInt
  if 0 ≤ t ∧ t ≤ 4095 then some (BitVec.ofNat 64 t.toNat) else none

/-- The effective address of format M (R79, R206). -/
def effAddr (base : W64) (off : BitVec 8) (z : MSize) : W64 := base + off.signExtend 64 * BitVec.ofNat 64 z.bytes

/-! ### FPMODE (R171) -/

/-- The rounding mode of a thread. -/
def State.mode (s : State) : Nat := (s.thr s.me).fpm.toNat % 4

/-- Sticky flags raised (R54). -/
def State.raiseFlags (s : State) (f : FFlags) : State :=
  s.modThr s.me (fun x => { x with fpm := x.fpm ||| (f.zeroExtend 7 <<< 2) })

/-! ### Shapes of the scalar instructions -/

/-- `s[d] := f s[a] s[b]`, and the instruction completes. -/
def State.bin (s : State) (d a b : Reg) (f : W64 → W64 → W64) : State := (s.wr d (f (s.rd a) (s.rd b))).finish

/-- `s[d] := f s[a]`, and the instruction completes. -/
def State.una (s : State) (d a : Reg) (f : W64 → W64) : State := (s.wr d (f (s.rd a))).finish

/-- The FP32 value in bits [31:0] of a register (R123). -/
def lo32 (x : W64) : Nat := x.toNat % 2 ^ 32

/-- An FP32 result zero-extended into `s[d]`, its flags raised, and the instruction completes (R123). -/
def State.fpResult (s : State) (d : Reg) (r : Nat × FFlags) : State :=
  ((s.raiseFlags r.2).wr d (BitVec.ofNat 64 r.1)).finish

/-- A taken branch: the target, or ILLEGAL_INSTR with the state as before (R76). -/
def State.branch (s : State) (off : BitVec 21) (k : State → State) : State :=
  match branchTarget s.pc off with
  | some t => (k s).finishAt t
  | none => s.trapMe (cause 0x01)

/-! ### Shapes of the vector instructions (R129) -/

/-- The lanes of a register as a list. -/
def lanes (t : LaneType) (v : Vec) : List Nat := (List.range t.lanes).map (lane t.width v)

/-- A vector whose lane `i` is `f i`. -/
def buildLanes (t : LaneType) (f : Nat → Nat) : Vec := ofLanes t.width ((List.range t.lanes).map f)

/-- A vector result under a predicate: with the predicate clear nothing is written. -/
def State.vecResult (s : State) (g : PReg) (d : VReg) (v : Vec) : State :=
  (if s.rdP g then s.wrV d v else s).finish

/-- A lane-wise integer operation. -/
def State.vecInt (s : State) (t : LaneType) (g : PReg) (d a b : VReg) (f : Nat → Nat → Nat → Nat) : State :=
  s.vecResult g d (buildLanes t (fun i => f t.width (lane t.width (s.rdV a) i) (lane t.width (s.rdV b) i)))

/-- Lane results with flags, the flags of all lanes together (R129). -/
def flagUnion (l : List (Nat × FFlags)) : FFlags := l.foldl (fun x r => x ||| r.2) 0

/-- A lane-wise floating-point operation: lanes written and flags raised, when the predicate is set. -/
def State.vecFp (s : State) (t : LaneType) (g : PReg) (d : VReg) (f : Nat → Nat × FFlags) : State :=
  let r := (List.range t.lanes).map f
  let s := s.count s.me 10
  (if s.rdP g then (s.raiseFlags (flagUnion r)).wrV d (ofLanes t.width (r.map (·.1))) else s).finish

/-- Signed lane value. -/
def sgn (w x : Nat) : Int := toSigned w x

/-- A signed result held to the range of a lane of `w` bits (R130). -/
def satLane (w : Nat) (x : Int) : Nat := wrapTo w (clampInt (-(2 : Int) ^ (w - 1)) ((2 : Int) ^ (w - 1) - 1) x)

/-- A condition between lanes (R133). -/
def laneCond (c : Cond) (w x y : Nat) : Bool :=
  match c with
  | .eq => decide (x = y)
  | .ne => decide (x ≠ y)
  | .lt => decide (sgn w x < sgn w y)
  | .ge => decide (sgn w y ≤ sgn w x)
  | .ltu => decide (x < y)
  | .geu => decide (y ≤ x)

/-- The reduction tree of R70: one level on neighbouring pairs. -/
def pairUp {α : Type} (f : α → α → α) : List α → List α
  | x :: y :: rest => f x y :: pairUp f rest
  | l => l

/-- The tree of R70 over `2^k` items. -/
def treeReduce {α : Type} (f : α → α → α) : Nat → List α → List α
  | 0, l => l
  | k + 1, l => treeReduce f k (pairUp f l)

/-- The lane format of a lane type, for conversions (R137). -/
def laneFmt : LaneType → Fmt
  | .i32 => .int32 | .f32 => .fp32 | .i16 => .int16 | .f16 => .fp16 | .bf16 => .bf16 | .i8 => .int8

/-- Shuffles of R135: which lane of the two sources concatenated stands in lane `i`. -/
def shufSource (k : ShufKind) (n i : Nat) : Nat :=
  match k with
  | .ziplo => i / 2 + (if i % 2 = 0 then 0 else n)
  | .ziphi => i / 2 + n / 2 + (if i % 2 = 0 then 0 else n)
  | .unzipe => if i < n / 2 then 2 * i else n + 2 * (i - n / 2)
  | .unzipo => if i < n / 2 then 2 * i + 1 else n + 2 * (i - n / 2) + 1

/-- Lane `j` of two registers concatenated (R135). -/
def catLane (t : LaneType) (a b : Vec) (j : Nat) : Nat :=
  if j < t.lanes then lane t.width a j else lane t.width b (j - t.lanes)

/-- `v` with lane `i` replaced. -/
def putLane (t : LaneType) (v : Vec) (i x : Nat) : Vec :=
  buildLanes t (fun j => if j = i then x else lane t.width v j)

end Sys2Proof.Machine
end

