-- ==== Sys2Proof/Machine/Mem.lean ====
section
/-! DEFINITION. The address map (R187 to R189), the bytes, full/empty bits and error marks of the memories (R200, R203, R212, R240 to
R243), and the record rings (R252, R458). -/
namespace Sys2Proof.Machine

/-! ### Global addresses (R187) -/

def gaPkg (g : Nat) : Nat := bits g 51 48
def gaSpace (g : Nat) : Nat := bits g 47 44
def gaOwner (g : Nat) : Nat := bits g 43 39
def gaOff (g : Nat) : Nat := g % 2 ^ 39
def mkGa (pkg space owner off : Nat) : Nat := pkg * 2 ^ 48 + space * 2 ^ 44 + owner * 2 ^ 39 + off

/-- A global address of this package. -/
def State.ga (s : State) (space owner off : Nat) : Nat := mkGa s.pkg.pkgNo.toNat space owner off

/-- The owners of R224. -/
inductive Owner where
  | layer (c l : Nat)
  | bank (c b : Nat)
  | tile (k t : Nat)
  | channel (n : Nat)
  | hostPort
  | station (n : Nat)
  | other (pkg : Nat)
deriving DecidableEq, Repr

/-- The station that holds a register of space 0x5 (R498): columns, then islands; TBUDGET, ITER, VOCAB_LIMIT, PADLO, PADHI and the
sequence table at (11, 1); every other one at (0, 1). -/
def regStation (off : Nat) : Nat :=
  if off < 0x140000 then off / 0x10000
  else if off < 0x1E0000 then 20 + (off - 0x140000) / 0x10000
  else if off = 0x200080 ∨ off = 0x200088 ∨ off = 0x200090 ∨ off = 0x200098 ∨ off = 0x200110 ∨ (0x230000 ≤ off ∧ off < 0x231000) then 30
  else 31

/-- The owner of the 8-byte word at a global address (R192, R195, R198, R224). -/
def State.owner (s : State) (g : Nat) : Owner :=
  if gaPkg g ≠ s.pkg.pkgNo.toNat then .other (gaPkg g)
  else match gaSpace g with
    | 0 => .layer (gaOwner g) (bits g 28 27)
    | 1 => .bank (gaOwner g) (bits g 10 6)
    | 2 => .tile (gaOwner g) (bits g 22 20)
    | 3 => .channel (bits g 10 8)
    | 4 => .hostPort
    | _ => .station (regStation (gaOff g))

/-- The partition whose freeze stops an owner (R239, R427). -/
def Owner.unit : Owner → Option Partition
  | .layer c _ => some (.column c)
  | .bank c _ => some (.column c)
  | .tile k _ => some (.island k)
  | .station n => if n < 20 then some (.column n) else if n < 30 then some (.island (n - 20)) else none
  | .channel _ => none
  | .hostPort => none
  | .other _ => none

/-- The column whose own memory an owner is. -/
def Owner.column : Owner → Option Nat
  | .layer c _ => some c
  | .bank c _ => some c
  | .tile _ _ => none
  | .station _ => none
  | .channel _ => none
  | .hostPort => none
  | .other _ => none

/-- The kinds of access that the map tells apart (R188). -/
inductive AccKind where
  | plain | fe | atomic | bulk
deriving DecidableEq, Repr

/-- Whether a global address lies in the map of R188. -/
def State.inMap (s : State) (g : Nat) : Bool :=
  let o := gaOff g
  (gaPkg g == s.pkg.pkgNo.toNat || decide (gaPkg g ≤ s.pkg.pkgCount.toNat)) &&
    (match gaSpace g with
     | 0 => decide (gaOwner g < 20 ∧ o < 2 ^ 29)
     | 1 => decide (gaOwner g < 20 ∧ o < 2 ^ 22)
     | 2 => decide (gaOwner g < 10 ∧ o < 2 ^ 23)
     | 3 => decide (gaOwner g = 0 ∧ o < 2 ^ 36)
     | 4 => decide (gaOwner g = 0)
     | 5 => true
     | _ => false)

/-- Whether the space supports the kind of access (R188). -/
def kindOk (g : Nat) (k : AccKind) : Bool :=
  match k with
  | .plain => true
  | .fe => gaSpace g == 1 || gaSpace g == 2
  | .atomic => decide (gaSpace g < 4)
  | .bulk => gaSpace g != 5

/-- The address `off` bytes after a global address that a core window has given, which wraps within the column's scratch (R190). -/
def wrapGa (g off : Nat) : Nat := g - gaOff g + (gaOff g + off) % 0x400000

/-- The address `off` bytes after one that a virtual address has given: `win` says that it lies in the core window. -/
def onGa (win : Bool) (g off : Nat) : Nat := if win then wrapGa g off else g + off

/-- Whether a thread's virtual address lies in its core window (R190). -/
def inWindow (va : Nat) : Bool := decide (va < 2 ^ 20)

/-- The map checks of R189 over bytes from `g` to `last`: the cause, or none. -/
def State.mapCheckTo (s : State) (g last : Nat) (k : AccKind) (va : Nat) : Option TrapInfo :=
  if !s.inMap g || !s.inMap last || gaSpace last ≠ gaSpace g then
    some { cause := 0x05, sub := 1, w2 := BitVec.ofNat 64 va }
  else if !kindOk g k then some { cause := 0x05, sub := 2, w2 := BitVec.ofNat 64 va }
  else none

/-- The same over `len` bytes in a row. -/
def State.mapCheck (s : State) (g len : Nat) (k : AccKind) (va : Nat) : Option TrapInfo := s.mapCheckTo g (g + len - 1) k va

/-- The same over an extent that a thread has translated, which wraps in the core window (R190). -/
def State.mapExtent (s : State) (g len : Nat) (k : AccKind) (va : Nat) : Option TrapInfo :=
  s.mapCheckTo g (onGa (inWindow va) g (len - 1)) k va

/-! ### Bytes -/

/-- The host address of a host-window global address (R455). -/
def State.hostAddr (s : State) (g : Nat) : Nat := (s.pkg.hwbase.toNat / 2 ^ 12 * 2 ^ 12 + gaOff g) % 2 ^ 64

/-- The byte at a global address; host memory that nothing has written holds a free value (log 8). -/
def State.byte (s : State) (g : Nat) : Byte :=
  if gaSpace g = 4 then (sget none s.mem.host (s.hostAddr g)).getD (Config.hostByte (s.hostAddr g))
  else sget 0 s.mem.bytes (g % 2 ^ 48)

def State.putByte (s : State) (g : Nat) (b : Byte) : State :=
  if gaSpace g = 4 then { s with mem := { s.mem with host := sset none s.mem.host (s.hostAddr g) (some b) } }
  else { s with mem := { s.mem with bytes := sset 0 s.mem.bytes (g % 2 ^ 48) b } }

/-- `n` bytes from an address on, little-endian (R46). -/
def State.readN (s : State) (g : Nat) : Nat → Nat
  | 0 => 0
  | n + 1 => (s.byte g).toNat + 256 * s.readN (g + 1) n

/-- `n` bytes written, little-endian. -/
def State.writeN (s : State) (g v : Nat) : Nat → State
  | 0 => s
  | n + 1 => (s.putByte g (BitVec.ofNat 8 v)).writeN (g + 1) (v / 256) n

/-! ### Full/empty bits (R200) -/

def State.full (s : State) (g : Nat) : Bool := sget false s.mem.fe (g % 2 ^ 48 / 8)
def State.setFull (s : State) (g : Nat) (f : Bool) : State := { s with mem := { s.mem with fe := sset false s.mem.fe (g % 2 ^ 48 / 8) f } }

/-- The word addresses that `n` bytes meet. -/
def wordsOf (g n : Nat) : List Nat := (List.range ((g + n + 7) / 8 - g / 8)).map (fun i => 8 * (g / 8 + i))

/-- Whether every word that `n` bytes meet is FULL. -/
def State.allFull (s : State) (g n : Nat) : Bool := (wordsOf g n).all (fun w => s.full w)

/-- The bits of every word that `n` bytes meet. -/
def State.setAll (s : State) (g n : Nat) (f : Bool) : State := (wordsOf g n).foldl (fun s w => s.setFull w f) s

/-- Spaces whose words carry a bit. -/
def hasFe (g : Nat) : Bool := gaSpace g == 1 || gaSpace g == 2

/-! ### Record rings in GDDR-7 (R458) -/

/-- A record written into a ring: the base and pointer registers; the new pointer, and the offset of the record when it is written. -/
def ringPut (base ptr : W64) : W64 × Option Nat :=
  let n := 128 * 2 ^ bits base.toNat 39 36
  let off := bits base.toNat 35 12 * 4096
  let wr := bits ptr.toNat 23 0
  let rd := bits ptr.toNat 47 24
  let drop := bits ptr.toNat 63 48
  if !bit base.toNat 0 then (ptr, none)
  else if decide (2 ^ 36 < off + 32 * n) || (wr + 1) % n = rd then
    (BitVec.ofNat 64 ((if drop = 0xFFFF then drop else drop + 1) * 2 ^ 48 + rd * 2 ^ 24 + wr), none)
  else (BitVec.ofNat 64 (drop * 2 ^ 48 + rd * 2 ^ 24 + (wr + 1) % n), some (off + 32 * wr))

/-- Whether two runs of bytes meet. -/
def meets (a n b m : Nat) : Bool := decide (a < b + m ∧ b < a + n)

/-- Whether the compactor is moving a region that meets `n` bytes (R380). -/
def State.bytesMoving (s : State) (g n : Nat) : Bool :=
  match s.eng.comps with
  | c :: _ => (match c.st with
    | .move _ => meets c.src c.len g n || meets c.dst c.len g n
    | .queued => false
    | .drain _ _ => false
    | .rewritten => false)
  | [] => false

/-- Whether the compactor is moving the region of the word (R380). -/
def State.regionMoving (s : State) (g : Nat) : Bool := s.bytesMoving g 1

/-- A whole word written with clean data: it loses any mark (R242). -/
def State.writeClean (s : State) (g v : Nat) : State :=
  let s := s.writeN g v 8
  { s with mem := { s.mem with marks := sset .clean s.mem.marks (g % 2 ^ 48 / 8) .clean } }

/-- A word of a record in GDDR-7, which waits while the compactor moves its region (R379). -/
def State.ringWord (s : State) (g v : Nat) : State :=
  if s.regionMoving g then { s with host := { s.host with ringLater := s.host.ringLater ++ [(g, v)] } } else s.writeClean g v

/-- The words that have waited for the end of a move are written, in their order. -/
def State.flushRings (s : State) : State :=
  s.host.ringLater.foldl (fun s x => s.ringWord x.1 x.2) { s with host := { s.host with ringLater := [] } }

/-- Four words of a record. -/
def State.write4 (s : State) (g : Nat) (a b c d : Nat) : State :=
  (((s.ringWord g a).ringWord (g + 8) b).ringWord (g + 16) c).ringWord (g + 24) d

/-- The thread part of word 2 of an error record (R252). -/
def Agent.logBits : Agent → Nat
  | .thread t => quarterOf t * 2 ^ 32 + slotOf t * 2 ^ 40
  | .copy _ => 0 | .swap => 0 | .compactor => 0 | .transit _ => 0 | .stream _ _ => 0 | .host => 0 | .chain _ => 0 | .launch => 0 | .array _ => 0

/-- A record put among those of its cycle, by ascending location (R253). -/
def insertLog (r : LogRec) : List LogRec → List LogRec
  | [] => [r]
  | x :: xs => if r.at_ < x.at_ then r :: x :: xs else x :: insertLog r xs

/-- A record of R252 for the ring, to be written at the end of the cycle. -/
def State.logRecord (s : State) (kind place where_ syn : Nat) : State :=
  let r : LogRec := { at_ := where_, w := { w0 := BitVec.ofNat 64 (kind * 2 ^ 56 + place), w1 := BitVec.ofNat 64 where_,
                                             w2 := BitVec.ofNat 64 syn, w3 := s.time } }
  { s with host := { s.host with logBuf := insertLog r s.host.logBuf } }

/-- The drop count of the error ring counts once more, at the end of the cycle. -/
def State.countDrop (s : State) : State := { s with host := { s.host with dropsDue := s.host.dropsDue + 1 } }

/-- A drop count that saturates. -/
def addDrops (ptr : W64) (n : Nat) : W64 := BitVec.ofNat 64 (min 0xFFFF (bits ptr.toNat 63 48 + n) * 2 ^ 48 + ptr.toNat % 2 ^ 48)

/-- Eighteenths of a nanosecond in 1 ms. -/
def oneMs : Nat := 18000000

/-- A record of an error of a word with the key `key`, by `put`; a corrected error found again within 1 ms is only counted (R253). -/
def State.logOnce (s : State) (kind key : Nat) (put : State → State) : State :=
  let last := sget 0 s.host.lastLogged key
  if kind = 1 ∧ last ≠ 0 ∧ s.sched.time + 1 < last + oneMs then s.countDrop
  else put (if kind = 1 then { s with host := { s.host with lastLogged := sset 0 s.host.lastLogged key (s.sched.time + 1) } } else s)

/-- The syndrome of an error: that of a poisoned word is 0xFE (R242). -/
def syndromeOf (kind g synBits : Nat) : Nat := if kind = 3 then 0xFE else (Config.syndrome g).toNat % 2 ^ synBits

/-- One record of R252: its kind, the location, the syndrome width and the agent. -/
def State.logError (s : State) (kind g synBits : Nat) (a : Agent) : State :=
  s.logOnce kind g (fun s => s.logRecord kind (gaSpace g * 2 ^ 52 + gaOwner g * 2 ^ 47) g (syndromeOf kind g synBits + a.logBits))

/-- The same for a word of a column or an island that has no global address: its location fields are free values (log 5). -/
def State.logItem (s : State) (kind unit item : Nat) (a : Agent) : State :=
  s.logOnce kind (2 ^ 52 + unit * 2 ^ 32 + item) (fun s =>
    s.logRecord kind ((Config.itemSpace unit item).toNat * 2 ^ 52 + unit * 2 ^ 47) (Config.itemGa unit item).toNat
      (syndromeOf kind (Config.itemGa unit item).toNat 8 + a.logBits))

/-- The records of the cycle enter the error ring. -/
def State.flushLog (s : State) : State :=
  s.host.logBuf.foldl (fun s r =>
    let p := ringPut s.pkg.erring s.pkg.errptr
    let s1 := { s with pkg := { s.pkg with errptr := p.1 } }
    match p.2 with
    | none => s1
    | some off => (s1.write4 (s.ga 3 0 off) r.w.w0.toNat r.w.w1.toNat r.w.w2.toNat r.w.w3.toNat).interrupt 2)
    { s with host := { s.host with logBuf := [], dropsDue := 0 }, pkg := { s.pkg with errptr := addDrops s.pkg.errptr s.host.dropsDue } }

/-- Words of an item with error marks that are read: corrected ones become clean, and every error is logged (R241, R252). -/
def State.noteItem (s : State) (unit item : Nat) (m : Sparse Mark) (a : Agent) : List Nat → State × Sparse Mark
  | [] => (s, m)
  | w :: ws =>
    match sget Mark.clean m w with
    | .clean => s.noteItem unit item m a ws
    | .correctable => (s.logItem 1 unit (item + w) a).noteItem unit item (sset .clean m w .clean) a ws
    | .uncorrectable => (s.logItem 2 unit (item + w) a).noteItem unit item m a ws
    | .poison => s.noteItem unit item m a ws

/-! ### Error marks (R212, R240 to R243) -/

def State.mark (s : State) (g : Nat) : Mark := sget .clean s.mem.marks (g % 2 ^ 48 / 8)
def State.setMark (s : State) (g : Nat) (m : Mark) : State := { s with mem := { s.mem with marks := sset .clean s.mem.marks (g % 2 ^ 48 / 8) m } }

/-- The first word that a reader of `n` bytes may not use: an uncorrectable one before a poisoned one (R222). -/
def State.badWord (s : State) (g n : Nat) : Option (Nat × Bool) :=
  match (wordsOf g n).find? (fun w => s.mark w == .uncorrectable) with
  | some w => some (w, false)
  | none => ((wordsOf g n).find? (fun w => s.mark w == .poison)).map (fun w => (w, true))

/-- The same where POISON is reported first (R167). -/
def State.worstWord (s : State) (g n : Nat) : Option (Nat × Bool) :=
  match (wordsOf g n).find? (fun w => s.mark w == .poison) with
  | some w => some (w, true)
  | none => ((wordsOf g n).find? (fun w => s.mark w == .uncorrectable)).map (fun w => (w, false))

/-- A read of `n` bytes meets marks: corrected words are written back in the next cycle, and each error is logged (R241, R252). -/
def State.noteRead (s : State) (g n : Nat) (a : Agent) : State :=
  (wordsOf g n).foldl (fun s w =>
    match s.mark w with
    | .clean => s
    | .correctable => (s.logError 1 w 8 a).after 1 (.eccWriteback w)
    | .uncorrectable => s.logError 2 w 8 a
    | .poison => s) s

/-- The mark of a word after a write that covers it whole, or in part (R242). -/
def State.markWrite (s : State) (g n w : Nat) (a : Agent) : State :=
  if g ≤ w ∧ w + 8 ≤ g + n then s.setMark w .clean
  else match s.mark w with
    | .clean => s
    | .correctable => (s.logError 1 w 8 a).setMark w .clean
    | .uncorrectable => (s.logError 3 w 8 a).setMark w .poison
    | .poison => s

/-- Correctable words that a read has corrected and logged (R241), and that are written now with the corrected data: they are clean. -/
def State.corrected (s : State) (g n : Nat) : State :=
  (wordsOf g n).foldl (fun s w => if s.mark w = .correctable then s.setMark w .clean else s) s

/-- `n` bytes written by an agent, with the marks of their words. -/
def State.store (s : State) (g v n : Nat) (a : Agent) : State :=
  let s := s.writeN g v n
  if gaSpace g = 4 then s else (wordsOf g n).foldl (fun s w => s.markWrite g n w a) s

/-- A word written from a bad source: it is marked poisoned (R243). -/
def State.poisonWord (s : State) (w : Nat) (a : Agent) : State := (s.logError 3 w 8 a).setMark w .poison

end Sys2Proof.Machine
end

