-- ==== Sys2Proof/Machine/Translate.lean ====
section
/-! DEFINITION. Virtual addresses: core windows (R190), range tables (R354 to R362), watchpoints (R179, R184) and the order of the
checks of an access (R206). -/
namespace Sys2Proof.Machine

/-! ### Permissions (R356, R360), as in the field of an entry -/

def permR : BitVec 5 := 1
def permW : BitVec 5 := 2
def permX : BitVec 5 := 4
def permA : BitVec 5 := 8
def permE : BitVec 5 := 16

/-! ### Tables: 0 to 79 of the cores, 80 to 89 of the islands -/

def emptyTable : Vector Entry 32 := Vector.replicate 32 {}

def State.table (s : State) (tbl : Nat) : Vector Entry 32 :=
  if tbl < 80 then sget emptyTable s.tables tbl else (s.isl (tbl - 80)).rt

def State.putTable (s : State) (tbl : Nat) (v : Vector Entry 32) : State :=
  if tbl < 80 then { s with tables := sset emptyTable s.tables tbl v }
  else s.modIsl (tbl - 80) (fun k => { k with rt := v })

def State.entry (s : State) (tbl i : Nat) : Entry := (s.table tbl).getD i {}
def State.putEntry (s : State) (tbl i : Nat) (e : Entry) : State := s.putTable tbl ((s.table tbl).setIfInBounds i e)

/-- An entry as it stood at the start of the cycle, which is what lookups see (R365). -/
def State.startEntry (s : State) (tbl i : Nat) : Entry := s.before.entry tbl i

/-- The clipped residency window of an entry (R356). -/
def Entry.winLo (e : Entry) : Nat := max e.rlo e.base
def Entry.winHi (e : Entry) : Nat := min e.rhi e.limit

/-- The address that an entry gives (R356). -/
def Entry.target (e : Entry) (va : Nat) : Nat := ((va : Int) + e.offset).toNat

/-- Entries that take part in lookups (R358). -/
def Entry.looks (e : Entry) : Bool := e.st == .valid || e.st == .fetching || e.st == .moving

/-- Whether an entry is hit at `va` in a context. -/
def Entry.hit (e : Entry) (ctx : BitVec 12) (va : Nat) : Bool :=
  e.looks && (e.tag == 0 || e.tag == ctx) && decide (e.base ≤ va ∧ va < e.limit)

/-- The indices of the entries hit. -/
def State.hits (s : State) (tbl : Nat) (ctx : BitVec 12) (va : Nat) : List Nat :=
  (List.range 32).filter (fun i => (s.startEntry tbl i).hit ctx va)

/-- What a translation answers. -/
inductive Trans where
  /-- the global address, and the extent of the entry that gave it -/
  | ok (ga : Nat) (via : List Via)
  | fault (i : TrapInfo)
  /-- the entry is MOVING, or FETCHING for a fetch that does not cover the bytes, or does -/
  | wait (tbl i : Nat) (share : Bool)
  /-- outside the residency window of an entry with RMODE = FETCH: the global address it will have, and the new window (R362) -/
  | fetch (tbl i lo hi newLo newHi ga : Nat)
deriving DecidableEq, Repr

/-- A translation fault with the address in word 2 (R358). -/
def tfault (cause sub detail va : Nat) : Trans := .fault { cause := cause, sub := sub, detail := detail, w2 := BitVec.ofNat 64 va }

/-- The fetch under way through an entry. -/
def State.fetchOf (s : State) (tbl i : Nat) : Option Fetch :=
  s.eng.fetches.find? (fun f => f.tbl == tbl && f.idx == i && !f.dropped)

/-- Whether the fetch under way through an entry will bring the bytes of an access in (R362). -/
def State.fetchCovers (s : State) (tbl i va len : Nat) : Bool :=
  match s.fetchOf tbl i with
  | some f => decide (f.newLo ≤ va ∧ va + len ≤ f.newHi)
  | none => false

/-- The part of R358 after the hit of entry `i`, which stands as `e`. -/
def State.through (s : State) (e : Entry) (tbl i va len : Nat) (k : BitVec 5) : Trans :=
  let missing := k &&& ~~~e.perms
  if e.limit < va + len then tfault 0x04 2 i va
  else if missing ≠ 0 then tfault 0x05 0x10 (missing.toNat * 256 + i) va
  else if e.st = .moving then .wait tbl i false
  else if e.winLo ≤ va ∧ va + len ≤ e.winHi then .ok (e.target va) [{ tbl := tbl, idx := i, va := va, len := len, ga := e.target va }]
  else if !e.fetch then tfault 0x07 0x30 i va
  else if e.st = .fetching then .wait tbl i (s.fetchCovers tbl i va len)
  else
    let a := max (va / 65536 * 65536) e.base
    let b := min ((va + len + 65535) / 65536 * 65536) e.limit
    let none_ := decide (e.winHi ≤ e.winLo)
    .fetch tbl i (if none_ then a else e.winLo) (if none_ then a else e.winHi)
      (if none_ then a else min e.winLo a) (if none_ then b else max e.winHi b) (e.target va)

/-- The same in a lookup, which sees the entry as it stood at the start of the cycle (R365). -/
def State.throughEntry (s : State) (tbl i va len : Nat) (k : BitVec 5) : Trans := s.through (s.startEntry tbl i) tbl i va len k

/-- A lookup in a table (R358). -/
def State.lookup (s : State) (tbl : Nat) (ctx : BitVec 12) (va len : Nat) (k : BitVec 5) : Trans :=
  if 2 ^ 48 < va + len then tfault 0x04 1 0 va
  else match s.hits tbl ctx va with
    | [] => tfault 0x04 1 0 va
    | [i] => s.throughEntry tbl i va len k
    | i :: j :: _ => tfault 0x06 0 (j * 256 + i) va

/-- The context tag of a slot: a new one applies from the slot's next issue (R367). -/
def Thread.context (x : Thread) : BitVec 12 := x.ctagWas.getD x.ctag

/-- The core-window address of a thread (R190). -/
def State.windowGa (s : State) (t va : Nat) : Nat :=
  s.ga 1 (colOf t) ((quarterOf t * 0x100000 + (s.thr t).seg.toNat * 0x1000 + va % 2 ^ 20) % 0x400000)

/-- The translation of an access or extent of a thread (R358). -/
def State.translate (s : State) (t va len : Nat) (k : BitVec 5) : Trans :=
  if va + len ≤ 2 ^ 20 then .ok (s.windowGa t va) []
  else if va < 2 ^ 20 then tfault 0x04 1 0 va
  else s.lookup (coreOf t) (s.thr t).context va len k

/-- The translation of an access of an island's address stream (R358). -/
def State.translateIsl (s : State) (k va len : Nat) (p : BitVec 5) : Trans := s.lookup (80 + k) (s.isl k).itag va len p

/-! ### Residency fetches (R361, R362) -/

/-- The GDDR-7 offset of the home of stacked offset `o` of column `c` (R361). -/
def State.homeOff (s : State) (c o : Nat) : Nat := s.pkg.homebase.toNat * 2 ^ 29 + c * 2 ^ 29 + o

/-- A range of stacked offsets cut at the layers of 128 MiB: per part its next offset and its end. -/
def layerParts (a b : Nat) : List (Nat × Nat) :=
  (List.range 4).filterMap (fun l =>
    let lo := max a (l * 2 ^ 27)
    let hi := min b ((l + 1) * 2 ^ 27)
    if lo < hi then some (lo, hi) else none)

/-- A fetch starts: the entry is FETCHING, and the engine takes the fetch; it fails when a home byte of the new window lies at or beyond
64 GiB. An entry that is no longer VALID in this cycle starts none. -/
def State.startFetch (s : State) (tbl i lo hi newLo newHi : Nat) : State :=
  if (s.entry tbl i).st ≠ .valid then s else
  let id := s.fresh.1
  let e := s.entry tbl i
  let a := e.target newLo
  let o := fun (va : Nat) => gaOff a + (va - newLo)
  let bad : Bool := decide (2 ^ 36 < s.homeOff (gaOwner a) (o newHi))
  let f : Fetch := {
    id := id, tbl := tbl, idx := i, lo := lo, hi := hi, newLo := newLo, newHi := newHi, old := e
    col := gaOwner a
    ptrs := if lo < hi then layerParts (o newLo) (o lo) ++ layerParts (o hi) (o newHi) else layerParts (o newLo) (o newHi)
    start := s.sched.cycle + 1 + Config.delay s.fresh.1
    failed := bad }
  let s := s.fresh.2.putEntry tbl i { e with st := .fetching }
  let s := { s with eng := { s.eng with fetches := s.eng.fetches ++ [f] } }
  if bad then s.after 1 (.residencyFetchFail id) else s

/-! ### Watchpoints (R179, R184) -/

/-- Whether bytes `[va, va + len)` meet the block of a watchpoint. -/
def wpMeets (wpa wpc : W64) (va len : Nat) : Bool :=
  let sz := bits wpc.toNat 37 32
  let lo := wpa.toNat / 2 ^ sz * 2 ^ sz
  decide (va < lo + 2 ^ sz ∧ lo < va + len)

/-- The lowest armed watchpoint of the thread's core that an access in the given directions meets. -/
def State.watchpoint (s : State) (t va len : Nat) (rd wr : Bool) : Option Nat :=
  let c := s.core (coreOf t)
  let x := s.thr t
  if x.resume || x.retrans then none
  else (List.range 4).find? (fun n =>
    let w := c.wpc.getD n 0
    bit w.toNat 63 && ((rd && bit w.toNat 62) || (wr && bit w.toNat 61)) && bit w.toNat (slotOf t) &&
      wpMeets (c.wpa.getD n 0) w va len)

/-- The address that a watchpoint's record bears: of one word or less the access's own; of more, the lowest of its words that meets the
block (R183). -/
def State.watchVa (s : State) (t n va len : Nat) : Nat :=
  let c := s.core (coreOf t)
  let sz := bits (c.wpc.getD n 0).toNat 37 32
  if len ≤ 8 then va else max (va / 8 * 8) ((c.wpa.getD n 0).toNat / 2 ^ sz * 2 ^ sz)

/-- The trap of a watchpoint. -/
def wpTrap (n va : Nat) : TrapInfo := { cause := 0x12, detail := n, w2 := BitVec.ofNat 64 va }

def misaligned (va : Nat) : TrapInfo := { cause := 0x03, w2 := BitVec.ofNat 64 va }

/-! ### The checks of R206 -/

/-- The issuing thread parks (RANGE). -/
def State.parkRange (s : State) (w : Wait) : State :=
  (s.modThr s.me (fun x => { x with retrans := true, desc := none })).parkMe .range w

/-- The outcomes of a translation but for success: a trap, a park (RANGE), a fetch that starts (R358, R362). -/
def State.noAccess (s : State) (va : Nat) : Trans → State
  | .ok _ _ => s
  | .fault i => s.trapMe i
  | .wait tbl i share => s.parkRange (.entry tbl i share va)
  | .fetch tbl i lo hi a b _ =>
    let s := s.startFetch tbl i lo hi a b
    s.parkRange (.entry tbl i (s.fetchCovers tbl i a (b - a)) va)

/-- The checks before translation: alignment and watchpoints. A thread that parked (RANGE) does not repeat them (R359). -/
def State.preChecked (s : State) (va len align : Nat) (rd wr : Bool) (go : State → State) : State :=
  if va % align ≠ 0 ∧ (s.thr s.me).retrans = false then s.trapMe (misaligned va)
  else match s.watchpoint s.me va len rd wr with
    | some n => s.trapMe (wpTrap n (s.watchVa s.me n va len))
    | none => go s

/-- The map check of R189, then what follows. -/
def State.mapChecked (s : State) (g len : Nat) (kind : AccKind) (va : Nat) (go : State → State) : State :=
  match s.mapExtent g len kind va with
  | some i => s.trapMe i
  | none => go s

/-- The checks of an access that the issuing thread makes, in the order of R206: alignment, watchpoints, translation, the map; then
its effect at the global address. -/
def State.checked (s : State) (va len align : Nat) (kind : AccKind) (k : BitVec 5) (rd wr : Bool)
    (go : Nat → List Via → State → State) : State :=
  s.preChecked va len align rd wr (fun s =>
    match s.translate s.me va len k with
    | .ok g via => s.mapChecked g len kind va (go g via)
    | r => s.noAccess va r)

end Sys2Proof.Machine
end

