-- ==== Sys2Proof/Machine/Access.lean ====
section
/-! DEFINITION. Accesses on their way to their owners: acceptance (R204, R216, R219, R226, R227), arrival (R194, R195, R228),
arbitration at scratch banks (R192, R193), stacked ports (R195) and memory tiles (R301), the access itself (R224), full/empty waits
(R201, R202) and replies (R38). -/
namespace Sys2Proof.Machine

/-! ### The list of accesses -/

def State.flight (s : State) (seq : Nat) : Option Access := s.flights.find? (fun a => a.seq == seq)
def State.dropFlight (s : State) (seq : Nat) : State := { s with flights := s.flights.filter (fun a => a.seq != seq) }
def State.modFlight (s : State) (seq : Nat) (f : Access → Access) : State :=
  { s with flights := s.flights.map (fun a => if a.seq = seq then f a else a) }

def AccOp.isStore : AccOp → Bool
  | .store _ _ _ => true
  | .load _ _ _ => false | .fe _ _ _ => false | .amo _ _ _ _ _ => false | .vamo _ _ _ _ _ => false | .feBits _ _ => false
  | .gather _ _ _ => false | .scatter _ _ _ _ => false | .regLoad _ => false | .regStore _ => false | .rmw _ _ _ _ => false
  | .hostWrite _ _ => false

/-- The bytes that one turn of an access takes. -/
def Access.turnBytes (a : Access) : Nat :=
  match a.op with
  | .vamo _ _ _ _ _ => 8
  | .feBits _ _ => 8
  | _ => a.size

/-- Accesses of many words, which wait at their banks in class 5 (R193). -/
def AccOp.isBulk : AccOp → Bool
  | .feBits _ _ => true | .gather _ _ _ => true | .scatter _ _ _ _ => true
  | .store _ _ _ => false | .load _ _ _ => false | .fe _ _ _ => false | .amo _ _ _ _ _ => false | .vamo _ _ _ _ _ => false
  | .regLoad _ => false | .regStore _ => false | .rmw _ _ _ _ => false | .hostWrite _ _ => false

/-- The part that stands for none. -/
def noPiece : Piece := { ga := 0, va := 0, off := 0, n := 0 }

/-- The parts of a move of many words that are still to do; of any other access none. -/
def AccOp.todo : AccOp → List Piece
  | .gather todo _ _ => todo | .scatter todo _ _ _ => todo | .hostWrite todo _ => todo
  | .load _ _ _ => [] | .fe _ _ _ => [] | .store _ _ _ => [] | .amo _ _ _ _ _ => [] | .vamo _ _ _ _ _ => [] | .feBits _ _ => []
  | .regLoad _ => [] | .regStore _ => [] | .rmw _ _ _ _ => []

/-- The same access with other parts to do. -/
def AccOp.withTodo (op : AccOp) (l : List Piece) : AccOp :=
  match op with
  | .gather _ got use => .gather l got use
  | .scatter _ data full r => .scatter l data full r
  | .hostWrite _ data => .hostWrite l data
  | op => op

/-- Whether an access is a move of many words in parts. -/
def AccOp.inPieces : AccOp → Bool
  | .gather _ _ _ => true | .scatter _ _ _ _ => true | .hostWrite _ _ => true
  | .load _ _ _ => false | .fe _ _ _ => false | .store _ _ _ => false | .amo _ _ _ _ _ => false | .vamo _ _ _ _ _ => false
  | .feBits _ _ => false | .regLoad _ => false | .regStore _ => false | .rmw _ _ _ _ => false

/-- The outstanding stores of a thread (R204): accepted and not yet performed. -/
def State.outstanding (s : State) (t : Nat) : List Access :=
  s.flights.filter (fun a => a.agent == .thread t && a.op.isStore && !a.waiting)

/-! ### Acceptance -/

/-- Whether an earlier store counts as performed toward a scope (R227). A store that has been accepted for another column has left its
own column's station, and one that is due has reached the port of its way out; one held on a fetch has done neither (R216). -/
def State.storeDone (s : State) (t : Nat) (sc : Scope) (a : Access) : Bool :=
  a.held.isNone &&
    (match sc with
     | .core => decide ((s.owner a.ga).column ≠ some (colOf t))
     | .col => decide ((s.owner a.ga).column ≠ some (colOf t))
     | .pkg => (match s.owner a.ga with
       | .other _ => decide (a.due ≤ s.sched.cycle)
       | _ => false)
     | .chain => false
     | .sys => false)

/-- Whether every earlier store of a thread is performed to the point of a scope. -/
def State.drained (s : State) (t : Nat) (sc : Scope) : Bool := (s.outstanding t).all (s.storeDone t sc)

/-- The bytes that an access touches. -/
def Access.ranges (a : Access) : List (Nat × Nat) :=
  if a.op.inPieces then a.op.todo.map (fun p => (p.ga, p.n)) else [(a.ga, a.size)]

/-- Whether a store is an STF, which is an FE access as well (R188). -/
def AccOp.isStf : AccOp → Bool
  | .store _ full _ => full
  | _ => false

/-- Whether an access that waits for it may be accepted now (R204, R219, R226): a store while fewer than 8 are outstanding, and all but a
plain store once no outstanding store meets its bytes. -/
def State.gateOpen (s : State) (t : Nat) (a : Access) : Bool :=
  let out := s.outstanding t
  (match a.rel with
   | some sc => s.drained t sc
   | none => true) &&
  (!a.op.isStore || decide (out.length < 8)) &&
  ((a.op.isStore && !a.op.isStf) || out.all (fun b => a.ranges.all (fun r => !meets b.ga b.size r.1 r.2))) &&
  (!a.acq || out.all (fun b => decide (s.owner b.ga ≠ s.owner a.ga)))

/-- The column's own bank or layer: the cycles from acceptance to the owner (R194, R195); none for every other owner. -/
def State.ownDelay (s : State) (t : Nat) (g : Nat) : Option Nat :=
  match s.owner g with
  | .bank c _ => if c = colOf t then some 1 else none
  | .layer c _ => if c = colOf t then some 0 else none
  | _ => none

/-- The station of the link toward another package (R20, R460). -/
def State.linkStation (s : State) (p : Nat) : Nat := if p < s.pkg.pkgNo.toNat then 31 else 30

/-- The station of an owner (R20): every packet of a class between two stations takes one path (R228). -/
def State.place (s : State) : Owner → Nat
  | .layer c _ => c
  | .bank c _ => c
  | .tile k _ => 20 + k
  | .channel n => 32 + n / 2
  | .hostPort => 31
  | .station n => n
  | .other p => s.linkStation p

/-- The station from which an agent's accesses leave (R20). -/
def State.source (s : State) : Agent → Nat
  | .thread t => colOf t
  | .stream k _ => 20 + k
  | .copy q => q / 4
  | .transit c => c
  | .array c => c
  | .swap => 30 | .compactor => 30 | .host => 31 | .launch => 31
  | .chain p => s.linkStation p

/-- Whether an agent's packets go in the class of bulk transfers, and not of memory (R21). -/
def Agent.bulkClass : Agent → Bool
  | .copy _ => true | .transit _ => true | .swap => true | .compactor => true | .launch => true
  | .thread _ => false | .stream _ _ => false | .array _ => false | .host => false | .chain _ => false

/-- The addresses of the packets of an access, and when each stands at its owner. -/
def Access.stops (a : Access) : List (Nat × Nat) :=
  if a.op.inPieces then a.op.todo.map (fun p => (p.ga, p.due)) else [(a.ga, a.due)]

/-- The cycle in which a packet of an agent arrives at another owner: no earlier than those sent before it on the same path (R228). -/
def State.arrival (s : State) (ag : Agent) (g d : Nat) : Nat :=
  (s.flights.filter (fun b => s.source b.agent == s.source ag && b.agent.bulkClass == ag.bulkClass && !b.waiting && b.held.isNone)).foldl
    (fun m b => b.stops.foldl (fun m x => if s.place (s.owner x.1) = s.place (s.owner g) then max m x.2 else m) m)
    (s.sched.cycle + 1 + d)

/-- The counter of R404 for an access. -/
def State.countSend (s : State) (t g : Nat) : State :=
  match s.owner g with
  | .bank c _ => s.count t (if c = colOf t then 13 else 15)
  | .layer c _ => s.count t (if c = colOf t then 14 else 15)
  | _ => s.count t 15

def amoBytes : AmoSize → Nat
  | .w => 4
  | .d => 8

/-- `n` bytes of a number, low first. -/
def bytesOf (v : Nat) : Nat → List Byte
  | 0 => []
  | n + 1 => BitVec.ofNat 8 v :: bytesOf (v / 256) n

/-- What goes over a UCIe link for an access to another package (R460). -/
def chainOp (a : Access) : ChainOp :=
  match a.op with
  | .load _ _ _ => .load a.ga a.size
  | .fe _ empty _ => .fe a.ga a.size empty
  | .store _ full data => .store a.ga (bytesOf data a.size) full
  | .amo op z _ x c => .amo a.ga op z x c
  | .vamo op lt _ x _ => .vamo a.ga op lt x
  | .feBits full n => .bits a.ga n full
  | .gather todo _ _ => .load (todo.headD noPiece).ga (todo.headD noPiece).n
  | .scatter todo data full _ =>
    let p := todo.headD noPiece
    .store p.ga ((upFrom p.off p.n).map (fun i => sget 0 data i)) full
  | .rmw op _ n x => .store a.ga (bytesOf (x + op) n) false
  | .regLoad _ => .load a.ga 8
  | .regStore v => .store a.ga (bytesOf v.toNat 8) false
  | .hostWrite _ _ => .store a.ga [] false

/-- Whether the link toward a package is up (R461). -/
def State.linkUp (s : State) (p : Nat) : Bool := if s.pkg.pkgNo.toNat < p then s.pkg.eastUp else s.pkg.westUp

/-- The promised delay of an agent's packet to an address, where there is one (R196). -/
def State.promised (s : State) (ag : Agent) (g : Nat) : Option Nat :=
  match ag with
  | .thread t => s.ownDelay t g
  | .array c => s.ownDelay (64 * c) g
  | _ => none

/-- When a packet of an agent stands at its owner, the delay being `d` where none is promised. -/
def State.standsAt (s : State) (ag : Agent) (g d : Nat) : Nat :=
  match s.promised ag g with
  | some n => s.sched.cycle + n
  | none => s.arrival ag g d

/-- An access put among those on their way, each packet of it due in its cycle. -/
def State.flyAt (s : State) (a : Access) (d : Nat) : State :=
  let l := a.op.todo.map (fun p => { p with due := s.standsAt a.agent p.ga d, piped := false })
  let due := l.foldl (fun m p => min m p.due) (s.standsAt a.agent a.ga d)
  { s with flights := s.flights.filter (fun (b : Access) => b.seq != a.seq) ++ [{ a with
      op := a.op.withTodo l, due := due, waiting := false, far := a.far || l.any (fun p => (s.promised a.agent p.ga).isNone) }] }

/-- The access leaves for its owner: it is in the list with the cycle of its arrival. -/
def State.fly (s : State) (a : Access) : State :=
  if (if a.op.inPieces then a.op.todo.all (fun p => (s.promised a.agent p.ga).isSome) else (s.promised a.agent a.ga).isSome) then s.flyAt a 0
  else (s.fresh.2).flyAt a (Config.delay s.fresh.1)

/-- Whether an address belongs to another package. -/
def State.isFar (s : State) (g : Nat) : Bool := gaPkg g != s.pkg.pkgNo.toNat

/-- An access whose parts in this package come first: the others go over the links one by one after them. -/
def State.routed (s : State) (a : Access) : Access :=
  let l := a.op.todo.filter (fun p => !s.isFar p.ga) ++ a.op.todo.filter (fun p => s.isFar p.ga)
  match l with
  | p :: _ => { a with op := a.op.withTodo l, ga := p.ga }
  | [] => a

/-- The access leaves; one for another package crosses a link, or fails where the link is down (R460, R461). -/
def State.present (s : State) (a : Access) : State :=
  let a := s.routed a
  match s.owner a.ga with
  | .other p => if s.linkUp p then (s.fly a).tell (.chain p s.pkg.pkgNo.toNat a.seq (chainOp a))
    else (s.fly a).after 1 (.chainPacket p s.pkg.pkgNo.toNat a.seq (.answer [] 4))
  | _ => s.fly a

/-- An access that the issuing thread makes: accepted at once, or when its wait is over. A store's acceptance completes it (R204). -/
def State.launchAccess (s : State) (a : Access) : State :=
  let t := s.me
  let a := { a with seq := s.fresh.1, agent := .thread t, pc := s.pc.toNat, again := (s.thr t).reissue }
  let s := (s.fresh.2).countSend t a.ga
  if s.gateOpen t a then
    if a.op.isStore then (s.present a).finish else (s.present a).parkMe .mem .reply
  else { s with flights := s.flights ++ [{ a with waiting := true }] }.parkMe .mem (.accept a.seq)

/-- A waiting access is accepted (R38, R204). -/
def State.acceptWaiting (s : State) (t : Nat) (a : Access) : State :=
  if a.held.isSome then
    ((s.modFlight a.seq (fun b => { b with waiting := false })).completeParked t id)
  else if a.op.isStore then (s.present a).completeParked t id
  else (s.present a).modThr t (fun x => { x with wait := .reply })

/-- A store that a residency fetch holds is accepted all the same (R205). -/
def State.launchHeld (s : State) (a : Access) (tbl i : Nat) (share : Bool) : State :=
  let t := s.me
  let a := { a with seq := s.fresh.1, agent := .thread t, pc := s.pc.toNat, held := some (tbl, i, share) }
  let s := (s.fresh.2).countSend t a.ga
  if s.gateOpen t a then { s with flights := s.flights ++ [a] }.finish
  else { s with flights := s.flights ++ [{ a with waiting := true }] }.parkMe .mem (.accept a.seq)

/-! ### Replies -/

/-- A reply on its way to a thread: a promised number of cycles for the column's own memories, an unpromised one else. -/
def State.replyTo (s : State) (t g own : Nat) (r : Reply) : State :=
  match s.ownDelay t g with
  | some _ => s.after own (.memReply t r)
  | none => s.later 1 (.memReply t r)

/-- Cycles from the performance of an access to its reply (R194, R195, R218). -/
def State.replyDelay (s : State) (g : Nat) (twoCycles : Bool) : Nat :=
  match s.owner g with
  | .layer _ _ => 12
  | _ => if twoCycles then 6 else 5

/-- The words of an access that hold an error, as a mask by place. -/
def State.badMask (s : State) (g n : Nat) : Nat :=
  ((List.range (wordsOf g n).length).zip (wordsOf g n)).foldl (fun m w => m + bnat (s.badWord w.2 8).isSome * 2 ^ w.1) 0

/-- What goes back over a link: the bytes, and for a bad word the cause, the place of the word, and the mask of bad words. -/
def State.chainAnswer (s : State) (a : Access) (v : Nat) (r : Reply) : ChainOp :=
  match r with
  | .trap i => .answer (bytesOf (s.readN a.ga a.size) a.size) (i.cause + 16 * i.w2.toNat + 1024 * s.badMask a.ga a.size)
  | .done _ [(_, x)] => .answer (bytesOf x.toNat 32) 0
  | _ => .answer (bytesOf v a.size) 0

/-- The answer to an access: to its thread, into the node that made it, or to the package that it came from. -/
def State.answer (s : State) (a : Access) (twoCycles : Bool) (v bad : Nat) (r : Reply) : State :=
  match a.agent with
  | .thread t => s.replyTo t a.ga (s.replyDelay a.ga twoCycles) r
  | .stream k n =>
    s.modIsl k (fun i => { i with nodes := sset {} i.nodes n { sget {} i.nodes n with got := (sget {} i.nodes n).got ++ [(v, bad)] } })
  | .chain p => s.tell (.chain p s.pkg.pkgNo.toNat a.pc (s.chainAnswer a v r))
  | _ => s

/-- The trap of a bad word (R212, R214, R218). -/
def badTrap (va : Nat) (poison : Bool) : TrapInfo :=
  { cause := if poison then 0x09 else 0x08, w2 := BitVec.ofNat 64 va }

/-- The register writes of a loaded value (R207 to R210). -/
def loadWrites (z : MSize) (signed : Bool) (d : Reg) (v : Nat) : Reply :=
  match z with
  | .v => .done [] [(d.setWidth 4, BitVec.ofNat 512 v)]
  | _ =>
    if signed then .done [(d, BitVec.ofInt 64 (toSigned (8 * z.bytes) v))] []
    else .done [(d, BitVec.ofNat 64 v)] []

/-! ### Atomics (R213, R218) -/

/-- The new value of an atomic over `w` bits; none when nothing is written. -/
def amoNew (op w old x c : Nat) : Option Nat :=
  match op with
  | 0 => some ((old + x) % 2 ^ w)
  | 1 => some (old &&& x)
  | 2 => some (old ||| x)
  | 3 => some (old ^^^ x)
  | 4 => some (if toSigned w x < toSigned w old then x else old)
  | 5 => some (if toSigned w old < toSigned w x then x else old)
  | 6 => some (min old x)
  | 7 => some (max old x)
  | 8 => some x
  | _ => if old = c then some x else none

def vamoCode : VamoOp → Nat
  | .add => 0 | .and => 1 | .or => 2 | .xor => 3 | .min => 4 | .max => 5 | .minu => 6 | .maxu => 7 | .swap => 8 | .fadd => 9

/-- One element of a VAMO; `fadd` rounds RNE. -/
def vamoElem (op : VamoOp) (lt : LaneType) (old x : Nat) : Nat :=
  match op with
  | .fadd => (Sys2Proof.Machine.fadd (laneFp lt) 0 old x).1
  | .add => (amoNew 0 lt.width old x 0).getD old
  | .and => (amoNew 1 lt.width old x 0).getD old
  | .or => (amoNew 2 lt.width old x 0).getD old
  | .xor => (amoNew 3 lt.width old x 0).getD old
  | .min => (amoNew 4 lt.width old x 0).getD old
  | .max => (amoNew 5 lt.width old x 0).getD old
  | .minu => (amoNew 6 lt.width old x 0).getD old
  | .maxu => (amoNew 7 lt.width old x 0).getD old
  | .swap => x

/-- The elements of one 8-byte word. -/
def vamoWord (op : VamoOp) (lt : LaneType) (old x : Nat) : Nat :=
  joinLanes lt.width ((List.range (64 / lt.width)).map (fun i =>
    vamoElem op lt (old / 2 ^ (lt.width * i) % 2 ^ lt.width) (x / 2 ^ (lt.width * i) % 2 ^ lt.width)))

/-! ### The access at its owner (R224) -/

/-- The column or island of an owner moves (R408), and its stacked segment is in use (R244). -/
def State.noteUse (s : State) (g : Nat) : State :=
  match s.owner g with
  | .layer c _ => s.modCol c (fun x => { x with moved := s.sched.cycle + 1, segUsed := sset 0 x.segUsed (bits g 28 24) s.sched.cycle })
  | .bank c _ => s.modCol c (fun x => { x with moved := s.sched.cycle + 1 })
  | .tile k _ => s.modIsl k (fun x => { x with moved := s.sched.cycle + 1 })
  | _ => s

/-- A plain read, and the traps of bad words (R212). -/
def State.performRead (s : State) (a : Access) (two : Bool) (r : Nat → Reply) (after_ : State → State) : State :=
  match s.badWord a.ga a.size with
  | some (w, p) =>
    let va := if 8 < a.size then a.va + (w - a.ga) else a.va
    ((s.noteRead a.ga a.size a.agent).dropFlight a.seq).answer a two 0 (if p then 9 else 8) (.trap (badTrap va p))
  | none =>
    let v := s.readN a.ga a.size
    (after_ ((s.noteRead a.ga a.size a.agent).dropFlight a.seq)).answer a two v 0 (r v)

/-- The entries of a wait list: accesses that have joined it at this owner. -/
def State.waitList (s : State) (g : Nat) : List Access :=
  s.flights.filter (fun a => a.joined.isSome && decide (s.owner a.ga = s.owner g))

/-- A package is told that its full/empty access waits, or is served (R201, R209). -/
def State.tellWait (s : State) (p seq : Nat) (served : Bool) : State := s.tell (.chain p s.pkg.pkgNo.toNat seq (.feWait served))

/-- An FE access that meets an EMPTY word joins the list, or is re-sent when the list is full (R201, R202). -/
def State.joinList (s : State) (a : Access) : State :=
  match a.agent with
  | .thread t =>
    if (s.waitList a.ga).length < 32 then
      (s.modFlight a.seq (fun b => { b with joined := some s.sched.cycle })).modThr t
        (fun x => { x with st := .parked .fe, wait := .feList a.seq, parkedAt := if x.st = .parked .fe then x.parkedAt else s.cycOf t })
    else
      let n := (slotOf t + 15 - s.cycOf t % 16) % 16 + 1
      ((s.modFlight a.seq (fun b => { b with waiting := true })).modThr t
        (fun x => { x with st := .parked .fe, wait := .feList a.seq, parkedAt := if x.st = .parked .fe then x.parkedAt else s.cycOf t })).after n
          (.feWaitResend t)
  | ag =>
    let s := match ag with
      | .chain p => if a.again then s else s.tellWait p a.pc false
      | _ => s
    if (s.waitList a.ga).length < 32 then s.modFlight a.seq (fun b => { b with joined := some s.sched.cycle })
    else s.modFlight a.seq (fun b => { b with due := s.sched.cycle + 1, again := true, entered := false })

/-- A served FE access reads; LDSE empties (R209, R210). -/
def State.performFe (s : State) (a : Access) (z : MSize) (empty : Bool) (d : Reg) : State :=
  let s := match a.agent with
    | .thread t => s.modThr t (fun x => { x with st := .parked .mem, wait := .reply })
    | .chain p => if a.joined.isSome || a.again then s.tellWait p a.pc true else s
    | _ => s
  s.performRead a false (loadWrites z true d) (fun s => if empty then s.setAll a.ga a.size false else s)

/-- One word of a VAMO. -/
def State.performVamo (s : State) (a : Access) (op : VamoOp) (lt : LaneType) (d : VReg) (x : BitVec 256) (old : List W64) : State :=
  match s.badWord a.ga 8 with
  | some (_, p) =>
    ((s.noteRead a.ga 8 a.agent).dropFlight a.seq).answer a true 0 0 (.trap (badTrap a.va p))
  | none =>
    let v := s.readN a.ga 8
    let xi := bits x.toNat (64 * old.length + 63) (64 * old.length)
    let s := (s.noteRead a.ga 8 a.agent).store a.ga (vamoWord op lt v xi) 8 a.agent
    let old := old ++ [BitVec.ofNat 64 v]
    if old.length < 4 then
      s.modFlight a.seq (fun b => { b with
        op := .vamo op lt d x old, ga := a.ga + 8, va := a.va + 8, due := s.sched.cycle + 2, again := true, entered := false })
    else
      let r := BitVec.ofNat 512 (joinLanes 64 (old.map (·.toNat)))
      (s.dropFlight a.seq).answer a true 0 0 (.done [] [(d, r)])

/-- One element of an MTRMW (R300). -/
def rmwElem (op w : Nat) (f : Fmt) (old x : Nat) : Nat :=
  if op = 9 then
    match f with
    | .fp16 => (Sys2Proof.Machine.fadd fp16 0 old x).1
    | .bf16 => (Sys2Proof.Machine.fadd bf16 0 old x).1
    | _ => (Sys2Proof.Machine.fadd fp32 0 old x).1
  else (amoNew op w old x 0).getD old

/-- Bits of an element. -/
def fmtBits : Fmt → Nat
  | .int8 => 8 | .int16 => 16 | .int32 => 32 | .fp32 => 32 | .fp16 => 16 | .bf16 => 16 | .ps2 => 8 | .ps1 => 4 | .sd => 64

/-- An MTRMW: `n` elements, indivisibly, and the words FULL (R300, R302). -/
def State.performRmw (s : State) (a : Access) (op : Nat) (f : Fmt) (n x : Nat) : State :=
  match s.badWord a.ga a.size with
  | some (_, p) => ((s.noteRead a.ga a.size a.agent).dropFlight a.seq).answer a true 0 (if p then 9 else 8) (.done [] [])
  | none =>
    let w := fmtBits f
    let old := s.readN a.ga a.size
    let v := joinLanes w ((List.range n).map (fun i => rmwElem op w f (old / 2 ^ (w * i) % 2 ^ w) (x / 2 ^ (w * i) % 2 ^ w)))
    let s := (((s.noteRead a.ga a.size a.agent).corrected a.ga a.size).store a.ga v a.size a.agent).setAll a.ga a.size true
    (s.dropFlight a.seq).answer a true v 0 (.done [] [])

/-- Whether an access goes through the core window of its thread (R190). -/
def Access.windowed (a : Access) : Bool :=
  match a.agent with
  | .thread _ => inWindow a.va
  | _ => false

/-- An access of one owner is performed at its instant. The eight words of one of size v share it (R224 lets them; DESIGN CHOICE, log 49). -/
def State.performScalar (s : State) (a : Access) : State :=
  let s := s.noteUse a.ga
  match a.op with
  | .load z signed d => s.performRead a false (loadWrites z signed d) id
  | .fe z empty d => if s.allFull a.ga a.size then s.performFe a z empty d else s.joinList a
  | .store _ full data =>
    let s := (s.store a.ga data a.size a.agent).dropFlight a.seq
    let s := if full && hasFe a.ga then s.setAll a.ga a.size true else s
    s.answer { a with agent := match a.agent with
      | .thread _ => .host
      | x => x } false data 0 (.done [] [])
  | .amo op z d x c =>
    let n := amoBytes z
    s.performRead a true (fun v => .done [(d, BitVec.ofInt 64 (toSigned (8 * n) v))] [])
      (fun s => match amoNew op (8 * n) (s.readN a.ga n) (x.toNat % 2 ^ (8 * n)) (c.toNat % 2 ^ (8 * n)) with
        | some v => (s.corrected a.ga n).store a.ga v n a.agent
        | none => s)
  | .vamo op lt d x old => s.performVamo a op lt d x old
  | .feBits full n =>
    let s := s.setFull a.ga full
    if n ≤ 1 then
      (match a.agent with
       | .thread t => (s.dropFlight a.seq).replyTo t a.ga 0 (.done [] [])
       | _ => (s.dropFlight a.seq).answer a false 0 0 (.done [] []))
    else s.modFlight a.seq (fun b => { b with
      op := .feBits full (n - 1), ga := onGa a.windowed a.ga 8, va := a.va + 8, due := s.sched.cycle + 1, entered := false })
  | .rmw op f n x => s.performRmw a op f n x
  | .gather _ _ _ => s
  | .scatter _ _ _ _ => s
  | .hostWrite _ _ => s
  | .regLoad _ => s
  | .regStore _ => s

/-! ### What holds an access back at its owner (R195, R239, R246, R249, R380) -/

/-- A segment of stacked memory: its column and number. -/
def State.segment (s : State) (g : Nat) : Option (Nat × Nat) :=
  match s.owner g with
  | .layer c _ => some (c, bits g 28 24)
  | _ => none

/-- Whether the patrol tester holds the word. -/
def State.patrolled (s : State) (g : Nat) : Bool :=
  match s.eng.patrol.seg, s.owner g with
  | some (.stacked c n), .layer c' _ => c == c' && n == bits g 28 24
  | some (.scratch c q), .bank c' _ => c == c' && q == bits g 21 20
  | _, _ => false

/-- Whether a segment is out of normal mode. -/
def State.retaining (s : State) (g : Nat) : Bool :=
  match s.segment g with
  | some (c, n) => sget RetSt.normal (s.col c).ret n != RetSt.normal
  | none => false

/-- Cycles of 80 µs at the present clock (R245). -/
def State.retCycles (s : State) : Nat := 80 * s.pkg.mhz

/-- A demand on a segment in retention: entry is followed by exit, and a retained segment starts to leave (R246). -/
def State.demandRetained (s : State) (g : Nat) : State :=
  match s.segment g with
  | some (c, n) => s.modCol c (fun x => { x with ret := match sget RetSt.normal x.ret n with
      | .normal => x.ret
      | .entering till _ => sset .normal x.ret n (.entering till true)
      | .retained => sset .normal x.ret n (.leaving (s.sched.cycle + s.retCycles))
      | .leaving till => sset .normal x.ret n (.leaving till) })
  | none => s

/-- A claimed segment is to be given back (R249). -/
def State.releasePatrol (s : State) : State := { s with eng := { s.eng with patrol := { s.eng.patrol with releasing := true } } }

/-- A demand on a segment (R246, R249). -/
def State.demand (s : State) (g : Nat) : State :=
  if s.patrolled g then (s.demandRetained g).releasePatrol else s.demandRetained g

/-- Whether the owner's partition runs. -/
def State.ownerRuns (s : State) (o : Owner) : Bool :=
  match o.unit with
  | none => true
  | some (.column c) => !(s.col c).frozen
  | some (.island k) => !(s.isl k).frozen

/-- Whether the word cannot be reached in this cycle for a reason other than arbitration. -/
def State.blocked (s : State) (g : Nat) : Bool := s.retaining g || s.patrolled g || s.regionMoving g

/-! ### Arbitration -/

/-- Whether a vertical port is held by an MWLD or a burst (R195). -/
def State.portHeld (s : State) (c l : Nat) : Bool := sget 0 (s.col c).portHold l != 0

/-- The banks of a memory tile that `n` bytes meet (R301). -/
def tileBanks (g n : Nat) : List Nat := (wordsOf g n).map (fun w => bits w 6 3)

/-- Whether an owner can take one more access in this cycle; a port of layers 2 and 3 at half rate, in an even cycle only (R467). -/
def State.ownerFree (s : State) (g n : Nat) : Bool :=
  match s.owner g with
  | .bank c b => decide (sget 0 (s.col c).bankBusy b ≤ s.sched.cycle)
  | .layer c l => decide (sget 0 (s.col c).portBusy l ≤ s.sched.cycle) && !s.portHeld c l &&
      !(s.pkg.vhalf && decide (2 ≤ l) && decide ((s.col c).cyc % 2 = 1))
  | .tile k t => decide (sget 0 (s.isl k).tileNext t ≤ s.sched.cycle) &&
      (tileBanks g n).all (fun b => !(s.isl k).tileWrites.any (fun w => w.1 == 16 * t + b && w.2 == s.sched.cycle))
  | _ => true

/-- The owner is taken for this cycle, a bank for two by an atomic (R192); a write enters the pipeline of a tile (R301). -/
def State.takeOwner (s : State) (g n : Nat) (two wr : Bool) : State :=
  match s.owner g with
  | .bank c b => s.modCol c (fun x => { x with bankBusy := sset 0 x.bankBusy b (s.sched.cycle + (if two then 2 else 1)) })
  | .layer c l => s.modCol c (fun x => { x with portBusy := sset 0 x.portBusy l (s.sched.cycle + 1) })
  | .tile k t => s.modIsl k (fun x => { x with
      tileNext := sset 0 x.tileNext t (s.sched.cycle + 1)
      tileWrites := (if wr then (tileBanks g n).map (fun b => (16 * t + b, s.sched.cycle + 2)) else []) ++
        x.tileWrites.filter (fun w => decide (s.sched.cycle ≤ w.2)) })
  | _ => s

/-- The core of an access to its own column's bank in classes 2 and 3 of R193. -/
def State.ownCore (s : State) (a : Access) : Option Nat :=
  match a.agent, s.owner a.ga with
  | .thread t, .bank c _ => if c = colOf t && !a.op.isBulk then some (quarterOf t) else none
  | _, _ => none

/-- The words of a move of a thread, or of an engine, at a bank, which are of class 5 (R193). -/
def State.classFive (s : State) (a : Access) : Bool :=
  a.op.isBulk &&
    (match s.owner a.ga with
     | .bank _ _ => true
     | _ => false) &&
    (match a.agent with
     | .host => false | .chain _ => false | .launch => false
     | .thread _ => true | .copy _ => true | .swap => true | .compactor => true | .transit _ => true | .stream _ _ => true | .array _ => true)

/-- The class of R193 and the key within it. -/
def State.precedence (s : State) (a : Access) : Nat × Nat :=
  match a.joined with
  | some j => (1, j)
  | none =>
    if a.due + 16 ≤ s.sched.cycle then (1, a.due)
    else if s.classFive a then (5, a.due)
    else match s.ownCore a with
      | some q =>
        let b := bits a.ga 10 6
        let c := gaOwner a.ga
        (if a.again then 2 else 3, (q + 3 - sget 3 (s.col c).lastWin b) % 4)
      | none => (4, a.due)

/-- The place of an agent's access to an address in the arrival order of one cycle (R201): the column's cores, then the mesh by input links, then engines of the
owner's own station. -/
def State.arrivalRank (s : State) (ag : Agent) (g : Nat) : Nat :=
  let here := s.place (s.owner g)
  match ag with
  | .thread t => if colOf t = here then quarterOf t else 4 + inputLink (colOf t) here
  | ag => 4 + inputLink (s.source ag) here

/-- A core of classes 2 and 3 has won its bank. -/
def State.noteWin (s : State) (a : Access) : State :=
  match s.ownCore a with
  | some q =>
    if (s.precedence a).1 = 2 ∨ (s.precedence a).1 = 3 then
      s.modCol (gaOwner a.ga) (fun x => { x with lastWin := sset 3 x.lastWin (bits a.ga 10 6) q })
    else s
  | none => s

/-- Whether losing a bank forfeits the issue (R194): a blocking access of the column's own core, but for a later word of a VAMO. -/
def State.forfeits (s : State) (a : Access) : Bool :=
  (s.ownCore a).isSome && !a.op.isStore &&
    (match a.op with
     | .vamo _ _ _ _ old => old.isEmpty
     | _ => true)

/-- A forfeit: the access is gone, and its thread issues the instruction again in its next own cycle (R194). -/
def State.forfeit (s : State) (a : Access) : State :=
  match a.agent with
  | .thread t =>
    ((s.dropFlight a.seq).modThr t (fun x => { x with st := .parked .bank, wait := .retry, reissue := true })).count t 2
  | _ => s

def AccOp.twoCycles : AccOp → Bool
  | .amo _ _ _ _ _ => true | .vamo _ _ _ _ _ => true
  | .load _ _ _ => false | .fe _ _ _ => false | .store _ _ _ => false | .feBits _ _ => false | .gather _ _ _ => false
  | .scatter _ _ _ _ => false | .regLoad _ => false | .regStore _ => false | .rmw _ _ _ _ => true | .hostWrite _ _ => false

def AccOp.isWrite : AccOp → Bool
  | .amo _ _ _ _ _ => true | .vamo _ _ _ _ _ => true | .store _ _ _ => true | .feBits _ _ => true | .fe _ empty _ => empty
  | .load _ _ _ => false | .gather _ _ _ => false | .scatter _ _ _ _ => true | .regLoad _ => false | .regStore _ => true
  | .rmw _ _ _ _ => true | .hostWrite _ _ => true

/-! ### Moves of many words (R157, R163, R440) -/

/-- Whether the owner of a piece can take it now. -/
def State.pieceReady (s : State) (p : Piece) : Bool :=
  !s.isFar p.ga && s.ownerRuns (s.owner p.ga) && !s.blocked p.ga && s.ownerFree p.ga p.n

/-- A turn of a piece at its owner: the state, and the piece while it is still to be performed. A memory tile performs it at the WRITE stage
of its pipeline, two cycles after its entry (R301, R302). -/
def State.pieceTurn (s : State) (p : Piece) (wr : Bool) : State × Option Piece :=
  if s.sched.cycle < p.due || s.isFar p.ga || !s.ownerRuns (s.owner p.ga) then (s, some p)
  else if p.piped then (s.noteUse p.ga, none)
  else if s.pieceReady p then
    match s.owner p.ga with
    | .tile _ _ => (s.takeOwner p.ga p.n false wr, some { p with piped := true, due := s.sched.cycle + 2 })
    | _ => ((s.takeOwner p.ga p.n false wr).noteUse p.ga, none)
  else (s.demand p.ga, some p)

/-- The bytes of a piece put into a table. -/
def State.readPiece (s : State) (p : Piece) (got : Sparse Byte) : Sparse Byte :=
  (List.range p.n).foldl (fun m i => sset 0 m (p.off + i) (s.byte (p.ga + i))) got

/-- The bytes of a piece written, and its bits set FULL where asked. -/
def State.writePiece (s : State) (p : Piece) (data : Sparse Byte) (full : Bool) (a : Agent) : State :=
  let v := (List.range p.n).foldr (fun i x => (sget 0 data (p.off + i)).toNat + 256 * x) 0
  let s := s.store p.ga v p.n a
  if full && hasFe p.ga then s.setAll p.ga p.n true else s

/-- Of two traps of bad words, the one that the read reports: by kind (TLD reports POISON first, R167), then the lower address. -/
def worseTrap (poisonFirst : Bool) : Option TrapInfo → Option TrapInfo → Option TrapInfo
  | none, b => b
  | a, none => a
  | some a, some b =>
    if a.cause = b.cause then (if a.w2.toNat ≤ b.w2.toNat then some a else some b)
    else if (a.cause == 9) == poisonFirst then some a else some b

def GatherUse.poisonFirst : GatherUse → Bool
  | .tile _ => true | .plane _ _ _ => true
  | .context _ _ => false | .install _ _ _ => false | .descriptor _ _ => false | .engine _ => false | .host => false | .image => false

/-- The trap of a piece's bad word. -/
def State.pieceBad (s : State) (u : GatherUse) (p : Piece) : Option TrapInfo :=
  (if u.poisonFirst then s.worstWord p.ga p.n else s.badWord p.ga p.n).map (fun w => badTrap (p.va + w.1 - p.ga) w.2)

/-- As many pieces of a read as their owners take in this cycle: the state, the pieces left, the bytes, and the trap of the bad words. -/
def State.gatherPieces (s : State) (ag : Agent) (u : GatherUse) : List Piece → Sparse Byte → State × List Piece × Sparse Byte × Option TrapInfo
  | [], got => (s, [], got, none)
  | p :: ps, got =>
    match s.pieceTurn p false with
    | (s1, none) =>
      let r := (s1.noteRead p.ga p.n ag).gatherPieces ag u ps (s.readPiece p got)
      (r.1, r.2.1, r.2.2.1, worseTrap u.poisonFirst (s.pieceBad u p) r.2.2.2)
    | (s1, some q) =>
      let r := s1.gatherPieces ag u ps got
      (r.1, q :: r.2.1, r.2.2)

/-- As many pieces of a write as their owners take in this cycle. -/
def State.scatterPieces (s : State) (ag : Agent) (data : Sparse Byte) (full : Bool) : List Piece → State × List Piece
  | [] => (s, [])
  | p :: ps =>
    match s.pieceTurn p true with
    | (s1, none) => (s1.writePiece p data full ag).scatterPieces ag data full ps
    | (s1, some q) =>
      let r := s1.scatterPieces ag data full ps
      (r.1, q :: r.2)

/-- The enabled bytes of a piece of a host write, in one step (R454): the words that they cover whole lose their marks (R242). -/
def State.writeEnabled (s : State) (p : Piece) (data : List (Option Byte)) : State :=
  let on := (upFrom 0 p.n).filterMap (fun i => (data.getD (p.off + i) none).map (fun b => (p.ga + i, b)))
  let s := on.foldl (fun s e => s.putByte e.1 e.2) s
  if gaSpace p.ga = 4 then s
  else (wordsOf p.ga p.n).foldl (fun s w =>
    let n := (on.filter (fun e => decide (w ≤ e.1 ∧ e.1 < w + 8))).length
    if n = 0 then s else s.markWrite w n w .host) s

/-- As many pieces of a host write as their owners take in this cycle. -/
def State.hostPieces (s : State) (data : List (Option Byte)) : List Piece → State × List Piece
  | [] => (s, [])
  | p :: ps =>
    match s.pieceTurn p true with
    | (s1, none) => (s1.writeEnabled p data).hostPieces data ps
    | (s1, some q) =>
      let r := s1.hostPieces data ps
      (r.1, q :: r.2)

/-! ### Tile bytes (R140) -/

def State.tileByte (s : State) (c t i : Nat) : Byte := sget 0 (s.col c).tiles (16384 * t + i)
def State.putTileByte (s : State) (c t i : Nat) (b : Byte) : State :=
  s.modCol c (fun x => { x with tiles := sset 0 x.tiles (16384 * t + i) b })

/-- Bytes of a table written into a tile, whole words clean (R242). -/
def State.fillTile (s : State) (c t : Nat) (data : Sparse Byte) (n : Nat) : State :=
  let s := (List.range n).foldl (fun s i => s.putTileByte c t i (sget 0 data i)) s
  s.modCol c (fun x => { x with tileMarks := (List.range (n / 8)).foldl (fun m i => sset .clean m (2048 * t + i) .clean) x.tileMarks })

end Sys2Proof.Machine
end

