-- ==== Sys2Proof/Machine/LoadStore.lean ====
section
/-! DEFINITION. Loads, stores, atomics, fences, full/empty operations and VAMO: majors 0x24 to 0x29 (R206 to R219). -/
namespace Sys2Proof.Machine

/-- The trap of a deferred store fault (R205). -/
def Deferred.trap (d : Deferred) : TrapInfo := { cause := d.cause, sub := 0x10, detail := d.at_, w2 := d.va }

/-- A deferred store fault is reported in place of the instruction (R205), after the traps that R222 puts before it (log 48). -/
def State.reportDeferred (s : State) (go : State → State) : State :=
  match (s.thr s.me).deferred with
  | d :: ds => (s.modThr s.me (fun x => { x with deferred := ds })).trapMe d.trap
  | [] => go s

/-- Whether an access of `len` bytes falls on space 0x5, which has accesses of 8 bytes alone (R170). -/
def State.wrongSize (s : State) (va len : Nat) (k : BitVec 5) : Bool :=
  match s.translate s.me va len k with
  | .ok g _ => gaSpace g == 5 && len != 8
  | _ => false

/-- The checks of R206 and R222 for an access of `len` bytes, of a size of R203 where `sized`; then its effect at the global address. -/
def State.memChecked (s : State) (va len align : Nat) (sized : Bool) (kind : AccKind) (k : BitVec 5) (rd wr : Bool)
    (go : Nat → List Via → State → State) : State :=
  if sized && s.wrongSize va len k then s.trapMe (misaligned va)
  else s.preChecked va len align rd wr (fun s =>
    match s.translate s.me va len k with
    | .ok g via => s.mapChecked g len kind va (fun s =>
        if gaSpace g = 5 ∧ s.isSuper s.me = false then s.trapMe (cause 0x18) else s.reportDeferred (go g via))
    | .fault i => s.trapMe i
    | r => s.reportDeferred (fun s => s.noAccess va r))

/-- A load of LD, LDU, LDS or LDSE (R207, R209, R210). -/
def State.loadInstr (s : State) (z : MSize) (b : Reg) (off : BitVec 8) (kind : AccKind) (acq : Bool) (op : AccOp) (d : Reg) : State :=
  let va := (effAddr (s.rd b) off z).toNat
  s.memChecked va z.bytes z.bytes true kind permR true false (fun g via s =>
    s.launchAccess { agent := .thread s.me, op := if gaSpace g = 5 then .regLoad d else op, ga := g, va := va, size := z.bytes, acq := acq
                     via := via })

/-- The data of a store: the low bytes of a scalar register, or a vector register (R208). -/
def State.storeData (s : State) (z : MSize) (d : Reg) : Nat :=
  if z = .v then (s.rdV (d.setWidth 4)).toNat else (s.rd d).toNat % 2 ^ (8 * z.bytes)

/-- A store through an entry that is FETCHING, or that a fetch must bring in: it is accepted, and held (R205). -/
def State.heldStore (s : State) (a : Access) (kind : AccKind) (tbl i : Nat) (share : Bool) (begin_ : State → State) : State :=
  s.mapChecked a.ga a.size kind a.va (fun s => s.reportDeferred (fun s =>
    (begin_ s).launchHeld { a with via := [{ tbl := tbl, idx := i, va := a.va, len := a.size, ga := a.ga }] } tbl i share))

/-- A store of ST or STF (R204, R205, R208, R211): outside the residency window under FETCH it is held, not parked. -/
def State.storeInstr (s : State) (z : MSize) (d b : Reg) (off : BitVec 8) (full : Bool) (rel : Option Scope) : State :=
  let va := (effAddr (s.rd b) off z).toNat
  let kind := if full then AccKind.fe else AccKind.plain
  let a : Access := { agent := .thread s.me, op := .store z full (s.storeData z d), ga := 0, va := va, size := z.bytes, rel := rel }
  match s.translate s.me va z.bytes permW with
  | .fetch tbl i lo hi newLo newHi g => s.preChecked va z.bytes z.bytes false true (fun s =>
      s.heldStore { a with ga := g } kind tbl i true (fun s => s.startFetch tbl i lo hi newLo newHi))
  | .wait tbl i share => s.preChecked va z.bytes z.bytes false true (fun s =>
      if (s.startEntry tbl i).st = .fetching then s.heldStore { a with ga := (s.startEntry tbl i).target va } kind tbl i share (fun s => s)
      else s.reportDeferred (fun s => s.parkRange (.entry tbl i share va)))
  | _ => s.memChecked va z.bytes z.bytes true kind permW false true (fun g via s =>
      s.launchAccess { a with op := if gaSpace g = 5 then .regStore (s.rd d) else a.op, ga := g, via := via })

def execLd (z : MSize) (d b : Reg) (off : BitVec 8) (s : State) : Out :=
  .next (s.loadInstr z b off .plain false (.load z true d) d)
def execLdAcq (z : MSize) (_sc : Scope) (d b : Reg) (off : BitVec 8) (s : State) : Out :=
  .next (s.loadInstr z b off .plain true (.load z true d) d)
def execLds (z : MSize) (d b : Reg) (off : BitVec 8) (s : State) : Out :=
  .next (s.loadInstr z b off .fe false (.fe z false d) d)
def execLdu (z : MSize) (d b : Reg) (off : BitVec 8) (s : State) : Out :=
  .next (s.loadInstr z b off .plain false (.load z false d) d)
def execLduAcq (z : MSize) (_sc : Scope) (d b : Reg) (off : BitVec 8) (s : State) : Out :=
  .next (s.loadInstr z b off .plain true (.load z false d) d)
def execLdse (z : MSize) (d b : Reg) (off : BitVec 8) (s : State) : Out :=
  .next (s.loadInstr z b off .fe false (.fe z true d) d)
def execSt (z : MSize) (d b : Reg) (off : BitVec 8) (s : State) : Out := .next (s.storeInstr z d b off false none)
def execStRel (z : MSize) (sc : Scope) (d b : Reg) (off : BitVec 8) (s : State) : Out :=
  .next (s.storeInstr z d b off false (some sc))
def execStf (z : MSize) (d b : Reg) (off : BitVec 8) (s : State) : Out := .next (s.storeInstr z d b off true none)

/-! ### Atomics (R213, R214) -/

def amoAcq : AmoOrd → Bool
  | .acq _ => true | .plain => false | .rel _ => false
def amoRel : AmoOrd → Option Scope
  | .rel s => some s | .plain => none | .acq _ => none

/-- An atomic of major 0x28; the compare value of AMOCAS is the old `s[d]`. -/
def State.amoInstr (s : State) (op : Nat) (z : AmoSize) (o : AmoOrd) (d a b : Reg) : State :=
  let va := (s.rd a).toNat
  let n := amoBytes z
  s.memChecked va n n true .atomic (permR ||| permA) true true (fun g via s =>
    s.launchAccess { agent := .thread s.me, op := .amo op z d (s.rd b) (s.rd d), ga := g, va := va, size := n,
                     acq := amoAcq o, rel := amoRel o, via := via })

def execAmoadd (z : AmoSize) (o : AmoOrd) (d a b : Reg) (s : State) : Out := .next (s.amoInstr 0 z o d a b)
def execAmoand (z : AmoSize) (o : AmoOrd) (d a b : Reg) (s : State) : Out := .next (s.amoInstr 1 z o d a b)
def execAmoor (z : AmoSize) (o : AmoOrd) (d a b : Reg) (s : State) : Out := .next (s.amoInstr 2 z o d a b)
def execAmoxor (z : AmoSize) (o : AmoOrd) (d a b : Reg) (s : State) : Out := .next (s.amoInstr 3 z o d a b)
def execAmomin (z : AmoSize) (o : AmoOrd) (d a b : Reg) (s : State) : Out := .next (s.amoInstr 4 z o d a b)
def execAmomax (z : AmoSize) (o : AmoOrd) (d a b : Reg) (s : State) : Out := .next (s.amoInstr 5 z o d a b)
def execAmominu (z : AmoSize) (o : AmoOrd) (d a b : Reg) (s : State) : Out := .next (s.amoInstr 6 z o d a b)
def execAmomaxu (z : AmoSize) (o : AmoOrd) (d a b : Reg) (s : State) : Out := .next (s.amoInstr 7 z o d a b)
def execAmoswap (z : AmoSize) (o : AmoOrd) (d a b : Reg) (s : State) : Out := .next (s.amoInstr 8 z o d a b)
def execAmocas (z : AmoSize) (o : AmoOrd) (d a b : Reg) (s : State) : Out := .next (s.amoInstr 9 z o d a b)

/-! ### Major 0x29 (R215 to R218) -/

/-- FENCE completes at once when nothing is outstanding toward its scope (R216, R239). -/
def execFence (sc : Scope) (s : State) : Out :=
  .next (s.reportDeferred (fun s => if s.drained s.me sc then s.finish else s.parkMe .mem (.fence sc)))

/-- FESET and FECLR (R217). -/
def State.feInstr (s : State) (a : Reg) (n : BitVec 8) (full : Bool) : State :=
  let va := (s.rd a).toNat
  let k := n.toNat + 1
  s.memChecked va (8 * k) 8 false .fe permW false true (fun g via s =>
    s.launchAccess { agent := .thread s.me, op := .feBits full k, ga := g, va := va, size := 8 * k, via := via })

def execFeset (a : Reg) (n : BitVec 8) (s : State) : Out := .next (s.feInstr a n true)
def execFeclr (a : Reg) (n : BitVec 8) (s : State) : Out := .next (s.feInstr a n false)

/-- VAMO (R218). -/
def execVamo (op : VamoOp) (lt : LaneType) (d : VReg) (a : Reg) (s : State) : Out :=
  let va := (s.rd a).toNat
  .next (s.memChecked va 32 32 false .atomic (permR ||| permA) true true (fun g via s =>
    s.launchAccess { agent := .thread s.me, op := .vamo op lt d ((s.rdV d).setWidth 256) [], ga := g, va := va, size := 32, via := via }))

end Sys2Proof.Machine
end

