-- ==== Sys2Proof/Machine/MemEvents.lean ====
section
/-! DEFINITION. The steps of memory: an access at its owner (R224), service and re-sending of full/empty waits (R201, R202), replies (R38),
and corrected words written back (R241). -/
namespace Sys2Proof.Machine

/-- Whether an earlier store of the same thread to the same owner is still to be performed (R204, R235). -/
def State.behind (s : State) (a : Access) : Bool :=
  a.op.isStore &&
    s.flights.any (fun b => b.agent == a.agent && b.op.isStore && !b.waiting && decide (b.seq < a.seq) && decide (s.owner b.ga = s.owner a.ga))

/-- Whether an access stands at its owner and may be performed there: a move of many words, once a part of it stands at its own. -/
def State.standing (s : State) (a : Access) : Bool :=
  !a.waiting && a.held.isNone && a.joined.isNone &&
    (if a.op.inPieces then a.op.todo.any (fun p => decide (p.due ≤ s.sched.cycle) && !s.isFar p.ga)
     else decide (a.due ≤ s.sched.cycle) && s.ownerRuns (s.owner a.ga) && !s.behind a && !s.isFar a.ga)

/-! ### Moves of many words -/

/-- The package cycle in which the words that a move has just performed in its column's own memories have come back, beside those before. -/
def State.movedBack (s : State) (a : Access) (read : Bool) (todo left : List Piece) : Nat :=
  (todo.filter (fun p => (s.promised a.agent p.ga).isSome && !left.any (fun q => q.off == p.off))).foldl
    (fun m p => max m (s.sched.cycle + (if read then s.replyDelay p.ga false else 0))) a.back

/-- A move whose parts have all been performed waits until the last of its words, or the last acknowledgement, has come back. -/
def State.awaitMove (s : State) (a : Access) : State :=
  if a.far then
    (s.fresh.2).modFlight a.seq (fun _ => { a with
      op := a.op.withTodo [], waiting := true, due := max a.back (s.sched.cycle + 1 + Config.delay s.fresh.1) })
  else s.modFlight a.seq (fun _ => { a with op := a.op.withTodo [], waiting := true, due := a.back })

/-- The host port has no BAR2 request under way any more. -/
def State.hostFree (s : State) : State := { s with host := { s.host with busy := none } }

/-- The first `n` bytes of a table. -/
def bytesUpTo (got : Sparse Byte) (n : Nat) : List Byte := (List.range n).map (fun i => sget 0 got i)

/-- The last part of a move has been performed: a read, and a thread's write, wait for their replies; a BAR2 read is answered; every other
write is over. -/
def State.moveOver (s : State) (a : Access) : State :=
  match a.op, a.agent with
  | .gather _ got _, .host => ((s.dropFlight a.seq).hostFree).tell (.bar2Data (bytesUpTo got a.size) a.bad.isSome)
  | .gather _ _ _, _ => s.awaitMove a
  | .scatter _ _ _ _, .thread _ => s.awaitMove a
  | .hostWrite _ _, _ => (s.dropFlight a.seq).hostFree
  | _, _ => s.dropFlight a.seq

/-- A move goes on with the parts that are left; when only those in other packages are left, the first of them goes over its link. -/
def State.moveOn (s : State) (a : Access) (left : List Piece) : State :=
  match left with
  | [] => s.moveOver a
  | p :: _ =>
    let a := { a with op := a.op.withTodo left, ga := p.ga }
    if s.isFar p.ga then s.present a else s.modFlight a.seq (fun _ => a)

/-- A read of many words goes on (R157). -/
def State.gatherStep (s : State) (a : Access) (todo : List Piece) (got : Sparse Byte) (use : GatherUse) : State :=
  let r := s.gatherPieces a.agent use todo got
  r.1.moveOn { a with op := .gather r.2.1 r.2.2.1 use, bad := worseTrap use.poisonFirst a.bad r.2.2.2, back := s.movedBack a true todo r.2.1 } r.2.1

/-- A write of many words goes on. -/
def State.scatterStep (s : State) (a : Access) (todo : List Piece) (data : Sparse Byte) (full : Bool) : State :=
  let r := s.scatterPieces a.agent data full todo
  r.1.moveOn { a with back := s.movedBack a false todo r.2 } r.2

/-- A BAR2 write goes on (R454). -/
def State.hostStep (s : State) (a : Access) (todo : List Piece) (data : List (Option Byte)) : State :=
  let r := s.hostPieces data todo
  r.1.moveOn a r.2

/-- An access that has won its owner. A memory tile performs it at the WRITE stage, two cycles after its entry (R301, R302). -/
def State.winOwner (s : State) (a : Access) : State :=
  let s := (s.noteWin a).takeOwner a.ga a.turnBytes a.op.twoCycles a.op.isWrite
  match s.owner a.ga with
  | .tile _ _ => s.modFlight a.seq (fun b => { b with entered := true, due := s.sched.cycle + 2 })
  | _ => s.performScalar a

/-- An access in its turn at its owner (R193, R194, R224). -/
def State.accessTurn (s : State) (a : Access) : State :=
  match a.op with
  | .gather todo got use => s.gatherStep a todo got use
  | .scatter todo data full _ => s.scatterStep a todo data full
  | .hostWrite todo data => s.hostStep a todo data
  | _ =>
    if a.entered then s.performScalar a
    else if s.blocked a.ga then s.demand a.ga
    else if s.ownerFree a.ga a.turnBytes then s.winOwner a
    else if s.forfeits a then s.forfeit a
    else s

/-- OWNER_ACCESS of memory; control registers are reached through `execOwnerAccess`. -/
def State.ownerAccess (s : State) (seq : Nat) : State :=
  match s.flight seq with
  | some a => if s.standing a then s.accessTurn a else s
  | none => s

/-- A waiting request in its turn at its owner, whose words are FULL: a bank performs it, and a memory tile takes it into its pipeline
(R301, R302). -/
def State.serveWait (s : State) (a : Access) (z : MSize) (empty : Bool) (d : Reg) : State :=
  match s.owner a.ga with
  | .tile _ _ => (s.takeOwner a.ga a.turnBytes false empty).modFlight a.seq (fun b => { b with entered := true, due := s.sched.cycle + 2 })
  | _ => ((s.takeOwner a.ga a.turnBytes false empty).noteUse a.ga).performFe a z empty d

/-- A request at the end of a memory tile's pipeline is performed if its words are FULL still. -/
def State.endWait (s : State) (a : Access) (z : MSize) (empty : Bool) (d : Reg) : State :=
  if s.allFull a.ga a.size then (s.noteUse a.ga).performFe a z empty d else s.modFlight a.seq (fun b => { b with entered := false })

/-- A waiting request is served when its owner is free and its words are FULL; else it keeps its place (R201). -/
def execFeWaitService (seq : Nat) (s : State) : Out :=
  .next (match s.flight seq with
    | some a =>
      (match a.op, a.joined with
       | .fe z empty d, some _ =>
         if !s.ownerRuns (s.owner a.ga) then s
         else if a.entered then s.endWait a z empty d
         else if s.allFull a.ga a.size && s.ownerFree a.ga a.turnBytes then s.serveWait a z empty d
         else s
       | _, _ => s)
    | none => s)

/-- A request that found the wait list full is sent again in the thread's own cycle (R202). -/
def execFeWaitResend (t : Nat) (s : State) : Out :=
  .next (match (s.thr t).wait with
    | .feList seq =>
      (match s.flight seq with
       | some a => if a.waiting then s.present { a with joined := none, entered := false } else s
       | none => s)
    | _ => s)

/-- The register writes of a reply. -/
def applyWrites (x : Thread) (sr : List (Reg × W64)) (vr : List (VReg × Vec)) : Thread :=
  vr.foldl (fun x w => x.putV w.1 w.2) (sr.foldl (fun x w => x.putS w.1 w.2) x)

/-- A reply applied to the thread that waits for it: the instruction completes, or traps. -/
def State.applyReply (s : State) (t : Nat) (r : Reply) : State :=
  match r with
  | .done sr vr => s.completeParked t (fun x => applyWrites x sr vr)
  | .trap i => s.trap t i
  | .bind _ _ _ => s

/-- A reply completes the instruction of a parked thread, or traps it; a thread that is not waiting ignores it (R38, R212, R343). -/
def execMemReply (t : Nat) (r : Reply) (s : State) : Out := .next (if (s.thr t).wait = .reply then s.applyReply t r else s)

/-- The corrected word is written back in the owner's next free cycle, without a change of its data (R241). -/
def execEccWriteback (ga : Nat) (s : State) : Out :=
  .next (if s.mark ga = .correctable then s.setMark ga .clean else s)

end Sys2Proof.Machine
end

