-- ==== Sys2Proof/Machine/Token.lean ====
section
/-! DEFINITION. Tokens (R254, R255), the fibre grammar and its checks (R256 to R259), and channel registers (R264, R265). -/
namespace Sys2Proof.Machine

/-! ### Tokens -/

def mkTok (kind aux payload : Nat) : Tok := BitVec.ofNat 72 (kind % 16 * 2 ^ 68 + aux % 16 * 2 ^ 64 + payload % 2 ^ 64)
def tkKind (t : Tok) : Nat := bits t.toNat 71 68
def tkAux (t : Tok) : Nat := bits t.toNat 67 64
def tkPay (t : Tok) : Nat := t.toNat % 2 ^ 64
/-- The coordinate of a token that bears one. -/
def tkCoord (t : Tok) : Nat := bits t.toNat 63 32
/-- The low half of the payload. -/
def tkLow (t : Tok) : Nat := t.toNat % 2 ^ 32

def kVALUE : Nat := 0
def kCOORD : Nat := 1
def kPAIR : Nat := 2
def kREF : Nat := 3
def kEMPTY : Nat := 4
def kSTOP : Nat := 5
def kDONE : Nat := 6
def kFOLD : Nat := 7
def kSDV : Nat := 8
def kPERMIT : Nat := 9

def kindCode : TokKind → Nat
  | .value => 0 | .coord => 1 | .pair => 2 | .ref => 3 | .empty => 4 | .stop => 5 | .done => 6 | .fold => 7 | .sdv => 8 | .permit => 9

def tokStop (n : Nat) : Tok := mkTok kSTOP n 0
def tokEmpty : Tok := mkTok kEMPTY 0 0
def tokDone : Tok := mkTok kDONE 0 0

/-- The data kinds, and those that bear a coordinate (R255). -/
def isData (k : Nat) : Bool := decide (k ≤ 3) || k == 8
def hasCoord (k : Nat) : Bool := k == 1 || k == 2 || k == 3 || k == 8

/-! ### SD digits (R59, R60) -/

/-- The 3-bit code of digit `i`. -/
def digitCode (t : Tok) (i : Nat) : Nat := bits t.toNat (23 - 3 * i) (21 - 3 * i)

def digitVal (c : Nat) : Int :=
  match c with
  | 1 => 1 | 2 => 2 | 7 => -1 | 6 => -2 | _ => 0

/-- What R60 asks of an SDV token. -/
def sdvOk (t : Tok) : Bool :=
  decide (1 ≤ tkAux t ∧ tkAux t ≤ 8) && decide (bits t.toNat 31 24 = 0) &&
    (List.range 8).all (fun i =>
      let c := digitCode t i
      if i < tkAux t then c != 3 && c != 4 && c != 5 else c == 0)

/-! ### Checks (R259) -/

def scBADKIND : Nat := 1
def scORDER : Nat := 2
def scRANK : Nat := 3
def scSTOPPAIR : Nat := 4
def scDONE : Nat := 5
def scDIGIT : Nat := 6

/-- The "must hold" column of R255 but for the RANK of STOP and the DIGIT of SDV. -/
def kindHolds (t : Tok) : Bool :=
  match tkKind t with
  | 0 => tkAux t == 0
  | 1 => tkAux t == 0 && tkLow t == 0
  | 2 => tkAux t == 0
  | 3 => tkAux t == 0
  | 4 => tkAux t == 0 && tkPay t == 0
  | 5 => tkPay t == 0
  | 6 => tkAux t == 0 && tkPay t == 0
  | 7 => tkAux t == 0 && tkCoord t == 0
  | 8 => true
  | 9 => tkAux t == 0 && tkCoord t == 0
  | _ => false

/-- A token that breaks the kind rules at this position of a stream of depth `d`. -/
def badKind (d : Nat) (g : Gram) (t : Tok) : Bool :=
  let k := tkKind t
  !kindHolds t ||
    (if d = 0 then (isData k && k != kVALUE && k != kSDV) || k == kEMPTY || k == kFOLD
     else k == kPERMIT || (isData k && (g.empt || (g.kind.isSome && g.kind != some k))) ||
       (k == kEMPTY && (g.empt || g.kind.isSome)))

/-- A coordinate that does not ascend within its fibre(0). -/
def badOrder (d : Nat) (g : Gram) (t : Tok) : Bool :=
  d != 0 && hasCoord (tkKind t) && (match g.coord with
    | some c => decide (tkCoord t ≤ c)
    | none => false)

/-- A stop of a rank that cannot stand here. -/
def badRank (d : Nat) (g : Gram) (t : Tok) : Bool :=
  tkKind t == kSTOP && (decide (d ≤ tkAux t) || !(g.begun || g.resumed) || decide (8 ≤ tkAux t) ||
    (match g.stop with
     | some r => decide (tkAux t ≤ r)
     | none => false))

/-- The subcode of the first rule of R259 that a token breaks. -/
def gramError (d : Nat) (g : Gram) (t : Tok) : Option Nat :=
  if badKind d g t then some scBADKIND
  else if badOrder d g t then some scORDER
  else if badRank d g t then some scRANK
  else if tkKind t == kSTOP && g.stop.isSome then some scSTOPPAIR
  else if tkKind t == kDONE && d != 0 && !g.resumed && g.stop != some (d - 1) then some scDONE
  else if tkKind t == kSDV && !sdvOk t then some scDIGIT
  else none

/-- The check state after a token that fits. -/
def gramNext (g : Gram) (t : Tok) : Gram :=
  let k := tkKind t
  if k = kFOLD then g
  else if k = kDONE then {}
  else if k = kSTOP then { begun := true, stop := some (tkAux t) }
  else if k = kEMPTY then { begun := true, empt := true }
  else { begun := true, kind := some k, coord := if hasCoord k then some (tkCoord t) else none }

/-! ### Channel registers (R264, R265) -/

/-- The head token of a FULL register. -/
def Chan.head (c : Chan) : Option Tok := if c.full then some c.tok else none

/-- The register with another head token, or EMPTY: its token bits stay (DESIGN CHOICE, log 46). -/
def Chan.putHead (c : Chan) : Option Tok → Chan
  | some t => { c with full := true, tok := t }
  | none => { c with full := false }

def Chan.count (c : Chan) : Nat := bnat c.full + c.landing.length

/-- The register when its binding has ended (R265): its token bits stay. -/
def Chan.ended (c : Chan) : Chan := { tok := c.tok }

/-- The register after its head has been taken by CRECV or MGOS: the next landing token becomes the head, and a DONE ends the binding
of an input. -/
def Chan.advance (c : Chan) : Chan :=
  if !c.full then c
  else if c.st = .inb ∧ tkKind c.tok = kDONE then c.ended
  else match c.landing with
    | [] => c.putHead none
    | x :: xs => { c.putHead (some x) with landing := xs }

/-- The register after its head has left for the port; a DONE ends the binding of an output. -/
def Chan.depart (c : Chan) : Chan :=
  if !c.full then c
  else if tkKind c.tok = kDONE then c.ended
  else c.putHead none

/-- The register after a token from the port. -/
def Chan.arrive (c : Chan) (t : Tok) : Chan :=
  if c.full then { c with landing := c.landing ++ [t] } else c.putHead (some t)

/-- A register that INVOKE can bind. -/
def Chan.free (c : Chan) : Bool := c.st == .unbound && !c.full

/-- Word 3 [15:0] of a channel trap (R274). -/
def tokDetail (t : Tok) (n : Nat) : Nat := tkKind t * 256 + tkAux t * 16 + n

end Sys2Proof.Machine
end

