-- ==== Sys2Proof/Machine/Graph.lean ====
section
/-! DEFINITION. Dataflow blocks: the fields of headers and node words (R87 to R90), the operations (R279 to R289), the checks of
installation (R389), derived depths (R285), control routes (R388) and the CRC of a block (R92). -/
namespace Sys2Proof.Machine

/-! ### Fields of a node word (R89) -/

abbrev NodeWord := BitVec 128

def nwOp (w : NodeWord) : Nat := bits w.toNat 127 120
def nwFmtCode (w : NodeWord) : BitVec 4 := w.extractLsb' 116 4
def nwFmt (w : NodeWord) : Fmt := (decFmt (nwFmtCode w)).getD .sd
def nwRep (w : NodeWord) : Bool := bit w.toNat 114
def nwPlane (w : NodeWord) : Nat := bits w.toNat 113 112
def nwA (w : NodeWord) : Nat × Nat := (bits w.toNat 111 105, bits w.toNat 104 103)
def nwB (w : NodeWord) : Nat × Nat := (bits w.toNat 102 96, bits w.toNat 95 94)
def nwFlags (w : NodeWord) : Nat := bits w.toNat 93 88
def nwParam (w : NodeWord) : Nat := bits w.toNat 87 64
def nwConst (w : NodeWord) : W64 := w.setWidth 64

/-- The flags of R283. -/
def nwArgw (w : NodeWord) : Bool := bit w.toNat 93
def nwInit (w : NodeWord) : Bool := bit w.toNat 92
def nwSupp (w : NodeWord) : Bool := bit w.toNat 91
def nwCond (w : NodeWord) : Bool := bit w.toNat 90
def nwKop (w : NodeWord) : Bool := bit w.toNat 89
def nwOpf (w : NodeWord) : Bool := bit w.toNat 88

/-- The kinds of slot (R279). -/
inductive SlotKind where
  | edge | stream | memory | router
deriving DecidableEq, Repr

def slotKind (n : Nat) : SlotKind :=
  if 64 ≤ n then .router else if n % 8 = 0 then .edge else if n % 8 = 7 then .memory else .stream

/-- What R289 gives an operation: its slot, whether it may lie on the data plane and on the control plane, and its flags from ARGW
down. -/
structure OpRow where
  slot : SlotKind
  ctl : Bool := true
  data : Bool := false
  flags : Nat := 0
deriving DecidableEq, Repr

def isAlu (op : Nat) : Bool := decide (0x10 ≤ op ∧ op ≤ 0x1F)

/-- The table of R289. -/
def opRow (op : Nat) : Option OpRow :=
  if isAlu op then some { slot := .stream, data := true, flags := 0x3E }
  else match op with
    | 0x01 => some { slot := .stream, flags := 0x29 }
    | 0x02 => some { slot := .stream, flags := 0x29 }
    | 0x03 => some { slot := .stream, flags := 0x08 }
    | 0x04 => some { slot := .stream, flags := 0x08 }
    | 0x05 => some { slot := .stream, data := true, flags := 0x08 }
    | 0x06 => some { slot := .stream, data := true, flags := 0x09 }
    | 0x20 => some { slot := .stream, data := true, flags := 0x08 }
    | 0x21 => some { slot := .stream, flags := 0x08 }
    | 0x22 => some { slot := .stream, flags := 0x09 }
    | 0x23 => some { slot := .stream, data := true, flags := 0x08 }
    | 0x30 => some { slot := .router }
    | 0x31 => some { slot := .router }
    | 0x32 => some { slot := .router }
    | 0x33 => some { slot := .router }
    | 0x34 => some { slot := .router, data := true }
    | 0x35 => some { slot := .router }
    | 0x36 => some { slot := .router, flags := 0x10 }
    | 0x37 => some { slot := .router }
    | 0x38 => some { slot := .router, flags := 0x20 }
    | 0x39 => some { slot := .router, data := true }
    | 0x40 => some { slot := .memory, data := true, flags := 0x29 }
    | 0x41 => some { slot := .memory, data := true, flags := 0x20 }
    | 0x42 => some { slot := .memory, data := true, flags := 0x20 }
    | 0x50 => some { slot := .stream, ctl := false, data := true, flags := 0x08 }
    | 0x60 => some { slot := .edge }
    | 0x61 => some { slot := .edge }
    | _ => none

/-- Operations with two outputs (R282). -/
def twoOuts (op : Nat) : Bool := op == 0x03 || op == 0x04 || op == 0x30 || op == 0x35 || op == 0x36
/-- Operations without a consumer. -/
def noOuts (op : Nat) : Bool := op == 0x39 || op == 0x61
/-- Operations that use a condition. -/
def usesCond (op : Nat) : Bool := decide (0x30 ≤ op ∧ op ≤ 0x34)
/-- Memory nodes. -/
def isMemNode (op : Nat) : Bool := op == 0x40 || op == 0x41 || op == 0x42

/-- The ports that a node uses (R289), conditions included. -/
def usedPorts (w : NodeWord) : List Nat :=
  let op := nwOp w
  if isAlu op then
    if op = 0x1B ∨ op = 0x1C ∨ op = 0x1D then [0]
    else if op = 0x1F then (if nwKop w then [0, 1] else [0, 1, 2])
    else if nwKop w then [0] else [0, 1]
  else match op with
    | 0x03 => [0, 1]
    | 0x04 => [0, 1]
    | 0x05 => [0, 1]
    | 0x06 => if nwOpf w then [0, 1] else [0]
    | 0x30 => [0, 3]
    | 0x31 => [0, 1, 3]
    | 0x32 => [0, 1, 3]
    | 0x33 => [0, 3]
    | 0x34 => [0, 1, 3]
    | 0x35 => [0, 1, 2]
    | 0x36 => [0, 1]
    | 0x38 => []
    | 0x41 => [0, 1]
    | 0x42 => [0, 1]
    | 0x60 => []
    | _ => [0]

def isIntFmt (f : Fmt) : Bool := f == .int8 || f == .int16 || f == .int32
def isFpFmt (f : Fmt) : Bool := f == .fp32 || f == .fp16 || f == .bf16
def isNumFmt (f : Fmt) : Bool := isIntFmt f || isFpFmt f

/-- Whether a signed 8-bit E lies in the range of R61. -/
def eOk (p : Nat) : Bool := decide (-126 ≤ toSigned 8 p ∧ toSigned 8 p ≤ 125)

/-- Whether an operation accepts its format and parameters (R45, R61, R288, R289, R291, R294 to R296, R300, R304). Weight formats
appear in no node (R44). The element formats of SCAN and SCANL, which the specification does not name, are the integer and the
floating-point ones (DESIGN CHOICE, log 54); that of B2SD is SD or its source's format (DESIGN CHOICE, log 55). -/
def formatOk (w : NodeWord) : Bool :=
  let op := nwOp w
  let p := nwParam w
  match decFmt (nwFmtCode w) with
  | none => false
  | some f =>
    if f = .ps1 ∨ f = .ps2 then false
    else if isAlu op then
      isNumFmt f && (if op = 0x1E then decide (p < (if isFpFmt f then 4 else 6)) else p == 0) &&
        !(isFpFmt f && decide (0x16 ≤ op ∧ op ≤ 0x1A))
    else match op with
      | 0x01 => isNumFmt f && (!nwOpf w || p != 0)
      | 0x02 => isNumFmt f && (!nwOpf w || p != 0)
      | 0x06 =>
        decide (p < 4) &&
          (if p = 3 then !nwOpf w && nwPlane w == 0 else isNumFmt f)
      | 0x20 => isNumFmt f && (match decFmt (BitVec.ofNat 4 p) with
          | some g => decide (p < 16) && isNumFmt g && g != f
          | none => false)
      | 0x21 => f == .fp32 && decide (p < 256) && eOk p
      | 0x22 => (f == .sd || f == (if nwOpf w then .int32 else .fp32)) && decide (p < 4096) && eOk (p % 256) &&
          decide (1 ≤ p / 256 ∧ p / 256 ≤ 8)
      | 0x23 => isNumFmt f && p == 0
      | 0x37 => decide (p < 65536)
      | 0x40 => isNumFmt f && p == 0
      | 0x41 => isNumFmt f && p == 0
      | 0x42 => decide (p < 10) && (if p = 9 then isFpFmt f else isIntFmt f)
      | 0x50 => (f == .int8 || f == .bf16) && decide (p < 4)
      | 0x60 => decide (p ≤ 8)
      | 0x61 => decide (p ≤ 8)
      | _ => p == 0

/-! ### A block -/

/-- Node words by slot; a slot at or beyond N is unconfigured. -/
def nodeAt (ws : List NodeWord) (n : Nat) : NodeWord := ws.getD n 0

/-- The configured slots. -/
def slots (ws : List NodeWord) : List Nat := (List.range ws.length).filter (fun n => nwOp (nodeAt ws n) != 0)

/-- The consumers of output A (0) and B (1) of a slot: (slot, port). A node with one output sends it to both that it names. -/
def consumers (ws : List NodeWord) (n o : Nat) : List (Nat × Nat) :=
  let w := nodeAt ws n
  let op := nwOp w
  if op = 0 ∨ noOuts op then []
  else if twoOuts op then (if o = 0 then [nwA w] else [nwB w])
  else if o = 0 then (if nwA w = nwB w then [nwA w] else [nwA w, nwB w])
  else []

/-- All links and condition edges: producer, output, consumer, port. -/
def edges (ws : List NodeWord) : List (Nat × Nat × Nat × Nat) :=
  ((slots ws).map (fun n =>
    (consumers ws n 0).map (fun c => (n, 0, c.1, c.2)) ++ (consumers ws n 1).map (fun c => (n, 1, c.1, c.2)))).flatten

/-- The producer of an input. -/
def producer (ws : List NodeWord) (n p : Nat) : Option (Nat × Nat) :=
  ((edges ws).find? (fun e => e.2.2.1 == n && e.2.2.2 == p)).map (fun e => (e.1, e.2.1))

/-! ### CRC-32C (R92) -/

/-- One byte of the reflected CRC. -/
def crcByte (c : Nat) (b : Byte) : Nat :=
  (List.range 8).foldl (fun c _ => if c % 2 = 1 then (c / 2) ^^^ 0x82F63B78 else c / 2) (c ^^^ b.toNat)

def crc32c (l : List Byte) : Nat := (l.foldl crcByte 0xFFFFFFFF) ^^^ 0xFFFFFFFF

/-- The bytes of a 128-bit word. -/
def wordBytes (w : NodeWord) : List Byte := (List.range 16).map (fun i => w.extractLsb' (8 * i) 8)

/-! ### Checks of R389 -/

/-- 0x06: reserved fields. -/
def reservedBad (h : NodeWord) (ws : List NodeWord) : Bool :=
  bits h.toNat 39 32 != 0 || decide (128 < ws.length) || ws.any (fun w => if nwOp w = 0 then w != 0 else bit w.toNat 115)

/-- 0x07: operation, slot kind, flags, format and parameters. -/
def opBad (ws : List NodeWord) : Bool :=
  (slots ws).any (fun n =>
    let w := nodeAt ws n
    match opRow (nwOp w) with
    | none => true
    | some r => r.slot != slotKind n || (nwFlags w &&& (63 ^^^ r.flags)) != 0 || !formatOk w)

/-- 0x08: consumers. -/
def consumerBad (ws : List NodeWord) : Bool :=
  (slots ws).any (fun n =>
    let w := nodeAt ws n
    if noOuts (nwOp w) then nwA w != (0, 0) || nwB w != (0, 0)
    else nwOp (nodeAt ws (nwA w).1) == 0 || nwOp (nodeAt ws (nwB w).1) == 0)

/-- Whether an input lies on the data plane (R284). -/
def dataInput (w : NodeWord) (p : Nat) : Bool := nwPlane w == 1 && !(isMemNode (nwOp w) && p == 0) && nwOp w != 0x50

/-- Whether the plane of an edge fits (R284, R286). -/
def edgePlaneOk (ws : List NodeWord) (e : Nat × Nat × Nat × Nat) : Bool :=
  let w := nodeAt ws e.1
  let x := nodeAt ws e.2.2.1
  if e.2.2.2 = 3 then nwCond w
  else
    !nwCond w &&
      (if nwPlane w = 1 then dataInput x e.2.2.2 && (nwOp w != 0x50 || nwFmt x == .fp32)
       else !dataInput x e.2.2.2 || nwRep w)

/-- 0x09: producers, ports and planes. -/
def portsBad (ws : List NodeWord) : Bool :=
  (slots ws).any (fun n => match opRow (nwOp (nodeAt ws n)) with
    | some r => !((nwPlane (nodeAt ws n) == 0 && r.ctl) || (nwPlane (nodeAt ws n) == 1 && r.data))
    | none => true) ||
    (edges ws).any (fun e => !(usedPorts (nodeAt ws e.2.2.1)).contains e.2.2.2 || !edgePlaneOk ws e) ||
    (slots ws).any (fun n => (usedPorts (nodeAt ws n)).any (fun p =>
      ((edges ws).filter (fun e => e.2.2.1 == n && e.2.2.2 == p)).length != 1)) ||
    (slots ws).any (fun n => twoOuts (nwOp (nodeAt ws n)) && nwA (nodeAt ws n) == nwB (nodeAt ws n))

/-- Edges that count for cycles: those into port 1 of a CARRY, and those of nodes with INIT, hold an initial token (R39, R287). -/
def cycleEdges (ws : List NodeWord) : List (Nat × Nat) :=
  ((edges ws).filter (fun e => !(nwOp (nodeAt ws e.2.2.1) == 0x32 && e.2.2.2 == 1) && !nwInit (nodeAt ws e.1))).map (fun e => (e.1, e.2.2.1))

/-- Slots that can still lie on a cycle after `n` rounds of removing those that nothing enters. -/
def peel (es : List (Nat × Nat)) : Nat → List Nat → List Nat
  | 0, l => l
  | n + 1, l => peel es n (l.filter (fun x => es.any (fun e => e.2 == x && l.contains e.1)))

/-- 0x0B: a directed cycle without an initial token. -/
def cycleBad (ws : List NodeWord) : Bool := !(peel (cycleEdges ws) 128 (slots ws)).isEmpty

/-! ### Depths (R260, R285) -/

/-- Depths of outputs so far: 2 × slot + output. -/
abbrev Depths := Sparse (Option Nat)

/-- The depth of an input. -/
def inDepth (ws : List NodeWord) (d : Depths) (n p : Nat) : Option Nat :=
  match producer ws n p with
  | some (m, o) => sget none d (2 * m + o)
  | none => none

/-- The depth of an output by the rule of its operation. -/
def outDepth (ws : List NodeWord) (d : Depths) (n o : Nat) : Option Nat :=
  let w := nodeAt ws n
  let i := inDepth ws d n
  let op := nwOp w
  if isAlu op then (if nwInit w then some 0 else (i 0).orElse (fun _ => if (usedPorts w).contains 1 then i 1 else none))
  else match op with
    | 0x01 => (i 0).map (· + 1)
    | 0x02 => (i 0).map (· + 1)
    | 0x03 => (i 0).orElse (fun _ => i 1)
    | 0x04 => (i 0).orElse (fun _ => i 1)
    | 0x05 => (i 1).orElse (fun _ => (i 0).map (· + 1))
    | 0x06 => (match i 0 with
      | some (k + 1) => some k
      | some 0 => none
      | none => if nwOpf w then i 1 else none)
    | 0x31 => (i 0).orElse (fun _ => i 1)
    | 0x32 => (i 0).orElse (fun _ => i 1)
    | 0x34 => (i 0).orElse (fun _ => i 1)
    | 0x35 => if o = 0 then (i 1).orElse (fun _ => i 2) else some 0
    | 0x36 => if o = 0 then i 0 else some 0
    | 0x38 => some 0
    | 0x41 => (i 0).orElse (fun _ => i 1)
    | 0x42 => (i 0).orElse (fun _ => i 1)
    | 0x50 => some 2
    | 0x60 => some (nwParam w)
    | _ => i 0

/-- One round of derivation. -/
def depthRound (ws : List NodeWord) (d : Depths) : Depths :=
  (slots ws).foldl (fun d n => sset none (sset none d (2 * n) (outDepth ws d n 0)) (2 * n + 1)
    (if twoOuts (nwOp (nodeAt ws n)) then (if nwOp (nodeAt ws n) = 0x35 ∨ nwOp (nodeAt ws n) = 0x36 then outDepth ws d n 1 else outDepth ws d n 0)
     else none)) d

def depthRounds (ws : List NodeWord) : Nat → Depths → Depths
  | 0, d => d
  | n + 1, d => depthRounds ws n (depthRound ws d)

/-- The depths of a block. -/
def blockDepths (ws : List NodeWord) : Depths := depthRounds ws ((slots ws).length + 1) []

/-- Whether the inputs of a slot fit its operation. -/
def depthsFit (ws : List NodeWord) (d : Depths) (n : Nat) : Bool :=
  let w := nodeAt ws n
  let i := inDepth ws d n
  let op := nwOp w
  let links := (usedPorts w).filter (fun p => p != 3)
  let same := links.all (fun p => i p == i 0)
  links.all (fun p => match i p with
    | some k => decide (k ≤ 8)
    | none => false) &&
    ((consumers ws n 0).isEmpty || (match outDepth ws d n 0 with
      | some k => decide (k ≤ 8)
      | none => false)) &&
    (if isAlu op then same && (!nwInit w || i 0 == some 0)
     else match op with
      | 0x01 => (match i 0 with
        | some k => decide (k ≤ 7)
        | none => false)
      | 0x02 => (match i 0 with
        | some k => decide (k ≤ 7)
        | none => false)
      | 0x03 => same && i 0 != some 0
      | 0x04 => same && i 0 != some 0
      | 0x05 => i 1 == (i 0).map (· + 1)
      | 0x06 => i 0 != some 0 && (!nwOpf w || (i 1).map (· + 1) == i 0)
      | 0x35 => i 0 == some 0 && i 1 == i 2
      | 0x36 => i 1 == some 0
      | 0x50 => i 0 == some 2
      | 0x61 => i 0 == some (nwParam w)
      | _ => same)

/-- 0x0A: link depths. -/
def depthBad (ws : List NodeWord) : Bool := (slots ws).any (fun n => !depthsFit ws (blockDepths ws) n)

/-! ### Permit sections (R299) -/

/-- Slots reached from a list along links in at most `n` steps. -/
def reach (ws : List NodeWord) : Nat → List Nat → List Nat
  | 0, l => l
  | n + 1, l => reach ws n (l ++ (((edges ws).filter (fun e => l.contains e.1 && !l.contains e.2.2.1)).map (fun e => e.2.2.1)).eraseDups)

/-- 0x0C: the wiring of permit sections. -/
def permitBad (ws : List NodeWord) : Bool :=
  (slots ws).any (fun n =>
    let w := nodeAt ws n
    if nwOp w = 0x36 then
      let q := (nwB w).1
      !(nwInit w && nwOp (nodeAt ws q) == 0x35 && (nwB w).2 == 0 && nwB (nodeAt ws q) == (n, 1) &&
        (nwA (nodeAt ws q) == (n, 0) || (match producer ws n 0 with
          | some (m, _) => (reach ws 128 [(nwA (nodeAt ws q)).1]).contains m
          | none => false)))
    else if nwOp w = 0x35 then
      let q := (nwB w).1
      !(nwOp (nodeAt ws q) == 0x36 && (nwB w).2 == 1 && nwB (nodeAt ws q) == (n, 0))
    else false)

/-! ### Arguments, tiles and routes -/

/-- Slots with ARGW, in slot order: the argument slots (R283). -/
def argSlots (ws : List NodeWord) : List Nat := (slots ws).filter (fun n => nwArgw (nodeAt ws n))

/-- The memory tile mask of the nodes (R281). -/
def tileMask (ws : List NodeWord) : Nat :=
  ((slots ws).filter (fun n => isMemNode (nwOp (nodeAt ws n)))).foldl (fun m n => m ||| 2 ^ (n / 8)) 0

/-- Grid column and row of a slot (R90). -/
def gridX (n : Nat) : Nat := n % 64 % 8
def gridY (n : Nat) : Nat := n % 64 / 8
def absDiff (a b : Nat) : Nat := (a - b) + (b - a)

/-- Routers between two sites (R261, R388). -/
def between (a b : Nat) : Nat := absDiff (gridX a) (gridX b) + absDiff (gridY a) (gridY b) - 1

/-- The next position of a route toward `b`: along x, then along y. -/
def routeStep (b p : Nat) : Nat :=
  if gridX p < gridX b then p + 1
  else if gridX b < gridX p then p - 1
  else if gridY p < gridY b then p + 8
  else p - 8

/-- The routers of a route from `p` to `b`, both included, as site numbers. -/
def routeFrom (b : Nat) : Nat → Nat → List Nat
  | 0, p => [p]
  | n + 1, p => if p = b then [p] else p :: routeFrom b n (routeStep b p)

/-- The condition routes: source slot, destination slot, and routers. -/
def routes (ws : List NodeWord) : List (Nat × Nat × List Nat) :=
  ((edges ws).filter (fun e => e.2.2.2 == 3)).map (fun e => (e.1, e.2.2.1, routeFrom (e.2.2.1 % 64) 14 (e.1 % 64)))

/-- 0x0F: more than eight routes in a router. -/
def routesBad (ws : List NodeWord) : Bool :=
  (List.range 64).any (fun r => decide (8 < ((routes ws).filter (fun x => x.2.2.contains r)).length))

/-- The entries of router `r`'s table (R388), in the order of the routes. -/
def routeEntries (ws : List NodeWord) (r : Nat) : List W64 :=
  ((routes ws).filter (fun x => x.2.2.contains r)).map (fun x =>
    let last := x.2.1 % 64 == r
    BitVec.ofNat 64 (2 ^ 63 + bnat last * 2 ^ 23 + (if last then 0 else (64 + routeStep (x.2.1 % 64) r) * 2 ^ 16) + x.1 * 2 ^ 8 + x.2.1))

/-- The checks from 0x05 on of a block, with the tiles that other banks hold: the first cause, or 0. -/
def blockCause (h : NodeWord) (ws : List NodeWord) (held : Nat) : Nat :=
  if crc32c ((ws.map wordBytes).flatten) ≠ bits h.toNat 31 0 then 0x05
  else if reservedBad h ws then 0x06
  else if opBad ws then 0x07
  else if consumerBad ws then 0x08
  else if portsBad ws then 0x09
  else if cycleBad ws then 0x0B
  else if depthBad ws then 0x0A
  else if permitBad ws then 0x0C
  else if ws.length < bits h.toNat 63 48 ∨ (argSlots ws).length ≠ bits h.toNat 63 48 then 0x0D
  else if tileMask ws ≠ bits h.toNat 47 40 ∨ (tileMask ws &&& held) ≠ 0 then 0x0E
  else if routesBad ws then 0x0F
  else 0

/-- The depths of the inputs of a block: 4 × slot + port. -/
def inputDepths (ws : List NodeWord) : Sparse Nat :=
  let d := blockDepths ws
  (slots ws).foldl (fun m n => (usedPorts (nodeAt ws n)).foldl (fun m p =>
    match inDepth ws d n p with
    | some k => sset 0 m (4 * n + p) k
    | none => m) m) []

end Sys2Proof.Machine
end

