-- ==== Sys2Proof/Machine/Streams.lean ====
section
/-! DEFINITION. Channel instructions (R270 to R274), INVOKE (R275, R276), tokens between channel registers and edge ports (R265 to R267)
and the messages between a column and an island (R268, R499). -/
namespace Sys2Proof.Machine

/-! ### Distances (R20, R21, R266) -/

/-- Hops between the station of a column and that of an island. -/
def hopsColIsl (c k : Nat) : Nat := absDiff (c / 2) k + 1

/-- The delay of traffic class 1 between a column and an island. -/
def classOne (c k : Nat) : Nat := 4 + 3 * (hopsColIsl c k - 1)

/-! ### Nodes of an island -/

def Isl.node (i : Isl) (n : Nat) : Node := sget {} i.nodes n
def Isl.putNode (i : Isl) (n : Nat) (x : Node) : Isl := { i with nodes := sset {} i.nodes n x }
def State.modNode (s : State) (k n : Nat) (f : Node → Node) : State := s.modIsl k (fun i => i.putNode n (f (i.node n)))
def Isl.bank (i : Isl) (b : Nat) : Bank := i.banks.getD b {}
def Isl.putBank (i : Isl) (b : Nat) (x : Bank) : Isl := { i with banks := i.banks.setIfInBounds b x }

/-- The bank that holds a graph, among those in the given states. -/
def Isl.bankOf (i : Isl) (graph : Nat) (l : List BankSt) : Option Nat :=
  (List.range 4).find? (fun b => (i.bank b).graph == graph && l.contains (i.bank b).st)

/-! ### Far slots (R266) -/

/-- Whether one more of `n` slots on the far side is free, as this side sees it. -/
def Node.roomFor (x : Node) (n now : Nat) : Bool := decide ((x.inUse - (x.returns.filter (fun r => decide (r ≤ now))).length) < n)

/-- A slot on the far side is taken. -/
def Node.takeSlot (x : Node) (now : Nat) : Node :=
  { x with
    inUse := x.inUse - (x.returns.filter (fun r => decide (r ≤ now))).length + 1
    returns := x.returns.filter (fun r => decide (now < r)) }

/-- A slot freed now is seen on the other side in cycle `due`. -/
def Node.returnSlot (x : Node) (due : Nat) : Node := { x with returns := x.returns ++ [due] }

/-! ### Channel instructions (R271 to R274) -/

def chanTrap (sub detail : Nat) (w2 : W64) : TrapInfo := { cause := 0x0C, sub := sub, detail := detail, w2 := w2 }

/-- The payload of a token that CSEND makes. -/
def sendPayload (k : TokKind) (v : W64) : Nat :=
  match k with
  | .empty => 0 | .stop => 0 | .done => 0
  | .value => v.toNat | .coord => v.toNat | .pair => v.toNat | .ref => v.toNat | .fold => v.toNat | .sdv => v.toNat | .permit => v.toNat

def execCsend (c : PReg) (k : TokKind) (aux : BitVec 4) (d : Reg) (s : State) : Out :=
  let t := s.me
  let tok := mkTok (kindCode k) aux.toNat (sendPayload k (s.rd d))
  let ch := (s.thr t).chan c
  .next (if ch.st = .inb then s.trapMe (chanTrap 0x10 (tokDetail tok c.toNat) 0)
    else if ch.full then
      (if ch.st = .unbound then s.trapMe (chanTrap 0x11 (tokDetail tok c.toNat) 0) else s.parkMe .chan (.chan c.toNat))
    else match (if ch.st = .outb then gramError ch.depth ch.gram tok else none) with
      | some n => s.trapMe (chanTrap n (tokDetail tok c.toNat) (BitVec.ofNat 64 (tkPay tok)))
      | none =>
        (s.modThr t (fun x => x.putChan c { ch.putHead (some tok) with
          gram := if ch.st = .outb then gramNext ch.gram tok else ch.gram
          since := s.sched.seq })).finish)

/-- Whether an island runs the invocation that a register is bound to. -/
def State.runsBound (s : State) (c : Chan) : Bool :=
  match (s.isl c.isl).run with
  | some r => r.id == c.inv
  | none => false

/-- The PORTOUT of a register sees the slot that a token has left after the delay of class 1. -/
def State.returnChan (s : State) (t : Nat) (ch : Chan) : State :=
  if ch.st = .inb ∧ s.runsBound ch then s.modNode ch.isl (8 * ch.port) (fun x => x.returnSlot (s.sched.cycle + classOne (colOf t) ch.isl)) else s

def execCrecv (d e : Reg) (c : PReg) (s : State) : Out :=
  let t := s.me
  let ch := (s.thr t).chan c
  .next (if ch.st = .outb then s.trapMe (chanTrap 0x10 c.toNat 0)
    else match ch.head with
      | none => if ch.st = .unbound then s.trapMe (chanTrap 0x11 c.toNat 0) else s.parkMe .chan (.chan c.toNat)
      | some tok =>
        let s := (s.returnChan t ch).modThr t (fun x => x.putChan c ch.advance)
        ((s.wr d (BitVec.ofNat 64 (tkPay tok))).wr e (BitVec.ofNat 64 (tkKind tok * 16 + tkAux tok))).finish)

/-- The word of CPOLL. -/
def Chan.poll (c : Chan) : Nat :=
  let b := c.st != .unbound
  (if b then c.port * 2 ^ 24 + c.isl * 2 ^ 20 + c.depth * 2 ^ 16 else 0) +
    (match c.head with
     | some t => tkAux t * 2 ^ 12 + tkKind t * 2 ^ 8
     | none => 0) +
    bnat c.active * 2 ^ 7 +
    (match c.st with
     | .unbound => 0
     | .outb => 1
     | .inb => 2) * 2 ^ 5 + c.count * 2 + bnat c.full

def execCpoll (d : Reg) (c : PReg) (s : State) : Out :=
  .next (s.wr d (BitVec.ofNat 64 ((s.thr s.me).chan c).poll)).finish

/-! ### INVOKE (R276) -/

/-- The operands s[d+1] to s[d+k]. -/
def State.operands (s : State) (d : Reg) (k : Nat) : List W64 := (List.range k).map (fun j => s.rd (regPlus d (j + 1)))

def islTrap (sub : Nat) : TrapInfo := { cause := 0x16, sub := sub }

def execInvoke (d : Reg) (k : BitVec 3) (b : PReg) (m : BitVec 4) (s : State) : Out :=
  let t := s.me
  let v := (s.rd d).toNat
  let e := bits v 38 36
  let isl := bits v 35 32
  .next (if bits v 63 39 ≠ 0 ∨ 9 < isl ∨ bits v 31 0 = 0 ∨ 8 < e + m.toNat then s.trapMe (islTrap 1)
    else match (List.range m.toNat).find? (fun j => !((s.thr t).chan (b + BitVec.ofNat 3 j)).free) with
      | some j => s.trapMe (chanTrap 0x12 ((b + BitVec.ofNat 3 j).toNat) 0)
      | none =>
        if (s.outstanding t).length ≠ 0 then s.parkMe .mem .drain
        else
          (s.after (classOne (colOf t) isl) (.invokeRequest isl
            { thr := t, graph := bits v 31 0, ops := s.operands d k.toNat, port := e, ch := b.toNat, n := m.toNat })).parkMe .mem .reply)

/-! ### At the island (R276, R348) -/

/-- The edge ports of a block that hold a PORTIN or PORTOUT: the port, whether it is a PORTIN, and its depth. -/
def blockPorts (ws : List NodeWord) : List (Nat × Bool × Nat) :=
  (List.range 8).filterMap (fun e =>
    let w := nodeAt ws (8 * e)
    if nwOp w = 0x60 then some (e, true, nwParam w) else if nwOp w = 0x61 then some (e, false, nwParam w) else none)

/-- The refusal of an INVOKE, or the bank of its graph. -/
def Isl.judge (i : Isl) (r : InvReq) : Except Nat Nat :=
  match i.bankOf r.graph [.installed, .active] with
  | none => .error 2
  | some b =>
    let ports := blockPorts (i.bank b).nodes
    if (i.bank b).nslots < r.ops.length then .error 3
    else if ports.any (fun p => decide (p.1 < r.port ∨ r.port + r.n ≤ p.1)) ||
      (List.range r.n).any (fun j => !ports.any (fun p => p.1 == r.port + j)) then .error 4
    else .ok b

/-- What the answer to an accepted INVOKE binds. -/
def Isl.bindings (i : Isl) (b : Nat) (r : InvReq) : List (PReg × Bool × Nat × Nat) :=
  (blockPorts (i.bank b).nodes).filterMap (fun p =>
    if r.port ≤ p.1 ∧ p.1 < r.port + r.n then some (BitVec.ofNat 3 (r.ch + (p.1 - r.port)), p.2.1, p.1, p.2.2) else none)

/-- An answer that leaves the island in the next cycle (R499). -/
def State.answerInvoke (s : State) (k t : Nat) (r : Reply) : State := s.after (1 + classOne (colOf t) k) (.invokeAnswer t r)

/-- An accepted request takes the tail entry of the queue, and is answered with what it binds. -/
def State.enqueueInv (s : State) (k : Nat) (r : InvReq) (l : List (PReg × Bool × Nat × Nat)) : State :=
  let id := s.fresh.1
  let inv : Inv := { id := id, thr := r.thr, graph := r.graph, ops := r.ops, port := r.port, ch := r.ch, n := r.n }
  ((s.fresh.2).modIsl k (fun i => { i with queue := i.queue ++ [inv] })).answerInvoke k r.thr (.bind k id l)

/-- An INVOKE reaches its island: it is refused, or takes a queue entry, or waits for one (R276, R348, R499). -/
def execInvokeRequest (k : Nat) (r : InvReq) (s : State) : Out :=
  .next (match (s.isl k).judge r with
    | .error n => s.answerInvoke k r.thr (.trap (islTrap n))
    | .ok b =>
      if (s.isl k).queue.length < 16 ∧ (s.isl k).waiting.isEmpty then s.enqueueInv k r ((s.isl k).bindings b r)
      else s.modIsl k (fun i => { i with waiting := i.waiting ++ [(r, (s.isl k).bindings b r)] }))

/-- Requests that wait take entries, in their order, while one is free. -/
def State.admitFrom (s : State) (k : Nat) : List (InvReq × List (PReg × Bool × Nat × Nat)) → State
  | [] => s
  | w :: ws =>
    if (s.isl k).queue.length < 16 then ((s.modIsl k (fun i => { i with waiting := ws })).enqueueInv k w.1 w.2).admitFrom k ws else s

/-- Requests that wait take entries that have become free. -/
def State.admitInvs (s : State) (k : Nat) : State := s.admitFrom k (s.isl k).waiting

/-- A register bound by an accepted INVOKE. -/
def bindChan (k inv : Nat) (x : Thread) (b : PReg × Bool × Nat × Nat) : Thread :=
  x.putChan b.1 { (x.chan b.1).ended with st := if b.2.1 then .outb else .inb, isl := k, port := b.2.2.1, depth := b.2.2.2, inv := inv }

/-- The answer completes INVOKE with its bindings, or traps it; a status completes an instruction of major 0x31 (R276, R397, R499). -/
def execInvokeAnswer (t : Nat) (r : Reply) (s : State) : Out :=
  .next (if (s.thr t).wait = .reply then
    match r with
    | .bind k inv l => s.completeParked t (fun x => l.foldl (bindChan k inv) x)
    | .done sr vr => s.completeParked t (fun x => applyWrites x sr vr)
    | .trap i => s.trap t i
  else s)

/-! ### The channel registers of an invocation -/

/-- Every channel register of a thread that is bound to an invocation changed by `f`. -/
def Thread.mapBound (x : Thread) (k inv : Nat) (f : Chan → Chan) : Thread :=
  { x with chans := x.chans.map (fun c => if c.st != .unbound && c.isl == k && c.inv == inv then f c else c) }

/-- Whether a thread has a channel register bound to an invocation. -/
def Thread.bound (x : Thread) (k inv : Nat) : Bool := x.chans.toList.any (fun c => c.st != .unbound && c.isl == k && c.inv == inv)

/-- The island that an invocation's notices come from: the one to which the thread's registers are bound. -/
def Thread.islandOf (x : Thread) (inv : Nat) : Option Nat := (x.chans.toList.find? (fun c => c.st != .unbound && c.inv == inv)).map (·.isl)

/-- The start of an invocation reaches the invoker's column: ACTIVE is set in its registers (R276). A start that reaches the column in the
cycle before the answer that binds the registers takes effect with the binding (R499). -/
def execActiveNotice (t inv : Nat) (s : State) : Out :=
  .next (match (s.thr t).islandOf inv with
    | some k => s.modThr t (fun x => x.mapBound k inv (fun c => { c with active := true }))
    | none => if (s.thr t).wait = .reply then s.after 1 (.activeNotice t inv) else s)

/-- Whether the head of an OUT register may leave now (R266, R267): toward the port of its own invocation. -/
def State.mayDepart (s : State) (t : Nat) (c : Chan) : Bool :=
  c.st == .outb && c.full && c.active && s.runsBound c && ((s.isl c.isl).node (8 * c.port)).roomFor 4 s.sched.cycle &&
    !(s.flights.any (fun a => a.agent == .thread t && a.op.isStore && decide (a.seq < c.since)))

/-- The head of an OUT register leaves for its port; a DONE unbinds the register. -/
def execChannelTokenDepart (t c : Nat) (s : State) : Out :=
  let p := BitVec.ofNat 3 c
  let ch := (s.thr t).chan p
  .next (match ch.head with
    | some tok =>
      if s.mayDepart t ch then
        let d := classOne (colOf t) ch.isl
        ((s.modNode ch.isl (8 * ch.port) (fun x =>
          { x.takeSlot s.sched.cycle with mesh := x.mesh ++ [(tok, s.sched.cycle + d)] })).modThr t (fun x => x.putChan p ch.depart)).modCol
          (colOf t) (fun x => { x with moved := s.sched.cycle + 1 })
      else s
    | none => s)

/-- A token reaches an IN register of its invocation (R265). -/
def execChannelTokenArrive (t c : Nat) (inv : Nat) (tok : Tok) (s : State) : Out :=
  let p := BitVec.ofNat 3 c
  let ch := (s.thr t).chan p
  .next (if ch.st = .inb ∧ ch.inv = inv then
      (s.modThr t (fun x => x.putChan p (ch.arrive tok))).modCol (colOf t) (fun x => { x with moved := s.sched.cycle + 1 })
    else s)

/-- An invocation has ended by a node fault, or been refused at the queue head: its registers become UNBOUND and EMPTY, and the invoker
traps, in place of an instruction parked on one of them, or at its next issue (R268, R395). -/
def execIslandFaultTrap (t inv : Nat) (i : TrapInfo) (s : State) : Out :=
  let x := s.thr t
  let k := bits i.w2.toNat 35 32
  let parkedOn : Bool := match x.wait with
    | .chan c => (let ch := x.chan (BitVec.ofNat 3 c); ch.st != .unbound && ch.isl == k && ch.inv == inv)
    | _ => false
  let s1 := s.modThr t (fun x => x.mapBound k inv Chan.ended)
  .next (if x.st = .empty then s1
    else if parkedOn then s1.trap t i
    else s1.modThr t (fun x => { x with asyncTraps := x.asyncTraps ++ [i] }))

end Sys2Proof.Machine
end

