-- ==== Sys2Proof/Machine/ArrayNum.lean ====
section
/-! DEFINITION. Arithmetic of the column array (R50, R66 to R68) and the conversion of MOUT (R65). -/
namespace Sys2Proof.Machine

/-- The value of a pattern with subnormals taken as zeros (R50). -/
def fdecFlush (f : FpFmt) (x : Nat) : FVal :=
  match fdec f x with
  | .fin neg m e => if m < 2 ^ f.fb then .fin neg 0 e else .fin neg m e
  | .nan s => .nan s
  | .inf b => .inf b

/-- A result with a subnormal replaced by a zero of its sign (R50). -/
def flushResult (f : FpFmt) (x : Nat) : Nat :=
  if bits x (f.eb + f.fb - 1) f.fb = 0 then f.zero (bit x (f.eb + f.fb)) else x

/-- An addition in the array (R67 steps 5 and 6). -/
def arrAdd (x y : Nat) : Nat := flushResult fp32 (vadd2 fp32 0 (fdecFlush fp32 x) (fdecFlush fp32 y)).1

/-- An exact signed integer as a value. -/
def intVal (x : Int) (e : Int) : FVal := .fin (x < 0) x.natAbs e

/-- The value of a weight code (R56, R57, R160). -/
def weightVal (f : WFmt) (x : Nat) : FVal :=
  match f with
  | .ps1 => intVal (ps1Val x) (-6)
  | .ps2 => intVal (ps2Val x) (-6)
  | .int8 => intVal (toSigned 8 x) 0
  | .bf16 => fdecFlush bf16 x

/-- The value of an activation. -/
def actVal (f : AFmt) (x : Nat) : FVal :=
  match f with
  | .int8 => intVal (toSigned 8 x) 0
  | .bf16 => fdecFlush bf16 x

/-- What the products of a quarter come to: a sum, an infinity, or not a number (R68). -/
inductive QSum where
  | nan
  | inf (neg : Bool)
  /-- exact sum of finite products, in units of 2^e -/
  | fin (x : Int) (e : Int)
deriving DecidableEq, Repr

/-- One more product. -/
def QSum.add (q : QSum) (p : Option FVal) : QSum :=
  match q, p with
  | .nan, _ => .nan
  | _, none => .nan
  | _, some (.nan _) => .nan
  | .inf a, some (.inf b) => if a = b then .inf a else .nan
  | .inf a, some (.fin _ _ _) => .inf a
  | .fin _ _, some (.inf b) => .inf b
  | .fin x e, some (.fin neg m e') =>
    if m = 0 then .fin x e
    else if x = 0 then .fin (if neg then -(m : Int) else m) e'
    else
      let e0 := min e e'
      .fin (x * 2 ^ (e - e0).toNat + alignTo neg m e' e0) e0

/-- The exact sum of the products of a quarter (R67 steps 1 and 2). -/
def quarterSum (l : List (FVal × FVal)) : QSum := l.foldl (fun q p => q.add (vmulExact p.1 p.2)) (.fin 0 0)

/-- The result of a quarter: scaled, rounded once and flushed; an exact zero is +0 (R67 steps 3 and 4, R68). -/
def quarterVal (q : QSum) (scale : Option FVal) : Nat :=
  match q, scale with
  | .nan, _ => fp32.nan
  | .inf a, none => fp32.inf a
  | .inf a, some (.inf b) => fp32.inf (a != b)
  | .inf a, some (.fin n m _) => if m = 0 then fp32.nan else fp32.inf (a != n)
  | _, some (.nan _) => fp32.nan
  | .fin x _, some (.inf b) => if x = 0 then fp32.nan else fp32.inf (decide (x < 0) != b)
  | .fin x e, none => if x = 0 then 0 else flushResult fp32 (fround fp32 0 (x < 0) x.natAbs e false).1
  | .fin x e, some (.fin n m e') =>
    if x = 0 ∨ m = 0 then 0
    else flushResult fp32 (fround fp32 0 (decide (x < 0) != n) (x.natAbs * m) (e + e') false).1

/-- The four quarters added in order (R67 step 5). -/
def sumQuarters (a b c d : Nat) : Nat := arrAdd (arrAdd (arrAdd a b) c) d

/-- MOUT of one element: RNE, saturation, and subnormal FP16 and BF16 results as signed zeros (R65, R163). -/
def moutVal (f : Fmt) (x : Nat) : Nat :=
  match f with
  | .fp32 => x
  | .fp16 => flushResult fp16 (cvtBits .fp16 .fp32 0 x).1
  | .bf16 => flushResult bf16 (cvtBits .bf16 .fp32 0 x).1
  | .int8 => (cvtBits .int8 .fp32 0 x).1
  | .int16 => (cvtBits .int16 .fp32 0 x).1
  | .int32 => (cvtBits .int32 .fp32 0 x).1
  | .ps2 => 0 | .ps1 => 0 | .sd => 0

end Sys2Proof.Machine
end

