-- ==== Sys2Proof/Machine/Tiles.lean ====
section
/-! DEFINITION. Tiles (R140 to R143), tile holds (R148), tile moves (R156 to R158), MOUT (R163) and MMASK (R165). -/
namespace Sys2Proof.Machine

/-! ### Shapes (R141, R142) -/

/-- Bytes of an element; 0 for PS1, whose elements are half a byte. -/
def elemBytes : Fmt → Nat
  | .int8 => 1 | .int16 => 2 | .int32 => 4 | .fp32 => 4 | .fp16 => 2 | .bf16 => 2 | .ps2 => 1 | .ps1 => 0 | .sd => 0

/-- A tile's format, rows and row bytes. -/
structure Shape where
  fmt : Fmt
  rows : Nat
  rb : Nat
deriving DecidableEq, Repr

/-- The shape that a TSHAPE value gives; a reserved code is never stored (R45), and would be SD. -/
def shapeOf (v : BitVec 32) : Shape :=
  { fmt := (decFmt (v.extractLsb' 28 4)).getD .sd, rows := bits v.toNat 26 20 + 1, rb := bits v.toNat 13 0 + 1 }

def State.shape (s : State) (c t : Nat) : Shape := shapeOf ((s.col c).tshape.getD t 0)

/-- The checks of R142. -/
def Shape.ok (h : Shape) : Bool :=
  decide (h.rows * h.rb ≤ 16384) && h.fmt != .sd && (elemBytes h.fmt == 0 || h.rb % elemBytes h.fmt == 0)

def tileShape : TrapInfo := cause 0x0A

/-! ### Holds (R148) -/

/-- The tiles that a gang member reads, by its operation. -/
def memberTiles : Instr → List Nat
  | .mwld f _ _ sc _ => if f = .ps1 ∨ f = .ps2 then [sc.toNat] else []
  | .mwlt f _ t sc _ => if f = .ps1 ∨ f = .ps2 then [t.toNat, sc.toNat] else [t.toNat]
  | .mgo _ _ t _ _ _ _ _ => [t.toNat]
  | _ => []

def Gang.isLoad (g : Gang) : Bool :=
  match g.members with
  | m :: _ => (match m.instr with
    | .mwld _ _ _ _ _ => true
    | .mwlt _ _ _ _ _ => true
    | _ => false)
  | [] => false

/-- Whether an operation has started and has not completed. -/
def Gang.active (g : Gang) : Bool := g.st != .formed

/-- Whether a gang holds a tile for reading in this cycle: a load until its completion, an MGO until the cycle after its last row. -/
def State.gangReads (s : State) (c : Nat) (g : Gang) (t : Nat) : Bool :=
  g.active && g.members.any (fun m => (memberTiles m.instr).contains t) &&
    (g.isLoad || g.busyTo == 0 || decide ((s.col c).cyc < g.busyTo + 1 + (if s.sched.pos < 80 then 1 else 0)))

/-- A tile under a read hold. -/
def State.readHeld (s : State) (c t : Nat) : Bool :=
  (s.col c).gangs.any (fun g => s.gangReads c g t) ||
    s.flights.any (fun a => a.tile == some t && s.source a.agent == c)

/-- A tile under a write hold: of a TLD from its issue to its completion. -/
def State.writeHeld (s : State) (c t : Nat) : Bool :=
  s.flights.any (fun a => s.source a.agent == c && (match a.op with
    | .gather _ _ (.tile t') => t == t'
    | _ => false))

/-- The issuing thread parks (TILE) while a tile that its instruction writes is held, or one that it reads is held for writing. -/
def State.tileFree (s : State) (t : Nat) (writes : Bool) (go : State → State) : State :=
  let c := s.cur.col
  if s.writeHeld c t || (writes && s.readHeld c t) then s.parkMe .tile (.tile t writes) else go s

/-! ### Error marks of tile words (R243) -/

/-- The words of a tile that `n` bytes from byte `o` on meet. -/
def tileWords (t o n : Nat) : List Nat := (List.range ((o + n + 7) / 8 - o / 8)).map (fun i => 2048 * t + o / 8 + i)

/-- A bad word among those of an item: whether it is poisoned (R167: POISON first). -/
def badItem (m : Sparse Mark) (ws : List Nat) : Option Bool :=
  if ws.any (fun w => sget Mark.clean m w == .poison) then some true
  else if ws.any (fun w => sget Mark.clean m w == .uncorrectable) then some false
  else none

/-- A bad word among `n` bytes of a tile from byte `o` on, as the tile stood at the start of the cycle (R143). -/
def State.tileBad (s : State) (c t o n : Nat) : Option Bool := badItem (s.before.col c).tileMarks (tileWords t o n)

/-- Marks met by a read of a tile (R241). -/
def State.noteTile (s : State) (c t o n : Nat) (a : Agent) : State :=
  let r := s.noteItem c 0 (s.col c).tileMarks a (tileWords t o n)
  r.1.modCol c (fun x => { x with tileMarks := r.2 })

/-- The trap of a bad word that has no virtual address (R157, R167: POISON before MEM_UNCORRECTABLE). -/
def noVaTrap (poison : Bool) : TrapInfo := cause (if poison then 0x09 else 0x08)

/-- The issuing thread reads bytes of a tile, or traps on a bad word (R157, R158). -/
def State.tileRead (s : State) (c t o n : Nat) (go : State → State) : State :=
  let s1 := s.noteTile c t o n (.thread s.me)
  match s.tileBad c t o n with
  | some p => s1.trapMe (noVaTrap p)
  | none => go s1

/-! ### Moves between memory and tiles -/

/-- Bytes of an aligned block that one packet or port cycle moves: 128 of this package's stacked memory (R16), 64 elsewhere. -/
def State.blockBytes (s : State) (g : Nat) : Nat := if gaSpace g = 0 ∧ s.isFar g = false then 128 else 64

/-- A run of bytes cut at its blocks: from place `o` on, with `n` bytes left. In the core window (`win`) it wraps (R190). -/
def State.cutPieces (s : State) (win : Bool) (ga va place : Nat) : Nat → Nat → Nat → List Piece
  | 0, _, _ => []
  | k + 1, o, n =>
    if n = 0 then []
    else
      let g := onGa win ga o
      let m := min n (s.blockBytes g - g % s.blockBytes g)
      { ga := g, va := va + o, off := place + o, n := m } :: s.cutPieces win ga va place k (o + m) (n - m)

/-- The parts of a run of `n` bytes at place `place` of a move. -/
def State.pieces (s : State) (win : Bool) (ga va place n : Nat) : List Piece := s.cutPieces win ga va place (n / 64 + 2) 0 n

/-- The translations of the rows of a move: the pieces and the entries that gave them, or the first translation that does not succeed. -/
def State.rowPieces (s : State) (rb : Nat) (k : BitVec 5) : List (Nat × Nat) → List Piece × List Via →
    Except (Nat × Trans) (List Piece × List Via)
  | [], acc => .ok acc
  | (va, off) :: rest, acc =>
    match s.translate s.me va rb k with
    | .ok g via =>
      match s.mapExtent g rb .bulk va with
      | some i => .error (va, .fault i)
      | none => s.rowPieces rb k rest (acc.1 ++ s.pieces (inWindow va) g va off rb, acc.2 ++ via)
    | t => .error (va, t)

/-- The lowest watchpoint that a row meets, with the lowest word that meets it (R183, R184). -/
def State.rowWatch (s : State) (rb : Nat) (rows : List (Nat × Nat)) (wr : Bool) : Option (Nat × Nat) :=
  let hits := rows.filterMap (fun r => (s.watchpoint s.me r.1 rb (!wr) wr).map (fun n => (n, s.watchVa s.me n r.1 rb)))
  hits.foldl (fun m h => match m with
    | none => some h
    | some x => if h.1 < x.1 ∨ (h.1 = x.1 ∧ h.2 < x.2) then some h else some x) none

/-- The rows of a move: virtual addresses and places. -/
def rowList (va stride rb rows : Nat) : List (Nat × Nat) := (List.range rows).map (fun i => ((va + i * stride) % 2 ^ 64, i * rb))

/-- The shape by which a move of a tile goes: one that parked (RANGE) goes on with the shape that it had checked (R359; DEDUCED, log 51). -/
def State.moveShape (s : State) (t : Nat) : Shape :=
  if (s.thr s.me).retrans then shapeOf (s.thr s.me).shapeAt else s.shape s.cur.col t

/-- A translation of a move of a tile that does not succeed; a thread that parks keeps the shape that it has checked. -/
def State.noRow (s : State) (t va : Nat) (r : Trans) : State :=
  let v := if (s.thr s.me).retrans then (s.thr s.me).shapeAt else (s.col s.cur.col).tshape.getD t 0
  (s.modThr s.me (fun x => { x with shapeAt := v })).noAccess va r

/-- The checks of R157 over the rows of tile `t`, then the move. -/
def State.rowsChecked (s : State) (t va stride : Nat) (h : Shape) (wr : Bool) (go : List Piece → List Via → State → State) : State :=
  let al := if elemBytes h.fmt = 0 then 1 else elemBytes h.fmt
  let rows := rowList va stride h.rb h.rows
  if ¬h.ok ∧ (s.thr s.me).retrans = false then s.trapMe tileShape
  else if (va % al ≠ 0 ∨ stride % al ≠ 0) ∧ (s.thr s.me).retrans = false then s.trapMe (misaligned va)
  else match s.rowWatch h.rb rows wr with
    | some (n, a) => s.trapMe (wpTrap n a)
    | none =>
      match s.rowPieces h.rb (if wr then permW else permR) rows ([], []) with
      | .error (a, r) => s.noRow t a r
      | .ok ps => go ps.1 ps.2 s

/-- The access of a move of many words. -/
def bulkAccess (t : Nat) (ps : List Piece) (va size : Nat) (op : AccOp) : Access :=
  { agent := .thread t, op := op, ga := (ps.headD noPiece).ga, va := va, size := size }

def State.tileStride (s : State) (h : Shape) (b : Reg) : Nat := if b = 0 then h.rb else (s.rd b).toNat

def execTld (t a b : Reg) (s : State) : Out :=
  .next (s.tileFree t.toNat true (fun s =>
    let h := s.moveShape t.toNat
    s.rowsChecked t.toNat (s.rd a).toNat (s.tileStride h b) h false (fun ps via s =>
      s.launchAccess { bulkAccess s.me ps (s.rd a).toNat (h.rows * h.rb) (.gather ps [] (.tile t.toNat)) with via := via })))

/-- The bytes of a tile as a table, as they stood at the start of the cycle (R143). -/
def State.tileBytes (s : State) (c t n : Nat) : Sparse Byte :=
  (List.range n).foldl (fun m i => sset 0 m i (s.before.tileByte c t i)) []

def execTst (t a b : Reg) (s : State) : Out :=
  .next (s.tileFree t.toNat false (fun s =>
    let c := s.cur.col
    let h := s.moveShape t.toNat
    s.rowsChecked t.toNat (s.rd a).toNat (s.tileStride h b) h true (fun ps via s =>
      s.tileRead c t.toNat 0 (h.rows * h.rb) (fun s =>
        s.launchAccess { bulkAccess s.me ps (s.rd a).toNat (h.rows * h.rb)
          (.scatter ps (s.tileBytes c t.toNat (h.rows * h.rb)) false (.done [] [])) with tile := some t.toNat, via := via }))))

/-- The offset checks of R158. -/
def State.tvChecked (s : State) (t : Nat) (o : Nat) (go : State → State) : State :=
  if ¬(s.shape s.cur.col t).ok then s.trapMe tileShape
  else if 16384 ≤ o then s.trapMe { cause := 0x0A, w2 := BitVec.ofNat 64 o }
  else if o % 64 ≠ 0 then s.trapMe (misaligned o)
  else go s

/-- 64 bytes of a tile, as they stood at the start of the cycle (R143). -/
def State.tile64 (s : State) (c t o : Nat) : Nat :=
  (List.range 64).foldr (fun i x => (s.before.tileByte c t (o + i)).toNat + 256 * x) 0

def State.putTile64 (s : State) (c t o v : Nat) : State :=
  let s := (List.range 64).foldl (fun s i => s.putTileByte c t (o + i) (BitVec.ofNat 8 (v / 256 ^ i))) s
  s.modCol c (fun x => { x with tileMarks := (List.range 8).foldl (fun m i => sset .clean m (2048 * t + o / 8 + i) .clean) x.tileMarks })

def execTvget (d : VReg) (t b : Reg) (s : State) : Out :=
  .next (s.tileFree t.toNat false (fun s =>
    let o := (s.rd b).toNat
    s.tvChecked t.toNat o (fun s =>
      s.tileRead s.cur.col t.toNat o 64 (fun s => (s.wrV d (BitVec.ofNat 512 (s.tile64 s.cur.col t.toNat o))).finish))))

def execTvset (t : Reg) (a : VReg) (b : Reg) (s : State) : Out :=
  .next (s.tileFree t.toNat true (fun s =>
    let o := (s.rd b).toNat
    s.tvChecked t.toNat o (fun s => (s.putTile64 s.cur.col t.toNat o (s.rdV a).toNat).finish)))

/-! ### Accumulator banks (R144) -/

/-- Element `n` of row `m` of a bank; an EMPTY bank reads +0. -/
def Col.elem (c : Col) (k m n : Nat) : Nat :=
  if c.accFull.getLsbD k then (sget 0 c.acc (4096 * k + 128 * m + n)).toNat else 0

/-- The words of the first `rows` rows of a bank. -/
def bankWords (k rows : Nat) : List Nat := (List.range (64 * rows)).map (fun i => 2048 * k + i)

/-- The banks that an operation into bank `a` writes: two when its plane is PS1 (R161). -/
def planeBanks (a : Nat) (p : Plane) : List Nat :=
  match p.st with
  | .ready .ps1 => [a, a + 1]
  | _ => [a]

def Col.plane (c : Col) (pl : Bool) : Plane := if pl then c.plane1 else c.plane0

/-- The banks that a compute operation writes; an ARRAY request writes none (R304). -/
def Gang.banks (c : Col) (g : Gang) : List Nat :=
  match g.members with
  | m :: _ => (match m.instr with
    | .mgo _ a _ pl _ _ _ _ => planeBanks a.toNat (c.plane pl)
    | .mgos _ a _ _ pl _ _ => planeBanks a.toNat (c.plane pl)
    | _ => [])
  | [] => []

/-- Whether a bank is the destination of a compute operation in flight. -/
def Col.bankInFlight (c : Col) (k : Nat) : Bool := c.gangs.any (fun g => g.active && !g.isLoad && (g.banks c).contains k)

/-- MOUT waits for the bank, then raises POISON on a poisoned one (R163), and the traps of bad words of a FULL one. -/
def State.bankReady (s : State) (k rows : Nat) (go : State → State) : State :=
  let c := s.col s.cur.col
  if c.bankInFlight k then s.parkMe .gang (.bankBusy k)
  else if c.accPoison.getLsbD k then s.trapMe (cause 0x09)
  else if !c.accFull.getLsbD k then go s
  else
    let r := s.noteItem s.cur.col 0x30000 c.accMarks (.thread s.me) (bankWords k rows)
    let s1 := r.1.modCol s.cur.col (fun x => { x with accMarks := r.2 })
    match badItem c.accMarks (bankWords k rows) with
    | some p => s1.trapMe (noVaTrap p)
    | none => go s1

/-- The converted rows of a bank as bytes (R163). -/
def State.moutBytes (s : State) (f : Fmt) (k rows : Nat) : Sparse Byte :=
  let c := s.col s.cur.col
  let w := elemBytes f
  (List.range (128 * rows)).foldl (fun m i =>
    let y := moutVal f (c.elem k (i / 128) (i % 128))
    (List.range w).foldl (fun m j => sset 0 m (w * i + j) (BitVec.ofNat 8 (y / 256 ^ j))) m) []

/-- A bank is EMPTY, and its elements are +0 (R144). -/
def Col.emptied (c : Col) (k : Nat) : Col :=
  { c with
    accFull := c.accFull &&& ~~~(1#4 <<< k)
    acc := c.acc.filter (fun e => e.1 / 4096 != k)
    accMarks := c.accMarks.filter (fun e => e.1 / 2048 != k) }

/-- FULL of a bank cleared. -/
def State.emptyBank (s : State) (c k : Nat) : State := s.modCol c (fun x => x.emptied k)

def execMoutTile (f : Fmt) (t : Reg) (acc : BitVec 2) (emp : Bool) (s : State) : Out :=
  .next (s.tileFree t.toNat true (fun s =>
    let h := s.shape s.cur.col t.toNat
    if ¬h.ok ∨ h.fmt ≠ f ∨ h.rb ≠ 128 * elemBytes f ∨ 32 < h.rows then s.trapMe tileShape
    else s.bankReady acc.toNat h.rows (fun s =>
      let s := s.fillTile s.cur.col t.toNat (s.moutBytes f acc.toNat h.rows) (h.rows * h.rb)
      (if emp then s.emptyBank s.cur.col acc.toNat else s).finish)))

/-- The memory form of MOUT: the rows are those that the bank holds at its issue, and with `empty` FULL is cleared when the last of them has
been written, whatever a compute operation has done to the bank in between (DESIGN CHOICE, log 50). -/
def execMoutMemory (f : Fmt) (d : Reg) (acc : BitVec 2) (r : Reg) (emp : Bool) (s : State) : Out :=
  let rows := (s.rd r).toNat
  let va := (s.rd d).toNat
  let n := rows * 128 * elemBytes f
  .next (if rows = 0 ∨ 32 < rows then s.trapMe tileShape
    else s.checked va n 64 .bulk permW false true (fun g via s =>
      s.bankReady acc.toNat rows (fun s =>
        let ps := s.pieces (inWindow va) g va 0 n
        s.launchAccess { bulkAccess s.me ps va n (.scatter ps (s.moutBytes f acc.toNat rows) true (.done [] [])) with
          via := via
          clear := if emp then some acc.toNat else none })))

/-! ### The mask block (R146, R165) -/

/-- Whether a masked MGO is in flight. -/
def Col.maskInFlight (c : Col) : Bool :=
  c.gangs.any (fun g => g.active && g.members.any (fun m => match m.instr with
    | .mgo _ _ _ _ _ _ mask _ => mask
    | _ => false))

def maskOnes : BitVec 128 := BitVec.allOnes 128

/-- The mask block that a tile's first 2,304 bytes held at the start of the cycle (R143). -/
def State.loadMask (s : State) (c t : Nat) : State :=
  let row := fun (r : Nat) => BitVec.ofNat 128 ((List.range 16).foldr (fun i x => (s.before.tileByte c t (16 * r + i)).toNat + 256 * x) 0)
  let off := fun (r : Nat) => BitVec.ofNat 16 ((s.before.tileByte c t (2048 + 2 * r)).toNat + 256 * (s.before.tileByte c t (2049 + 2 * r)).toNat)
  s.modCol c (fun x => { x with
    mask := (List.range 128).foldl (fun m r => sset maskOnes m r (row r)) x.mask
    maskOff := (List.range 128).foldl (fun m r => sset 0 m r (off r)) x.maskOff
    maskMarks := [] })

def execMmask (t : Reg) (s : State) : Out :=
  .next (s.tileFree t.toNat false (fun s =>
    let c := s.cur.col
    let h := s.shape c t.toNat
    if ¬h.ok ∨ h.rows * h.rb < 2304 then s.trapMe tileShape
    else if (s.col c).maskInFlight then s.parkMe .gang .masked
    else s.tileRead c t.toNat 0 2304 (fun s => (s.loadMask c t.toNat).finish)))

end Sys2Proof.Machine
end

