-- ==== Sys2Proof/Machine/Array.lean ====
section
/-! DEFINITION. The column array: gang ports and gangs (R149, R150, R154, R155), the two sides (R151, R152), MWLD, MWLT, MGO and MGOS
(R160 to R164), aborts (R153), MHOLD, MYIELD, MCLR (R166) and the array watchdog (R40). -/
namespace Sys2Proof.Machine

/-! ### Fields of a gang instruction -/

def wfmtCode : WFmt → Nat
  | .ps1 => 0 | .ps2 => 1 | .int8 => 2 | .bf16 => 3
def afmtCode : AFmt → Nat
  | .int8 => 0 | .bf16 => 1

/-- Columns of output of a plane (R160, R304). -/
def planeCols : WFmt → Nat
  | .ps1 => 256 | .ps2 => 128 | .int8 => 128 | .bf16 => 128
/-- Bytes of a K row and of a quarter (R160). -/
def wRow : WFmt → Nat
  | .ps1 => 128 | .ps2 => 128 | .int8 => 128 | .bf16 => 256
def quarterBytes (f : WFmt) : Nat := 32 * wRow f
/-- Whether a weight format has group scales. -/
def hasScales : WFmt → Bool
  | .ps1 => true | .ps2 => true | .int8 => false | .bf16 => false
def wFmt : WFmt → Fmt
  | .ps1 => .ps1 | .ps2 => .ps2 | .int8 => .int8 | .bf16 => .bf16
def aFmt : AFmt → Fmt
  | .int8 => .int8 | .bf16 => .bf16
def aBytes : AFmt → Nat
  | .int8 => 1 | .bf16 => 2
/-- Cycles per activation row (R152). -/
def cpr : WFmt → Nat
  | .ps1 => 1 | .ps2 => 1 | .int8 => 2 | .bf16 => 4
/-- The pairs of R66. -/
def pairOk (w : WFmt) (a : AFmt) : Bool :=
  match w, a with
  | .ps1, _ => true
  | .ps2, _ => true
  | .int8, .int8 => true
  | .bf16, .bf16 => true
  | .int8, .bf16 => false
  | .bf16, .int8 => false

/-- The row count M of a compute instruction of a thread, as its arrival finds it. -/
def State.gangRows (s : State) (t : Nat) : Instr → Nat
  | .mgo _ _ tl _ _ _ _ _ => (s.shape (colOf t) tl.toNat).rows
  | .mgos _ _ _ m _ _ _ => ((s.thr t).sreg m).toNat
  | _ => 0

/-- The fields that R149 compares. -/
def State.gangKey (s : State) (t : Nat) (i : Instr) : List Nat :=
  match i with
  | .mwld f pl _ sc tag => [0, tag.toNat, wfmtCode f, bnat pl, sc.toNat]
  | .mwlt f pl _ sc tag => [1, tag.toNat, wfmtCode f, bnat pl, sc.toNat]
  | .mgo f acc _ pl tag add mask r =>
    [2, tag.toNat, afmtCode f, bnat pl, acc.toNat, bnat add, bnat mask, s.gangRows t i] ++ (if mask then [((s.thr t).sreg r).toNat] else [])
  | .mgos f acc _ _ pl tag add => [3, tag.toNat, afmtCode f, bnat pl, acc.toNat, bnat add, s.gangRows t i]
  | _ => []

/-- The plane that a gang or a request names. -/
def Gang.plane (g : Gang) : Bool :=
  match g.members with
  | m :: _ => (match m.instr with
    | .mwld _ pl _ _ _ => pl
    | .mwlt _ pl _ _ _ => pl
    | .mgo _ _ _ pl _ _ _ _ => pl
    | .mgos _ _ _ _ pl _ _ => pl
    | _ => false)
  | [] => (match g.req with
    | some r => r.plane
    | none => false)

/-- The thread of member `q`. -/
def memberThr (c q : Nat) (m : PortItem) : Nat := thrNo c q m.slot

/-- The members with their quarters. -/
def Gang.quarters (g : Gang) : List (Nat × PortItem) := (List.range 4).zip g.members

def State.gang (s : State) (c id : Nat) : Option Gang := (s.col c).gangs.find? (fun g => g.id == id)
def State.modGang (s : State) (c id : Nat) (f : Gang → Gang) : State :=
  s.modCol c (fun x => { x with gangs := x.gangs.map (fun g => if g.id = id then f g else g) })
def State.dropGang (s : State) (c id : Nat) : State := s.modCol c (fun x => { x with gangs := x.gangs.filter (fun g => g.id != id) })

/-! ### Ports (R149, R154, R155) -/

/-- A free port goes to the head of its queue. -/
def Core.refillPort (c : Core) (cyc : Nat) : Core :=
  match c.port, c.portQ with
  | none, p :: ps => { c with port := some { p with cycle := cyc }, portQ := ps }
  | _, _ => c

/-- The thread holds the array of its column. -/
def State.holds (s : State) (t : Nat) : Bool :=
  match (s.col (colOf t)).hold with
  | some h => h.core == quarterOf t && h.slot == slotOf t
  | none => false

/-- A gang instruction arrives: it occupies the port of its core, or waits for it (R149); the holder of the array takes the port (R155). -/
def State.arrive (s : State) (i : Instr) : State :=
  let t := s.me
  let p : PortItem := { slot := s.cur.slot, cycle := s.cycOf t, instr := i, key := s.gangKey t i }
  let s := s.modCore (coreOf t) (fun c => match c.port with
    | none => { c with port := some p }
    | some old => if s.holds t then { c with port := some p, portQ := old :: c.portQ } else { c with portQ := c.portQ ++ [p] })
  s.parkMe .gang .gang

/-- A thread leaves its core's port or queue (R154). -/
def State.leavePort (s : State) (t : Nat) : State :=
  s.modCore (coreOf t) (fun c =>
    let c1 := { c with
      portQ := c.portQ.filter (fun p => p.slot != slotOf t)
      port := match c.port with
        | some p => if p.slot = slotOf t then none else some p
        | none => none }
    c1.refillPort (s.cycOf t))

/-- A member of an undone gang takes back its core's port (R154). -/
def State.takeBack (s : State) (c q : Nat) (p : PortItem) : State :=
  s.modCore (4 * c + q) (fun x => { x with
    port := some { p with cycle := (s.col c).cyc }
    portQ := (match x.port with
      | some o => [o]
      | none => []) ++ x.portQ })

/-- Whether a gang has the thread as a member. -/
def Gang.has (g : Gang) (t : Nat) : Bool := g.quarters.any (fun m => m.1 == quarterOf t && m.2.slot == slotOf t)

/-- A thread that waits at a port, or for its gang's start, leaves (R154). -/
def State.leaveGang (s : State) (t : Nat) : State :=
  let c := colOf t
  match (s.col c).gangs.find? (fun g => !g.active && g.has t) with
  | some g =>
    (g.quarters.filter (fun m => m.1 != quarterOf t)).foldl (fun s m => s.takeBack c m.1 m.2) (s.dropGang c g.id)
  | none => s.leavePort t

/-- Whether the thread is a member of an operation that has started. -/
def State.inStarted (s : State) (t : Nat) : Bool := (s.col (colOf t)).gangs.any (fun g => g.active && g.has t)

/-- The hold of the array ends when its holder ends or is saved (R155). -/
def State.dropHold (s : State) (t : Nat) : State := if s.holds t then s.modCol (colOf t) (fun c => { c with hold := none }) else s

/-! ### Arrival of the gang instructions (R160, R161, R164) -/

/-- Whether the shape of the scale tile fits (R160). -/
def State.scaleOk (s : State) (f : WFmt) (t : Reg) : Bool :=
  if hasScales f then
    let h := s.shape s.cur.col t.toNat
    h.fmt == .bf16 && h.rows == 2 && h.rb == 2 * planeCols f
  else true

def execMwld (f : WFmt) (pl : Bool) (a sc : Reg) (tag : BitVec 4) (s : State) : Out :=
  let va := (s.rd a).toNat
  let n := quarterBytes f
  .next (if ¬s.scaleOk f sc ∧ (s.thr s.me).retrans = false then s.trapMe tileShape
    else s.checked va n 64 .bulk permR true false (fun g _ s =>
      if (s.outstanding s.me).any (fun b => (s.pieces (inWindow va) g va 0 n).any (fun p => meets b.ga b.size p.ga p.n)) then s.parkMe .mem .drain
      else s.arrive (.mwld f pl a sc tag)))

def execMwlt (f : WFmt) (pl : Bool) (t sc : Reg) (tag : BitVec 4) (s : State) : Out :=
  let h := s.shape s.cur.col t.toNat
  .next (if h.fmt ≠ wFmt f ∨ h.rows ≠ 32 ∨ h.rb ≠ wRow f ∨ ¬s.scaleOk f sc then s.trapMe tileShape
    else s.arrive (.mwlt f pl t sc tag))

def execMgo (f : AFmt) (acc : BitVec 2) (t : Reg) (pl : Bool) (tag : BitVec 4) (add mask : Bool) (r : Reg) (s : State) : Out :=
  let h := s.shape s.cur.col t.toNat
  .next (if h.fmt ≠ aFmt f ∨ h.rb ≠ 32 * aBytes f ∨ 32 < h.rows ∨ (mask ∧ 128 - h.rows < (s.rd r).toNat) then s.trapMe tileShape
    else s.arrive (.mgo f acc t pl tag add mask r))

def execMgos (f : AFmt) (acc : BitVec 2) (c : PReg) (m : Reg) (pl : Bool) (tag : BitVec 4) (add : Bool) (s : State) : Out :=
  .next (if s.rd m = 0 ∨ 32 < (s.rd m).toNat then s.trapMe tileShape else s.arrive (.mgos f acc c m pl tag add))

/-! ### Comparison (R149, R150) -/

/-- The items at the four ports of a column, when all are occupied. -/
def State.fourPorts (s : State) (c : Nat) : Option (List PortItem) :=
  match (s.core (4 * c)).port, (s.core (4 * c + 1)).port, (s.core (4 * c + 2)).port, (s.core (4 * c + 3)).port with
  | some a, some b, some d, some e => some [a, b, d, e]
  | _, _, _, _ => none

/-- Whether the cycle after the last arrival has come. -/
def State.compareDue (s : State) (c : Nat) : Bool :=
  match s.fourPorts c with
  | some l => l.all (fun p => decide (p.cycle < (s.col c).cyc))
  | none => false

/-- The four ports are freed, and waiting instructions take them. -/
def State.freePorts (s : State) (c : Nat) : State :=
  (List.range 4).foldl (fun s q => s.modCore (4 * c + q) (fun x => { x with port := none }.refillPort (s.col c).cyc)) s

/-- A trap in each of the four members. -/
def State.trapMembers (s : State) (c : Nat) (l : List (Nat × PortItem)) (i : TrapInfo) : State :=
  l.foldl (fun s m => s.trap (memberThr c m.1 m.2) i) s

def execGangCompare (c : Nat) (s : State) : Out :=
  .next (if !s.compareDue c then s
    else match s.fourPorts c with
      | some l =>
        let s := s.freePorts c
        (match l with
         | p :: ps =>
           if ps.all (fun x => x.key == p.key) then
             let id := (s.col c).nextGang
             (s.modCol c (fun x => { x with
               nextGang := id + 1
               gangs := x.gangs ++ [{ id := id, formed := x.cyc, members := l }] })).atOnce (.gangStart c id)
           else s.trapMembers c ((List.range 4).zip l) (cause 0x0B)
         | [] => s)
      | none => s)

/-! ### Start (R151) -/

/-- Whether the side of a gang is free. -/
def Col.sideFree (x : Col) (load : Bool) : Bool :=
  x.gangs.all (fun h => !h.active || h.isLoad != load || (!load && h.busyTo != 0 && decide (h.busyTo < x.cyc)))

/-- Conditions 1 to 3 of R151. -/
def State.ready123 (s : State) (c : Nat) (g : Gang) : Bool :=
  let x := s.col c
  x.sideFree g.isLoad &&
    (if g.isLoad then x.gangs.all (fun h => !h.active || h.isLoad || h.plane != g.plane) else (x.plane g.plane).st != .loading) &&
    g.members.all (fun m => (memberTiles m.instr).all (fun t => !s.writeHeld c t))

/-- Condition 4: no hold of another thread (R155). -/
def Col.holdAllows (x : Col) (g : Gang) : Bool :=
  match x.hold with
  | some h => g.quarters.any (fun m => m.1 == h.core && m.2.slot == h.slot)
  | none => true

/-- The gang that starts now, among those of one side by age. -/
def State.firstToStart (s : State) (c : Nat) : List Gang → Option Gang
  | [] => none
  | g :: gs =>
    if s.ready123 c g then (if (s.col c).holdAllows g then some g else s.firstToStart c gs) else none

/-- The gang of a side that starts in this cycle. -/
def State.startsNow (s : State) (c : Nat) (load : Bool) : Option Gang :=
  s.firstToStart c ((s.col c).gangs.filter (fun g => !g.active && g.isLoad == load))

/-- A gang aborts as soon as this step is over. -/
def State.failGang (s : State) (c id : Nat) (l : List (Nat × TrapInfo)) : State :=
  (s.modGang c id (fun g => { g with fails := l })).after 0 (.gangAbort c id)

/-- The state of a plane. -/
def State.setPlane (s : State) (c : Nat) (pl : Bool) (f : Plane → Plane) : State :=
  s.modCol c (fun x => if pl then { x with plane1 := f x.plane1 } else { x with plane0 := f x.plane0 })

/-! ### Loads -/

/-- The weight format, the operand and the scale tile of a load. -/
def loadParts : Instr → Option (WFmt × Bool × Reg × Reg)
  | .mwld f _ a sc _ => some (f, true, a, sc)
  | .mwlt f _ t sc _ => some (f, false, t, sc)
  | _ => none

/-- What the translation of a member's quarter gives (R153, R160). -/
def State.quarterTrans (s : State) (c : Nat) (m : Nat × PortItem) : Nat × Trans :=
  let t := memberThr c m.1 m.2
  match loadParts m.2.instr with
  | some (f, true, a, _) =>
    let va := ((s.thr t).sreg a).toNat
    (match s.translate t va (quarterBytes f) permR with
     | .ok g via => (match s.mapExtent g (quarterBytes f) .bulk va with
       | some i => (va, .fault i)
       | none => (va, .ok g via))
     | r => (va, r))
  | _ => (0, .ok 0 [])

/-- The virtual address of a member's quarter in memory. -/
def State.quarterVa (s : State) (c : Nat) (m : Nat × PortItem) : Nat :=
  match loadParts m.2.instr with
  | some (_, true, a, _) => ((s.thr (memberThr c m.1 m.2)).sreg a).toNat
  | _ => 0

/-- The parts of a member's quarter of `n` bytes. -/
def State.quarterPieces (s : State) (c : Nat) (g : Gang) (n : Nat) (m : Nat × PortItem) : List Piece :=
  s.pieces (inWindow (s.quarterVa c m)) (g.bases.getD m.1 0) (s.quarterVa c m) 0 n

/-- A load with the addresses that its quarters have now, and their entries. -/
def State.translated (s : State) (c : Nat) (g : Gang) : Gang :=
  { g with
    bases := g.quarters.map (fun m => match (s.quarterTrans c m).2 with
      | .ok a _ => a
      | _ => 0)
    via := (g.quarters.map (fun m => match (s.quarterTrans c m).2 with
      | .ok _ v => v
      | _ => [])).flatten }

/-- The faults that the quarters meet. -/
def State.quarterFaults (s : State) (c : Nat) (g : Gang) : List (Nat × TrapInfo) :=
  g.quarters.filterMap (fun m => match (s.quarterTrans c m).2 with
    | .fault i => some (m.1, i)
    | _ => none)

/-- Whether a quarter waits for a range entry. -/
def Trans.waits : Trans → Bool
  | .wait _ _ _ => true
  | .fetch _ _ _ _ _ _ _ => true
  | .ok _ _ => false
  | .fault _ => false

/-- The parts of a load in a layer of the column's own stacked memory. -/
def State.partsIn (s : State) (c : Nat) (g : Gang) (n l : Nat) : List Piece :=
  g.quarters.flatMap (fun m => (s.quarterPieces c g n m).filter (fun p => decide (s.owner p.ga = .layer c l)))

/-- The bytes of the block in a layer. -/
def State.layerBytes (s : State) (c : Nat) (g : Gang) (n l : Nat) : Nat := (s.partsIn c g n l).foldl (fun k p => k + p.n) 0

/-- Whether an owner is a layer of the column. -/
def ownLayer (c : Nat) (o : Owner) : Bool := (List.range 4).any (fun l => decide (o = .layer c l))

/-- A layer's part of a load moves when its port and its segments can be reached (R152, R246). -/
def State.startLayer (s : State) (c id : Nat) (g : Gang) (n l : Nat) : State :=
  let bs := (s.partsIn c g n l).map (·.ga)
  if bs.isEmpty || (sget 0 g.layerStart l != 0) then s
  else if bs.any s.blocked then (bs.filter s.blocked).foldl (fun s b => s.demand b) s
  else if s.portHeld c l then s
  else
    let s := bs.foldl (fun s b => s.noteUse b) s
    (s.modCol c (fun x => { x with portHold := sset 0 x.portHold l 1 })).modGang c id (fun h => { h with layerStart := sset 0 h.layerStart l ((s.col c).cyc + 1) })

/-- The last cycle of a load when all its parts move. -/
def State.loadEnd (s : State) (c : Nat) (g : Gang) (n : Nat) : Option Nat :=
  (List.range 4).foldl (fun acc l =>
    let b := s.layerBytes c g n l
    if b = 0 then acc
    else match acc with
      | none => none
      | some e => if sget 0 g.layerStart l = 0 then none else some (max e (sget 0 g.layerStart l - 1 + (b + 127) / 128 * (if s.pkg.vhalf && decide (2 ≤ l) then 2 else 1) - 1))) (some g.busyTo)

/-- The parts of a quarter that do not lie in the column's own stacked memory. -/
def State.farParts (s : State) (c : Nat) (g : Gang) (n : Nat) (m : Nat × PortItem) : List Piece :=
  (s.quarterPieces c g n m).filter (fun p => !ownLayer c (s.owner p.ga))

/-- The array reads the parts of a quarter that lie elsewhere than in its column's own stacked memory, as loads (R160). -/
def State.sendQuarter (s : State) (c : Nat) (g : Gang) (n : Nat) (m : Nat × PortItem) : State :=
  let ps := s.farParts c g n m
  if ps.isEmpty then s
  else (s.fresh.2).present { seq := s.fresh.1, agent := .array c, op := .gather ps [] (.plane c g.id m.1), ga := (ps.headD noPiece).ga
                             va := s.quarterVa c m, size := n }

/-- The reads of a load that lie elsewhere. -/
def State.planeFlights (s : State) (c id : Nat) : List Access :=
  s.flights.filter (fun a => match a.op with
    | .gather _ _ (.plane c' id' _) => c' == c && id' == id
    | _ => false)

/-- Whether all bytes of those reads have arrived. -/
def State.planeHere (s : State) (c id : Nat) : Bool :=
  (s.planeFlights c id).all (fun a => a.op.todo.isEmpty && a.waiting && decide (a.due ≤ s.sched.cycle))

/-- What quarter `q` has read elsewhere: the bytes by their places, and the trap of the bad words among them. -/
def State.planeRead (s : State) (c id q : Nat) : Sparse Byte × Option TrapInfo :=
  ((s.planeFlights c id).findSome? (fun a => match a.op with
    | .gather _ got (.plane _ _ q') => if q' = q then some (got, a.bad) else none
    | _ => none)).getD ([], none)

/-- The reads of a load are over. -/
def State.dropPlane (s : State) (c id : Nat) : State := (s.planeFlights c id).foldl (fun s a => s.dropFlight a.seq) s

/-- A load from memory goes on: translations, then the moves of its parts (R152, R363). -/
def State.moveLoad (s : State) (c id : Nat) (f : WFmt) : State :=
  match s.gang c id with
  | none => s
  | some g =>
    let n := quarterBytes f
    let fs := s.quarterFaults c g
    if g.st == .moving then
      let s := (List.range 4).foldl (fun s l => s.startLayer c id g n l) s
      match s.gang c id with
      | none => s
      | some g =>
        (match s.loadEnd c g n with
         | some e =>
           if s.planeHere c id then
             (s.modGang c id (fun h => { h with
               st := .running g.formed
               busyTo := if (s.planeFlights c id).isEmpty then e else max e (s.col c).cyc
               doneAt := if (s.planeFlights c id).isEmpty then e else max e (s.col c).cyc })).after 0 (.gangComplete c id)
           else s
         | none => s)
    else if fs.length ≠ 0 then s.failGang c id fs
    else if g.quarters.any (fun m => (s.quarterTrans c m).2.waits) then
      let s := g.quarters.foldl (fun s m => match (s.quarterTrans c m).2 with
        | .fetch tbl i lo hi a b _ => s.startFetch tbl i lo hi a b
        | _ => s) s
      (g.quarters.foldl (fun s m => s.modThr (memberThr c m.1 m.2) (fun x => { x with st := .parked .range })) s).modGang c id
        (fun h => { h with st := .fetching })
    else
      let g := s.translated c g
      let s := (g.quarters.foldl (fun s m => s.modThr (memberThr c m.1 m.2) (fun x => { x with st := .parked .gang })) s.fresh.2)
      let s := s.modGang c id (fun h => { h with st := .moving, busyTo := (s.col c).cyc, bases := g.bases, via := g.via, num := s.fresh.1 })
      (g.quarters.foldl (fun s m => s.sendQuarter c g n m) s.fresh.2).atOnce (.gangStart c id)

/-- Whether a load from memory has something left to start. -/
def Gang.unsettled (g : Gang) : Bool := g.st == .moving || g.st == .fetching

/-- The bytes of quarter `q`, and the first bad word among them. -/
def State.quarterData (s : State) (c : Nat) (g : Gang) (m : Nat × PortItem) : List Byte × Option TrapInfo :=
  match loadParts m.2.instr with
  | some (f, true, _, _) =>
    let n := quarterBytes f
    let far := s.planeRead c g.id m.1
    let own := (s.quarterPieces c g n m).filter (fun p => ownLayer c (s.owner p.ga))
    (bytesUpTo (own.foldl (fun d p => s.readPiece p d) far.1) n,
      own.foldl (fun b p => worseTrap true b (s.pieceBad (.plane c g.id m.1) p)) far.2)
  | some (f, false, t, _) =>
    let n := quarterBytes f
    ((List.range n).map (fun i => s.tileByte c t.toNat i), (s.tileBad c t.toNat 0 n).map noVaTrap)
  | none => ([], none)

/-- The bad quarters of a load: its own bytes, and the scales, which every quarter uses. -/
def State.loadFaults (s : State) (c : Nat) (g : Gang) : List (Nat × TrapInfo) :=
  g.quarters.filterMap (fun m =>
    match (s.quarterData c g m).2 with
    | some i => some (m.1, i)
    | none => (match loadParts m.2.instr with
      | some (f, _, _, sc) =>
        if hasScales f then (s.tileBad c sc.toNat (2 * planeCols f * (m.1 / 2)) (2 * planeCols f)).map (fun p => (m.1, noVaTrap p)) else none
      | none => none))

/-- The marks that a load reads are noted (R241): of its quarters, and once of the scale tile. -/
def State.noteLoad (s : State) (c : Nat) (g : Gang) : State :=
  let s := g.quarters.foldl (fun s m =>
    let ag := Agent.thread (memberThr c m.1 m.2)
    match loadParts m.2.instr with
    | some (f, true, _, _) =>
      ((s.quarterPieces c g (quarterBytes f) m).filter (fun p => ownLayer c (s.owner p.ga))).foldl (fun s p => s.noteRead p.ga p.n ag) s
    | some (f, false, t, _) => s.noteTile c t.toNat 0 (quarterBytes f) ag
    | none => s) s
  match g.quarters with
  | m :: _ => (match loadParts m.2.instr with
    | some (f, _, _, sc) => if hasScales f then s.noteTile c sc.toNat 0 (4 * planeCols f) (.thread (memberThr c m.1 m.2)) else s
    | none => s)
  | [] => s

/-- The block in its plane. -/
def State.fillPlane (s : State) (c : Nat) (g : Gang) (f : WFmt) (sc : Reg) : State :=
  let data : Sparse Byte := g.quarters.foldl (fun d m =>
    (((List.range (quarterBytes f)).zip (s.quarterData c g m).1)).foldl (fun d b => sset 0 d (8192 * m.1 + b.1) b.2) d) []
  let scales : Sparse (BitVec 16) :=
    if hasScales f then
      (List.range (2 * planeCols f)).foldl (fun d i =>
        sset 0 d (256 * (i / planeCols f) + i % planeCols f)
          (BitVec.ofNat 16 ((s.tileByte c sc.toNat (2 * i)).toNat + 256 * (s.tileByte c sc.toNat (2 * i + 1)).toNat))) []
    else []
  s.setPlane c g.plane (fun _ => { st := .ready f, data := data, scales := scales, marks := [] })

/-! ### Products (R67, R68, R162) -/

/-- The code of a weight in quarter `q`, K row `k`, column `n`. -/
def Plane.code (p : Plane) (f : WFmt) (q k n : Nat) : Nat :=
  let at_ := fun (i : Nat) => (sget 0 p.data (8192 * q + wRow f * k + i)).toNat
  match f with
  | .ps1 => if n % 2 = 0 then at_ (n / 2) % 16 else at_ (n / 2) / 16
  | .ps2 => at_ n
  | .int8 => at_ n
  | .bf16 => at_ (2 * n) + 256 * at_ (2 * n + 1)

/-- The value of quarter `q` for column `n` and a row; absent elements are +0. -/
def Plane.quarter (p : Plane) (f : WFmt) (a : AFmt) (row : List (Nat × Nat)) (q n : Nat) : Nat :=
  let l := (List.range 32).map (fun k => (weightVal f (p.code f q k n), actVal a (sget 0 row (32 * q + k))))
  quarterVal (quarterSum l)
    (if hasScales f then some (fdecFlush bf16 (sget 0 p.scales (256 * (q / 2) + n)).toNat) else none)

/-- An element by R67 steps 1 to 5. -/
def Plane.element (p : Plane) (f : WFmt) (a : AFmt) (row : List (Nat × Nat)) (n : Nat) : Nat :=
  sumQuarters (p.quarter f a row 0 n) (p.quarter f a row 1 n) (p.quarter f a row 2 n) (p.quarter f a row 3 n)

/-- Whether an element of a masked operation is visible (R162). -/
def Col.visible (x : Col) (r n : Nat) : Bool :=
  let c := (n : Int) + (sget 0 x.maskOff r).toInt
  decide (c < 0) || (decide (c ≤ 127) && (sget maskOnes x.mask r).getLsbD c.toNat)

/-- What an operation writes: format, accumulator, accumulation, and the mask's row origin. -/
structure Compute where
  fmt : AFmt
  acc : Nat
  add : Bool
  origin : Option Nat
  zeroRows : Bool
deriving DecidableEq, Repr

/-- The parameters of a compute gang. -/
def State.computeParts (s : State) (c : Nat) (g : Gang) : Option Compute :=
  match g.members with
  | m :: _ => (match m.instr with
    | .mgo f acc _ _ _ add mask r =>
      some { fmt := f, acc := acc.toNat, add := add, zeroRows := false,
             origin := if mask then some ((s.thr (thrNo c 0 m.slot)).sreg r).toNat else none }
    | .mgos f acc _ _ _ _ add => some { fmt := f, acc := acc.toNat, add := add, origin := none, zeroRows := true }
    | _ => none)
  | [] => none

/-- One element of a bank after an operation (R161, R162; an MGOS row without an element gives +0, R164). -/
def Col.newElem (x : Col) (p : Plane) (f : WFmt) (k : Compute) (m : Nat) (row : List (Nat × Nat)) (n : Nat) : Nat :=
  let b := k.acc + n / 128
  let v := if k.zeroRows && row.isEmpty then 0 else p.element f k.fmt row n
  let v := match k.origin with
    | some o => if x.visible (o + m) n then v else fp32.inf true
    | none => v
  if k.add && x.accFull.getLsbD b then arrAdd (x.elem b m (n % 128)) v else v

/-- A row of a bank replaced. -/
def putRow (acc : Sparse (BitVec 32)) (b m : Nat) (vals : List Nat) : Sparse (BitVec 32) :=
  (((List.range 128).zip vals)).foldl (fun a v => sset 0 a (4096 * b + 128 * m + v.1) (BitVec.ofNat 32 v.2)) acc

/-- Rows not written of a bank that was EMPTY read +0. -/
def clearBank (acc : Sparse (BitVec 32)) (b : Nat) : Sparse (BitVec 32) := acc.filter (fun e => decide (e.1 / 4096 ≠ b))

/-- The row count of a compute operation: the one that its ports compared (R149), whatever TSHAPE has become since (DESIGN CHOICE, log 52). -/
def Gang.rowCount (g : Gang) : Nat :=
  match g.members with
  | p :: _ => (match p.instr with
    | .mgo _ _ _ _ _ _ _ _ => p.key.getD 7 0
    | .mgos _ _ _ _ _ _ _ => p.key.getD 6 0
    | _ => 0)
  | [] => 0

/-- The result of a compute operation in its banks. -/
def Col.compute (x : Col) (f : WFmt) (p : Plane) (k : Compute) (rows : List (List (Nat × Nat))) : Col :=
  let banks := planeBanks k.acc p
  let acc0 := banks.foldl (fun a b => if x.accFull.getLsbD b then a else clearBank a b) x.acc
  let acc := (((List.range rows.length).zip rows)).foldl (fun a r =>
    banks.foldl (fun a b =>
      putRow a b r.1 ((List.range 128).map (fun n => x.newElem p f k r.1 r.2 (128 * (b - k.acc) + n)))) a) acc0
  { x with
    acc := acc
    accFull := banks.foldl (fun v b => v ||| (1#4 <<< b)) x.accFull
    accPoison := banks.foldl (fun v b => v &&& ~~~(1#4 <<< b)) x.accPoison
    accMarks := x.accMarks.filter (fun w => !(banks.contains (w.1 / 2048) && decide (w.1 % 2048 < 64 * rows.length))) }

/-! ### Rows of activations -/

/-- Rows of an MGO from the four activation tiles. -/
def State.mgoRows (s : State) (c : Nat) (g : Gang) (f : AFmt) (m : Nat) : List (List (Nat × Nat)) :=
  (List.range m).map (fun r =>
    (g.quarters.map (fun q => match q.2.instr with
      | .mgo _ _ t _ _ _ _ _ =>
        (List.range 32).map (fun k =>
          let i := (32 * r + k) * aBytes f
          (32 * q.1 + k,
            match f with
            | .int8 => (s.tileByte c t.toNat i).toNat
            | .bf16 => (s.tileByte c t.toNat i).toNat + 256 * (s.tileByte c t.toNat (i + 1)).toNat))
      | _ => [])).flatten)

/-- The bad activation tiles of an MGO. -/
def State.mgoFaults (s : State) (c : Nat) (g : Gang) (f : AFmt) (m : Nat) : List (Nat × TrapInfo) :=
  g.quarters.filterMap (fun q => match q.2.instr with
    | .mgo _ _ t _ _ _ _ _ => (s.tileBad c t.toNat 0 (m * 32 * aBytes f)).map (fun p => (q.1, noVaTrap p))
    | _ => none)

/-- The marks of the activation tiles that an MGO reads are noted (R241). -/
def State.noteRows (s : State) (c : Nat) (g : Gang) (f : AFmt) (m : Nat) : State :=
  g.quarters.foldl (fun s q => match q.2.instr with
    | .mgo _ _ t _ _ _ _ _ => s.noteTile c t.toNat 0 (m * 32 * aBytes f) (.thread (memberThr c q.1 q.2))
    | _ => s) s

/-- The words of a plane that quarter `q` reads: its weights and its scales. -/
def planeWords (f : WFmt) (q : Nat) : List Nat :=
  (List.range (quarterBytes f / 8)).map (fun i => 1024 * q + i) ++
    (if hasScales f then (List.range (planeCols f / 4)).map (fun i => 4096 + 64 * (q / 2) + i) else [])

/-- The quarters that meet a bad word of the plane, and, when the operation accumulates or is masked, a bad word of its banks or of the
mask block, which all four quarters meet. -/
def Col.computeFaults (x : Col) (f : WFmt) (p : Plane) (k : Compute) (m : Nat) : List (Nat × TrapInfo) :=
  let shared :=
    ((if k.add then (planeBanks k.acc p).filterMap (fun b => if x.accFull.getLsbD b then badItem x.accMarks (bankWords b m) else none) else []) ++
      (match k.origin with
       | some _ => (badItem x.maskMarks (x.maskMarks.map (·.1))).toList
       | none => []))
  (List.range 4).filterMap (fun q => match badItem p.marks (planeWords f q) with
    | some b => some (q, noVaTrap b)
    | none => shared.head?.map (fun b => (q, noVaTrap b)))

/-! ### Starts of gangs (R152) -/

/-- All four members trap at the start, and the gang is gone. -/
def State.refuseGang (s : State) (c : Nat) (g : Gang) (i : TrapInfo) : State :=
  (s.dropGang c g.id).trapMembers c g.quarters i

/-- Counter 11 of R404 for each member. -/
def State.countMembers (s : State) (c e : Nat) : State := (List.range 4).foldl (fun s q => s.count (thrNo c q 0) e) s

/-- A load starts: the plane is LOADING. -/
def State.startLoad (s : State) (c : Nat) (g : Gang) (f : WFmt) (mem : Bool) : State :=
  let now := (s.col c).cyc
  let s := (s.setPlane c g.plane (fun p => { p with st := .loading })).countMembers c 11
  if mem then (s.modGang c g.id (fun h => { h with st := .fetching, formed := now })).moveLoad c g.id f
  else
    let s := s.modGang c g.id (fun h => { h with st := .running now, busyTo := now + 8 * wRow f / 128 - 1, doneAt := now + 8 * wRow f / 128 - 1 })
    if (s.loadFaults c g).isEmpty then s else s.failGang c g.id (s.loadFaults c g)

/-- The refusals at the start of a compute gang (R161). -/
def Col.startTrap (x : Col) (g : Gang) (k : Compute) : Option TrapInfo :=
  match (x.plane g.plane).st with
  | .ready f =>
    if !pairOk f k.fmt || (f == .ps1 && (k.acc % 2 == 1 || k.origin.isSome)) then some tileShape
    else if k.add && (planeBanks k.acc (x.plane g.plane)).any (fun b => x.accPoison.getLsbD b) then some (cause 0x09)
    else none
  | .empty => some tileShape
  | .loading => some tileShape

/-- A compute gang starts. -/
def State.startCompute (s : State) (c : Nat) (g : Gang) (k : Compute) : State :=
  let now := (s.col c).cyc
  match (s.col c).startTrap g k with
  | some i => s.refuseGang c g i
  | none =>
    let s := s.countMembers c 11
    let m := g.rowCount
    if k.zeroRows then s.modGang c g.id (fun h => { h with st := .running now, m := m, streams := List.replicate 4 {} })
    else
      let f := match ((s.col c).plane g.plane).st with
        | .ready f => f
        | _ => .int8
      let last := now + m * cpr f - 1
      let rows := s.mgoRows c g k.fmt m
      let fs := s.mgoFaults c g k.fmt m
      let s := (s.noteRows c g k.fmt m).modGang c g.id (fun h => { h with st := .running now, m := m, rows := rows, busyTo := last, doneAt := last + 8 })
      if fs.isEmpty then s else s.failGang c g.id fs

/-- An ARRAY request starts, or its node meets PLANE (R305). -/
def State.startRequest (s : State) (c : Nat) (g : Gang) (r : ArrayReq) : State :=
  let now := (s.col c).cyc
  match ((s.col c).plane g.plane).st with
  | .ready f =>
    if pairOk f r.fmt then
      let last := now + g.rows.length * cpr f - 1
      s.modGang c g.id (fun h => { h with st := .running now, m := g.rows.length, busyTo := last, doneAt := last + 8 })
    else (s.modGang c g.id (fun h => { h with st := .running now, busyTo := now, doneAt := now, fails := [(0, tileShape)] })).after 0
      (.arrayRequestComplete r.isl r.node g.id)
  | _ => (s.modGang c g.id (fun h => { h with st := .running now, busyTo := now, doneAt := now, fails := [(0, tileShape)] })).after 0
      (.arrayRequestComplete r.isl r.node g.id)

/-- A gang or request starts. -/
def State.startGang (s : State) (c : Nat) (g : Gang) : State :=
  match g.members, g.req with
  | m :: _, _ => (match loadParts m.instr with
    | some (f, mem, _, _) => s.startLoad c g f mem
    | none => (match s.computeParts c g with
      | some k => s.startCompute c g k
      | none => s))
  | [], some r => s.startRequest c g r
  | [], none => s.dropGang c g.id

/-- A gang starts when R151 lets it; a load from memory that waits for entries, ports or segments goes on. -/
def execGangStart (c id : Nat) (s : State) : Out :=
  .next (match s.gang c id with
    | some g =>
      if g.active then
        (match g.members with
         | m :: _ => (match loadParts m.instr with
           | some (f, true, _, _) => if g.unsettled && g.fails.isEmpty then s.moveLoad c id f else s
           | _ => s)
         | [] => s)
      else if (s.startsNow c g.isLoad).any (fun h => h.id == id) then s.startGang c g else s
    | none => s)

/-! ### MGOS streams (R164, R274) -/

/-- The subcode of a stream error: what R259 gives for a depth-2 stream of PAIRs, and the further rules of R164. -/
def mgosError (f : AFmt) (q m : Nat) (st : MgosSt) (t : Tok) : Option Nat :=
  let k := tkKind t
  let badPair := k == kPAIR && (decide (tkCoord t < 32 * q ∨ 32 * q + 31 < tkCoord t) ||
    decide (2 ^ (8 * aBytes f) ≤ tkLow t))
  if !(k == kPAIR || k == kEMPTY || k == kSTOP || k == kDONE) || badPair then some scBADKIND
  else match gramError 2 st.gram t with
    | some n => some n
    | none =>
      if k = kSTOP ∧ tkAux t = 0 ∧ m ≤ st.rows.length + 1 then some scDONE
      else if k = kSTOP ∧ tkAux t = 1 ∧ st.rows.length + 1 ≠ m then some scDONE
      else if (k = kPAIR ∨ k = kEMPTY) ∧ st.gram.stop = some 1 then some scDONE
      else none

/-- The stream after a token. -/
def MgosSt.take (st : MgosSt) (t : Tok) : MgosSt :=
  let k := tkKind t
  if k = kPAIR then { st with cur := st.cur ++ [(tkCoord t, tkLow t)], gram := gramNext st.gram t }
  else if k = kSTOP then { st with rows := st.rows ++ [st.cur], cur := [], gram := gramNext st.gram t }
  else if k = kDONE then { st with ended := true }
  else { st with gram := gramNext st.gram t }

/-- The channel register of a member. -/
def memberChan : Instr → Option (PReg × AFmt)
  | .mgos f _ ch _ _ _ _ => some (ch, f)
  | _ => none

/-- What one quarter of an MGOS does in a cycle: nothing, a token taken, or a stream error. -/
inductive TakeStep where
  | idle
  | take (ch : PReg) (t : Tok)
  | error (i : TrapInfo)
deriving DecidableEq, Repr

def State.takeStep (s : State) (c m : Nat) (p : Nat × PortItem) (st : MgosSt) : TakeStep :=
  match memberChan p.2.instr with
  | some (ch, f) =>
    (match ((s.thr (memberThr c p.1 p.2)).chan ch).head with
     | some tok =>
       if st.ended then .idle
       else match mgosError f p.1 m st tok with
         | some n => .error { cause := 0x0C, sub := n, detail := tokDetail tok ch.toNat, w2 := BitVec.ofNat 64 (tkPay tok) }
         | none => .take ch tok
     | none => .idle)
  | none => .idle

/-- The steps of the four quarters in this cycle. -/
def State.takeSteps (s : State) (c : Nat) (g : Gang) : List ((Nat × PortItem) × MgosSt × TakeStep) :=
  (g.quarters.zip g.streams).map (fun x => (x.1, x.2, s.takeStep c g.m x.1 x.2))

/-- Tokens taken in one cycle, or the abort. A row that ends counts in counter 12. -/
def State.takeTokens (s : State) (c : Nat) (g : Gang) : State :=
  let l := s.takeSteps c g
  let errs := l.filterMap (fun x => match x.2.2 with
    | .error i => some (x.1.1, i)
    | _ => none)
  if errs.length ≠ 0 then s.failGang c g.id errs
  else
    let s := l.foldl (fun s x => match x.2.2 with
      | .take ch tok =>
        let t := memberThr c x.1.1 x.1.2
        let s := s.modGang c g.id (fun h => { h with taken := (t, ch, (s.thr t).chan ch) :: h.taken })
        let s := (s.returnChan t ((s.thr t).chan ch)).modThr t (fun y => y.putChan ch (y.chan ch).advance)
        if tkKind tok = kSTOP then s.count (thrNo c x.1.1 0) 12 else s
      | _ => s) s
    let sts := l.map (fun x => match x.2.2 with
      | .take _ tok => x.2.1.take tok
      | _ => x.2.1)
    let now := (s.col c).cyc
    s.modGang c g.id (fun h => { h with
      streams := sts
      busyTo := if sts.all (·.ended) then now else 0
      doneAt := if sts.all (·.ended) then now + 8 else 0 })

/-- The rows of a finished MGOS: row `m` of every quarter together. -/
def mgosRows (m : Nat) (l : List MgosSt) : List (List (Nat × Nat)) :=
  (List.range m).map (fun i => (l.map (fun st => st.rows.getD i [])).flatten)

/-! ### Completion and abort (R152, R153) -/

/-- The ports of a load are released. -/
def State.releasePorts (s : State) (c : Nat) (g : Gang) : State :=
  g.layerStart.foldl (fun s l => s.modCol c (fun x => { x with portHold := sset 0 x.portHold l.1 0 })) s

/-- The members' instructions complete. -/
def State.completeMembers (s : State) (c : Nat) (g : Gang) : State :=
  g.quarters.foldl (fun s m => s.completeParked (memberThr c m.1 m.2) id) s

/-- The agent of quarter `q` of a compute operation: its member, or the node of an ARRAY request. -/
def Gang.agent (g : Gang) (c q : Nat) : Agent :=
  match g.members[q]?, g.req with
  | some m, _ => .thread (memberThr c q m)
  | none, some r => .stream r.isl r.node
  | none, none => .array c

/-- The marks of the plane that a compute operation reads are noted (R241). -/
def State.notePlane (s : State) (c : Nat) (g : Gang) (f : WFmt) : State :=
  (List.range 4).foldl (fun s q =>
    let r := s.noteItem c (0x20000 + 8192 * bnat g.plane) ((s.col c).plane g.plane).marks (g.agent c q) (planeWords f q)
    r.1.setPlane c g.plane (fun p => { p with marks := r.2 })) s

/-- The marks of the bank elements that an accumulating operation reads are noted. -/
def State.noteBank (s : State) (c : Nat) (g : Gang) (b m : Nat) : State :=
  if (s.col c).accFull.getLsbD b then
    let r := s.noteItem c 0x30000 (s.col c).accMarks (g.agent c 0) (bankWords b m)
    r.1.modCol c (fun x => { x with accMarks := r.2 })
  else s

/-- The marks of the mask block that a masked operation reads are noted. -/
def State.noteMask (s : State) (c : Nat) (g : Gang) : State :=
  let r := s.noteItem c 0x40000 (s.col c).maskMarks (g.agent c 0) ((s.col c).maskMarks.map (·.1))
  r.1.modCol c (fun x => { x with maskMarks := r.2 })

/-- The marks that a compute operation reads are noted. -/
def State.noteCompute (s : State) (c : Nat) (g : Gang) (f : WFmt) (k : Compute) : State :=
  let s := s.notePlane c g f
  let s := if k.add then (planeBanks k.acc ((s.col c).plane g.plane)).foldl (fun s b => s.noteBank c g b g.m) s else s
  if k.origin.isSome then s.noteMask c g else s

/-- A load completes, or aborts on a bad word. -/
def State.completeLoad (s : State) (c : Nat) (g : Gang) (f : WFmt) (sc : Reg) : State :=
  let fs := s.loadFaults c g
  let s1 := s.noteLoad c g
  if fs.isEmpty then
    ((((s1.fillPlane c g f sc).releasePorts c g).dropPlane c g.id).dropGang c g.id).completeMembers c g
  else s1.failGang c g.id fs

/-- A compute operation completes, or aborts on a bad word. -/
def State.completeCompute (s : State) (c : Nat) (g : Gang) (k : Compute) : State :=
  let x := s.col c
  let p := x.plane g.plane
  match p.st with
  | .ready f =>
    let fs := x.computeFaults f p k g.m
    let rows := if k.zeroRows then mgosRows g.m g.streams else g.rows
    let s1 := s.noteCompute c g f k
    if fs.isEmpty then ((s1.modCol c (fun x => x.compute f p k rows)).dropGang c g.id).completeMembers c g
    else s1.failGang c g.id fs
  | _ => s

/-- Whether the gang's completion is due, or an MGOS can take a token. -/
def State.completeDue (s : State) (c : Nat) (g : Gang) : Bool :=
  match g.st with
  | .running st =>
    g.fails.isEmpty &&
      (if g.busyTo = 0 then
        decide (st < (s.col c).cyc) && (s.takeSteps c g).any (fun x => x.2.2 != .idle)
       else decide (g.doneAt ≤ (s.col c).cyc))
  | _ => false

/-- An operation completes; an MGOS that runs takes the tokens of this cycle. -/
def execGangComplete (c id : Nat) (s : State) : Out :=
  .next (match s.gang c id with
    | some g =>
      if !s.completeDue c g then s
      else (match g.members with
        | m :: _ => (match loadParts m.instr with
          | some (f, _, _, sc) => s.completeLoad c g f sc
          | none => (match s.computeParts c g with
            | some k => if g.busyTo = 0 then s.takeTokens c g else s.completeCompute c g k
            | none => s))
        | [] => s)
    | none => s)

/-- The failure with the lowest address, and of those the one of the lowest core (R153). -/
def lowestFail : List (Nat × TrapInfo) → Option (Nat × TrapInfo)
  | [] => none
  | x :: xs => (match lowestFail xs with
    | some y => if y.2.w2.toNat < x.2.w2.toNat then some y else some x
    | none => some x)

/-- The failure that the partners' records name: a stream error of the lowest core, or the failure with the lowest address. -/
def namedFail (fs : List (Nat × TrapInfo)) : Option (Nat × TrapInfo) :=
  match fs.find? (fun f => f.2.cause == 0x0C) with
  | some f => some f
  | none => lowestFail fs

/-- The trap of member `q`: its own cause, with the lowest address, or the payload of its own token for a stream error (R274); or that of the
failing quarter as a partner. -/
def memberTrap (fs : List (Nat × TrapInfo)) (low : Nat × TrapInfo) (q : Nat) : TrapInfo :=
  match fs.find? (fun f => f.1 == q) with
  | some f => if f.2.cause = 0x0C then f.2 else { f.2 with w2 := low.2.w2 }
  | none => { low.2 with gangp := true, detail := low.1 }

/-- A token that an aborted MGOS has taken stands in its register again, before those that have arrived since (R11, R153). -/
def Chan.untake (now before : Chan) : Chan :=
  if now.st = .inb ∧ now.isl = before.isl ∧ now.inv = before.inv then
    { now.putHead (some before.tok) with landing := now.head.toList ++ now.landing }
  else if tkKind before.tok = kDONE ∧ now.st = .unbound then before
  else now

/-- The slot of a token that has been put back is in use again, as its PORTOUT sees it. -/
def State.reclaimChan (s : State) (ch : Chan) : State :=
  if ch.st = .inb ∧ s.runsBound ch then s.modNode ch.isl (8 * ch.port) (fun x => { x with inUse := x.inUse + 1 }) else s

/-- The tokens that an aborted MGOS has taken are put back, the last one first. -/
def State.putBack (s : State) (l : List (Nat × PReg × Chan)) : State :=
  l.foldl (fun s x => (s.reclaimChan x.2.2).modThr x.1 (fun y => y.putChan x.2.1 ((y.chan x.2.1).untake x.2.2))) s

/-- An abort leaves the plane EMPTY, or the banks EMPTY and poisoned, and all four threads trap. -/
def execGangAbort (c id : Nat) (s : State) : Out :=
  .next (match s.gang c id with
    | some g =>
      (match namedFail g.fails with
       | some low =>
         let banks := g.banks (s.col c)
         let s := if g.isLoad then (s.setPlane c g.plane (fun _ => {})).dropPlane c id
           else (s.putBack g.taken).modCol c (fun x => { banks.foldl (fun x b => x.emptied b) x with
             accPoison := banks.foldl (fun v b => v ||| (1#4 <<< b)) x.accPoison })
         g.quarters.foldl (fun s m => s.trap (memberThr c m.1 m.2) (memberTrap g.fails low m.1)) ((s.releasePorts c g).dropGang c id)
       | none => s)
    | none => s)

/-- A residency fetch that a loading gang waits for has failed (R362, R363): the quarter that it covers meets PARTIAL_RESIDENCY. -/
def State.failFetchingGangs (s : State) (tbl i : Nat) : State :=
  let c := tbl / 4
  if 80 ≤ tbl then s
  else ((s.col c).gangs.filter (fun g => g.st == .fetching && g.fails.isEmpty)).foldl (fun s g =>
    let fs := g.quarters.filterMap (fun m =>
      let r := s.quarterTrans c m
      match r.2 with
      | .wait tb j true => if tb = tbl ∧ j = i then some (m.1, ({ cause := 0x07, sub := 0x31, detail := i, w2 := BitVec.ofNat 64 r.1 } : TrapInfo)) else none
      | _ => none)
    if fs.isEmpty then s else s.failGang c g.id fs) s

/-! ### Hold, yield, clear (R166) and the watchdog (R40) -/

def execMhold (s : State) : Out :=
  .next (s.supervisor (fun s =>
    let c := s.cur.col
    match (s.col c).hold with
    | some _ => if s.holds s.me then s.finish else s.parkMe .gang .hold
    | none => (s.modCol c (fun x => { x with hold := some { core := s.cur.core, slot := s.cur.slot, start := x.cyc } })).finish))

def execMyield (s : State) : Out := .next (s.dropHold s.me).finish

def execMclr (acc : BitVec 2) (s : State) : Out :=
  let k := acc.toNat
  .next (if (s.col s.cur.col).bankInFlight k then s.parkMe .gang (.bankBusy k)
    else ((s.emptyBank s.cur.col k).modCol s.cur.col (fun c => { c with accPoison := c.accPoison &&& ~~~(1#4 <<< k) })).finish)

/-- Whether the watchdog of a column's array ends the hold now. -/
def State.watchdogDue (s : State) (c : Nat) : Bool :=
  match (s.col c).hold with
  | some h => decide (h.start + 1048576 ≤ (s.col c).cyc) && !s.inStarted (thrNo c h.core h.slot)
  | none => false

/-- The watchdog releases the array, and the holder traps at its next issue. -/
def execArrayWatchdog (c : Nat) (s : State) : Out :=
  .next (if !s.watchdogDue c then s
    else match (s.col c).hold with
      | some h =>
        (s.modCol c (fun x => { x with hold := none }.raiseEvent 16#5)).modThr (thrNo c h.core h.slot)
          (fun x => { x with asyncTraps := x.asyncTraps ++ [cause 0x13] })
      | none => s)

/-- Whether an operation ends the streaming of a row in this cycle (R404 event 12). -/
def Col.rowEnds (x : Col) (g : Gang) : Bool :=
  match g.st with
  | .running st =>
    !g.isLoad && g.streams.isEmpty && decide (x.cyc ≤ g.busyTo) && decide (0 < g.m) && (g.busyTo - x.cyc) % ((g.busyTo + 1 - st) / g.m) == 0
  | _ => false

/-- Counter 12 of R404 of the rows whose streaming ends in this cycle. -/
def State.countRows (s : State) (c : Nat) : State :=
  ((s.col c).gangs.filter (s.col c).rowEnds).foldl (fun s _ => s.countMembers c 12) s

/-! ### The array's steps of a cycle -/

/-- The completions, starts and comparisons of a column that are due, the starts before the completions, so that what an operation holds is
free from the cycle after its last. -/
def State.arrayScan (s : State) (c : Nat) : List Event :=
  let x := s.col c
  (if s.compareDue c then [.gangCompare c] else []) ++
    (match s.startsNow c true with
     | some g => [.gangStart c g.id]
     | none => []) ++
    (match s.startsNow c false with
     | some g => [.gangStart c g.id]
     | none => []) ++
    (x.gangs.filter (fun g => g.unsettled && g.fails.isEmpty)).map (fun g => .gangStart c g.id) ++
    (x.gangs.filter (fun g => s.completeDue c g)).map (fun g => match g.req with
      | some r => .arrayRequestComplete r.isl r.node g.id
      | none => .gangComplete c g.id) ++
    (if s.watchdogDue c then [.arrayWatchdog c] else [])

end Sys2Proof.Machine
end

