-- ==== Sys2Proof/Machine/Threads.lean ====
section
/-! DEFINITION. Thread slots: SPAWN, EXIT, YIELD (R345 to R347), kills (R343), traps and their queue (R186), debug halts (R341, R428),
the wait watchdog (R403), and the dealer (R349 to R352). -/
namespace Sys2Proof.Machine

/-! ### The end of a thread -/

/-- The thread to which a step of the schedule is addressed. -/
def addressee : Event → Option Nat
  | .memReply t _ => some t
  | .feWaitResend t => some t
  | .channelTokenArrive t _ _ _ => some t
  | .invokeRequest _ r => some r.thr
  | .invokeAnswer t _ => some t
  | .activeNotice t _ => some t
  | .islandFaultTrap t _ _ => some t
  | .qwaitLimit t => some t
  | .dealerOperation t _ => some t
  | .sequenceTableOperation t _ => some t
  | .islandInstall _ r => some r.thr
  | .islandCommand _ c => (match c with
    | .garg t _ _ _ _ => some t
    | .gdrain t _ _ => some t
    | .greconf t _ _ => some t)
  | _ => none

/-- Messages to a thread that is gone find no reader. -/
def State.dropMessages (s : State) (t : Nat) : State :=
  { s with
    sched := { s.sched with agenda := s.sched.agenda.filter (fun e => addressee e.2 != some t) }
    disp := { s.disp with gateWaits := s.disp.gateWaits.filter (fun g => g.2.1 != t) } }

/-- The bank of an invocation's graph: where it runs, or, while it is queued, where the graph is installed. -/
def Isl.invBank (i : Isl) (v : Inv) : Nat :=
  match i.run with
  | some r => if r.id = v.id then v.bank else (i.bankOf v.graph [.installed, .active, .draining]).getD v.bank
  | none => (i.bankOf v.graph [.installed, .active, .draining]).getD v.bank

/-- The lowest edge port of an invocation that holds a PORTIN, among those bound. -/
def Isl.lowestPortin (i : Isl) (v : Inv) : Option Nat :=
  ((blockPorts (i.bank (i.invBank v)).nodes).find? (fun p => p.2.1 && decide (v.port ≤ p.1 ∧ p.1 < v.port + v.n))).map (·.1)

/-- The fault register of a killed invocation, queued or running (R308, R310, R311). -/
def Isl.markKilled (i : Isl) (v : Inv) : Isl :=
  match i.lowestPortin v with
  | some e => { i with nfault := sset 0 i.nfault (8 * e) (BitVec.ofNat 64 (2 ^ 63 + 0x0A * 2 ^ 40)) }
  | none => i

/-- The threads that a configuration's commands answer, without one that has left its slot. -/
def Isl.dropWaiters (i : Isl) (t : Nat) : Isl :=
  let f := fun (l : List (Nat × Reg)) => l.filter (fun w => w.1 != t)
  { i with
    banks := i.banks.map (fun b => { b with
      waiters := f b.waiters
      installer := match b.installer with
        | some w => if w.1 = t then none else some w
        | none => none })
    gargs := i.gargs.map (fun g => if g.1 = t then (1280, g.2) else g)
    reconf := i.reconf.map (fun (r : Reconf) => { r with waiters := f r.waiters })
    heldReconf := i.heldReconf.map (fun h => (h.1, f h.2)) }

/-- An island aborts the invocations of a thread that has left its slot (R308, R348); its commands go on without it. -/
def Isl.abandon (i : Isl) (t : Nat) : Isl :=
  let i := (i.queue.filter (fun v => v.thr == t)).foldl (fun i v => i.markKilled v) (i.dropWaiters t)
  let i := { i with
    queue := i.queue.filter (fun v => v.thr != t)
    waiting := i.waiting.filter (fun r => r.1.thr != t) }
  match i.run with
  | some v => if v.thr = t then { i.markKilled v with run := some { v with gone := true } } else i
  | none => i

/-- Every island aborts the thread's invocations, and lets waiting requests in. -/
def State.abandonAll (s : State) (t : Nat) : State :=
  (List.range 10).foldl (fun s k => (s.modIsl k (fun i => i.abandon t)).admitInvs k) s

/-- Its outstanding invalidations, sends and flushes complete without it (R374). -/
def State.orphanInvals (s : State) (t : Nat) : State :=
  { s with eng := { s.eng with invals := s.eng.invals.map (fun (x : Inval) => if x.thr = some t then { x with thr := none } else x) } }.modCol
    (colOf t) (fun c => { c with
      sendQ := c.sendQ.map (fun (i : SendItem) => if i.thr = some t then { i with thr := none } else i)
      flushes := c.flushes.map (fun (f : FlushWait) => if f.thr = some t then { f with thr := none } else f) })

/-- A thread ends: its requests, channel registers and invocations go with it, and its slot is EMPTY. -/
def State.endThread (s : State) (t : Nat) : State :=
  let s := ((((s.abandonAll t).dropHold t).dropMessages t).orphanInvals t).emptySlot t
  { s with threads := s.threads.map (fun x => (x.1, if x.2.savedBy = some t then { x.2 with savedBy := none } else x.2)) }

/-- The full/empty accesses of a thread at other packages, which may stand in wait lists there. -/
def State.farWaits (s : State) (t : Nat) : List Access :=
  s.flights.filter (fun a => a.agent == Agent.thread t && s.isFar a.ga && !a.waiting && (match a.op with
    | .fe _ _ _ => true
    | _ => false))

/-- Another package is asked to take an access out of its wait list (R220, R221). -/
def State.askWithdraw (s : State) (a : Access) : State := s.tell (.chain (gaPkg a.ga) s.pkg.pkgNo.toNat a.seq .withdraw)

/-- The requests of a thread that wait at an owner are gone. -/
def State.dropRequests (s : State) (t : Nat) : State :=
  let s := (s.farWaits t).foldl (fun s a => s.askWithdraw a) s
  { s with flights := s.flights.filter (fun a => !(a.agent == Agent.thread t && (a.waiting || a.joined.isSome || !a.op.isStore))) }

/-- The wait of a thread is withdrawn without effect (R154, R220): its requests that wait at an owner, and its place at a gang port. -/
def State.withdraw (s : State) (t : Nat) : State :=
  match (s.thr t).wait with
  | .gang => (s.dropRequests t).leaveGang t
  | _ => s.dropRequests t

/-- A wait at a full/empty bit is over without effect: the thread stands at the access, which issues again (R220). -/
def State.feBack (s : State) (t : Nat) : State := s.modThr t (fun x => { x with wait := .retry })

/-- The wait of a thread in a list that is still to be withdrawn: another package is asked once, and the access in flight notes it. -/
def State.canWithdraw (s : State) (t : Nat) : Bool :=
  match (s.thr t).wait with
  | .feList n => (match s.flight n with
    | some a => !(s.isFar a.ga && !a.waiting && a.entered)
    | none => true)
  | _ => false

/-- The wait of a thread in a list is withdrawn (R220). -/
def State.withdrawFe (s : State) (t : Nat) : State :=
  match (s.thr t).wait with
  | .feList n => (match s.flight n with
    | some a =>
      if s.isFar a.ga && !a.waiting then (s.askWithdraw a).modFlight n (fun b => { b with entered := true })
      else (s.dropFlight n).feBack t
    | none => s.feBack t)
  | _ => s

/-- A kill, once the thread's stores are performed (R343). -/
def State.finishKill (s : State) (t : Nat) : State := (s.withdraw t).endThread t

/-- A kill begins; until its stores are performed the thread stays in its slot. -/
def State.kill (s : State) (t : Nat) : State :=
  if (s.outstanding t).isEmpty then s.finishKill t else s.modThr t (fun x => { x with wait := .dying })

/-! ### Major 0x2E: SPAWN, EXIT, YIELD -/

/-- The lowest EMPTY slot of a core. -/
def State.emptySlotOf (s : State) (q : Nat) : Option Nat := (List.range 16).find? (fun n => (s.thr (16 * q + n)).st == .empty)

def execSpawn (d a : Reg) (s : State) : Out :=
  let arg := s.rd d
  let w := (s.rd a).toNat
  let q := s.myCore
  let slot := if bit w 16 then s.emptySlotOf q else some (bits w 15 12)
  let status := fun (v : Nat) (s : State) => (s.wr d (BitVec.ofNat 64 v)).finish
  .next (if bits w 63 17 ≠ 0 then status 2 s
    else match slot with
      | none => status 1 s
      | some k =>
        if (s.thr (16 * q + k)).st ≠ .empty then status 1 s
        else if s.superSlot q k ∧ ¬s.isSuper s.me then status 3 s
        else
          let seg := (s.thr s.me).seg
          let tag := (s.thr s.me).ctag
          status (16 + k) (s.startThread (16 * q + k) (BitVec.ofNat 64 (bits w 11 0)) (fun x =>
            { x.putS 1 arg with seg := seg, ctag := tag, spawner := some (s.sched.cycle + 1, s.me, d) })))

/-- EXIT once nothing holds it back: a deferred store fault is reported, or the thread ends (R346). -/
def State.finishExit (s : State) (t : Nat) : State :=
  match (s.thr t).deferred with
  | d :: ds => (s.modThr t (fun x => { x with deferred := ds })).trap t d.trap
  | [] => (s.count t 0).endThread t

def execExit (s : State) : Out :=
  let t := s.me
  .next (match (List.range 8).find? (fun c => ((s.thr t).chan (BitVec.ofNat 3 c)).st != .unbound) with
    | some c => s.trapMe (chanTrap 0x13 c 0)
    | none => if (s.outstanding t).isEmpty then s.finishExit t else s.parkMe .mem .exit)

def execYield (n : BitVec 12) (s : State) : Out :=
  .next (s.modThr s.me (fun x => { x with skips := n.toNat + 1, readyFrom := s.cycOf s.me + 1 })).finish

/-! ### The dealer (R349 to R352) -/

/-- A request among others, by deadline and identifier. -/
def insertDeal (r : DealReq) : List DealReq → List DealReq
  | [] => [r]
  | x :: xs =>
    if r.deadline.toNat < x.deadline.toNat ∨ (r.deadline = x.deadline ∧ r.ident.toNat < x.ident.toNat) then r :: x :: xs
    else x :: insertDeal r xs

def keyIdent (k : W64) : BitVec 16 := k.setWidth 16
def keyDeadline (k : W64) : BitVec 48 := k.extractLsb' 16 48

/-- The requests that fit a budget, in heap order, up to the first that does not. -/
def takeFit : Nat → List DealReq → List DealReq
  | _, [] => []
  | b, r :: rs => if r.demand.toNat ≤ b then r :: takeFit (b - r.demand.toNat) rs else []

/-- The batch that a DPOP selects, and whether it is one request over the budget. -/
def dealBatch (budget : Nat) : List DealReq → List DealReq × Bool
  | [] => ([], false)
  | h :: rest => if budget < h.demand.toNat then ([h], true) else (takeFit budget (h :: rest), false)

def demandSum (l : List DealReq) : Nat := l.foldl (fun n r => n + r.demand.toNat) 0

/-- The words of a batch list. -/
def batchWords (single : Bool) (l : List DealReq) : List W64 :=
  (l.map (fun r => [r.deadline ++ r.ident, BitVec.ofNat 64 (bnat single * 2 ^ 63 + r.demand.toNat)])).flatten

/-- Bytes of a list of words as a table from place 0. -/
def wordsTable (l : List W64) : Sparse Byte :=
  ((List.range (8 * l.length))).foldl (fun m i => sset 0 m i ((l.getD (i / 8) 0).extractLsb' (8 * (i % 8)) 8)) []

/-- An operation leaves for station (11, 1) in traffic class 0; a DPOP that parked (RANGE) does not repeat its earlier checks there (R359). -/
def State.deal (s : State) (op : DealerOp) : State :=
  ((s.classZero s.cur.col 30 (.dealerOperation s.me op)).parkMe .mem .reply).modThr s.me
    (fun x => { x with retrans := (s.thr s.me).retrans })

def execDpush (d a : Reg) (s : State) : Out := .next (s.deal (.push (s.rd a) (s.rd d) d))
def execDkey (d a : Reg) (s : State) : Out := .next (s.deal (.key (s.rd a) d))
def execDdel (d a : Reg) (s : State) : Out := .next (s.deal (.del (s.rd a) d))
def execDpop (d a : Reg) (s : State) : Out := .next (s.deal (.pop (s.rd a) d))

/-- The reply of a unit at station (11, 1) to a thread, in traffic class 0. -/
def State.farReply (s : State) (t : Nat) (d : Reg) (v : Nat) : State :=
  s.classZero 30 (colOf t) (.memReply t (.done [(d, BitVec.ofNat 64 v)] []))

def State.putHeap (s : State) (h : List DealReq) : State := { s with disp := { s.disp with heap := h } }

/-- The status of a DPUSH. -/
def pushStatus (heap : List DealReq) (key demand : W64) : Nat :=
  if heap.any (fun r => r.ident == keyIdent key) then 2
  else if 256 ≤ heap.length then 1
  else if demand = 0 ∨ 65535 < demand.toNat then 3
  else 0

/-- A thread whose DPOP has met a fetch parks (RANGE); it does not repeat the checks before translation (R359). -/
def State.parkFar (s : State) (t : Nat) (w : Wait) : State := (s.modThr t (fun x => { x with retrans := true })).park t .range w

/-- A fault of a DPOP traps its thread; a residency fetch parks it (RANGE), to issue again. -/
def State.farNoAccess (s : State) (t va : Nat) : Trans → State
  | .ok _ _ => s
  | .fault i => s.trap t i
  | .wait tbl i share => s.parkFar t (.entry tbl i share va)
  | .fetch tbl i lo hi a b _ =>
    let s := s.startFetch tbl i lo hi a b
    s.parkFar t (.entry tbl i (s.fetchCovers tbl i a (b - a)) va)

/-- A batch leaves the heap, and the iteration number goes up. -/
def State.takeBatch (s : State) (b : List DealReq) : State :=
  let s := s.putHeap (s.disp.heap.filter (fun r => !b.contains r))
  { s with pkg := { s.pkg with iter := s.pkg.iter + 1 } }

/-- The answer to DPOP: the iteration number, the demand and the length of the batch. -/
def popReply (iter : BitVec 32) (b : List DealReq) (d : Reg) : Reply :=
  .done [(d, BitVec.ofNat 64 (iter.toNat * 2 ^ 32 + demandSum b * 2 ^ 9 + b.length))] []

/-- The write of a batch into memory, whose end brings the answer. -/
def State.writeBatch (s : State) (t g va : Nat) (via : List Via) (ws : List W64) (r : Reply) : State :=
  let ps := s.pieces (inWindow va) g va 0 (8 * ws.length)
  (s.fresh.2).present { bulkAccess t ps va (8 * ws.length) (.scatter ps (wordsTable ws) false r) with seq := s.fresh.1, via := via }

/-- DPOP at the dealer (R351). -/
def State.dealPop (s : State) (t : Nat) (list : W64) (d : Reg) : State :=
  let b := dealBatch s.pkg.tbudget.toNat s.disp.heap
  let va := list.toNat
  let n := 16 * b.1.length
  if s.disp.dealerGate ∨ b.1.isEmpty then s.farReply t d 0
  else if va % 16 ≠ 0 ∧ (s.thr t).retrans = false then s.trap t (misaligned va)
  else match s.watchpoint t va n false true with
    | some w => s.trap t (wpTrap w (s.watchVa t w va n))
    | none =>
      (match s.translate t va n permW with
       | .ok g via =>
         (match s.mapExtent g n .bulk va with
          | some i => s.trap t i
          | none => (s.takeBatch b.1).writeBatch t g va via (batchWords b.2 b.1) (popReply s.pkg.iter b.1 d))
       | r => s.farNoAccess t va r)

/-- One operation at the dealer. -/
def execDealerOperation (t : Nat) (op : DealerOp) (s : State) : Out :=
  let heap := s.disp.heap
  .next (if (s.thr t).wait ≠ .reply then s
    else match op with
      | .push key demand d =>
        let st := pushStatus heap key demand
        (if st = 0 then s.putHeap (insertDeal { ident := keyIdent key, deadline := keyDeadline key, demand := demand.setWidth 16 } heap) else s).farReply
          t d st
      | .key key d =>
        (match heap.find? (fun r => r.ident == keyIdent key) with
         | some r => (s.putHeap (insertDeal { r with deadline := keyDeadline key } (heap.filter (fun x => x.ident != r.ident)))).farReply t d 0
         | none => s.farReply t d 4)
      | .del key d =>
        if heap.any (fun r => r.ident == keyIdent key) then
          (s.putHeap (heap.filter (fun x => x.ident != keyIdent key))).farReply t d 0
        else s.farReply t d 4
      | .pop list d => s.dealPop t list d)

/-! ### Major 0x23: TRAP, BKPT, TQPOP, TRESUME (R186) -/

def execTrap (imm : BitVec 12) (s : State) : Out := .next (s.trapMe { cause := 0x10, w2 := imm.setWidth 64 })
def execBkpt (imm : BitVec 12) (s : State) : Out := .next (s.trapMe { cause := 0x11, sub := 3, detail := imm.toNat })

def execTqpop (d : Reg) (nw : Bool) (s : State) : Out :=
  .next (s.supervisor (fun s =>
    let q := s.myCore
    match (s.core q).tq with
    | [] =>
      if nw then (s.modThr s.me (fun x => x.putRun d [0, 0, 0, 0])).finish else s.parkMe .trap .record
    | r :: rs =>
      (((s.modCore q (fun c => { c with tq := rs })).modThr s.me (fun x => x.putRun d [r.w0, r.w1, r.w2, r.w3])).admitWaiting q).finish))

/-- The record of a slot leaves the queue, if it is still there, and a waiting one enters. -/
def State.dropRecord (s : State) (q n : Nat) : State :=
  if (s.core q).tq.any (fun r => r.slot == n) then
    (s.modCore q (fun c => { c with tq := c.tq.filter (fun r => r.slot != n) })).admitWaiting q
  else s

/-- A TRAPPED thread issues again, at the same word or the next, with RESUME set. -/
def State.resumeThread (s : State) (t : Nat) (skip : Bool) : State :=
  s.modThr t (fun x => { x with
    pc := if skip then x.pc + 1 else x.pc, st := s.readySt t, wait := .none, resume := true, readyFrom := s.cycOf t + 1 })

/-- TRESUME. A slot whose kill still waits for its stores is TRAPPED: a further TRESUME names it with status 0, and the kill goes on
(DEDUCED, log 53). -/
def execTresume (d a : Reg) (act : ResumeAct) (s : State) : Out :=
  .next (s.supervisor (fun s =>
    let q := s.myCore
    let k := (s.rd a).toNat % 16
    let t := 16 * q + k
    if (s.thr t).st ≠ .trapped then (s.wr d 1).finish
    else if (s.thr t).wait = .dying then (s.wr d 0).finish
    else
      let s := s.dropRecord q k
      let s := match act with
        | .retry => s.resumeThread t false
        | .skip => s.resumeThread t true
        | .kill => s.kill t
      (s.wr d 0).finish))

/-! ### Debug halt (R341, R428) -/

/-- A debug halt takes effect: a READY slot is HALTED, and its remaining skips are cancelled (R347). -/
def execDebugHalt (t : Nat) (s : State) : Out :=
  .next (if (s.thr t).st = .ready ∧ (s.core (coreOf t)).hmask.getLsbD (slotOf t) then
    s.modThr t (fun x => { x with st := .halted, skips := 0 }) else s)

/-- A debug resume: a HALTED slot is READY. -/
def execDebugResume (t : Nat) (s : State) : Out :=
  .next (if (s.thr t).st = .halted ∧ !(s.core (coreOf t)).hmask.getLsbD (slotOf t) then
    s.modThr t (fun x => { x with st := .ready, readyFrom := s.cycOf t }) else s)

/-- The halts and resumes that HMASK asks for, which take effect before the issues of the next cycle (R428). -/
def State.haltScan (s : State) : List Event :=
  s.threads.filterMap (fun e =>
    let on := (s.core (coreOf e.1)).hmask.getLsbD (slotOf e.1)
    if (s.col (colOf e.1)).frozen then none
    else match e.2.st with
    | .ready => if on then some (.debugHalt e.1) else none
    | .halted => if on then none else some (.debugResume e.1)
    | .empty => none
    | .parked _ => none
    | .trapped => none)

/-! ### The wait watchdog (R403) -/

/-- The reason code of a wait that the watchdog counts. -/
def watchCode : Park → Option Nat
  | .chan => some 3
  | .fe => some 4
  | .gang => some 5
  | .window => some 7
  | .transit => some 8
  | .barrier => some 9
  | .event => some 10
  | .mem => none
  | .bank => none
  | .tile => none
  | .range => none
  | .trap => none

/-- Whether the watchdog of the column ends a thread's wait now. -/
def State.waitExpired (s : State) (t : Nat) : Option Nat :=
  let x := s.thr t
  let c := s.col (colOf t)
  match x.st with
  | .parked r =>
    if c.wdlimit ≠ 0 ∧ x.parkedAt + 16 * c.wdlimit.toNat < c.cyc ∧ (r != Park.gang || (x.wait == .gang && !s.inStarted t)) then watchCode r else none
  | _ => none

/-- The wait is withdrawn, and the thread traps. -/
def execWaitWatchdog (t : Nat) (s : State) : Out :=
  .next (match s.waitExpired t with
    | some n => (s.withdraw t).trap t { cause := 0x13, sub := n }
    | none => s)

end Sys2Proof.Machine
end

