-- ==== Sys2Proof/Machine/Descriptor.lean ====
section
/-! DEFINITION. Descriptors of engine commands, read as loads (R329, R330, R378), the instruction that goes on when its bytes are there,
and completion words (R211). -/
namespace Sys2Proof.Machine

/-- Word `j` of the bytes of a descriptor. -/
def descWord (got : Sparse Byte) (j : Nat) : Nat :=
  (List.range 8).foldr (fun i x => (sget 0 got (8 * j + i)).toNat + 256 * x) 0

/-- The read of `n` words from `va` on, each a load of 8 bytes with R permission. -/
def State.readDescriptor (s : State) (va n kind : Nat) (whole : Bool) : State :=
  let rows := rowList va 8 8 n
  if va % 8 ≠ 0 ∧ (s.thr s.me).retrans = false then s.trapMe (misaligned va)
  else match s.rowWatch 8 rows false with
    | some (w, a) => s.trapMe (wpTrap w a)
    | none =>
      (match s.rowPieces 8 permR rows ([], []) with
       | .error (a, t) => s.noAccess a t
       | .ok ps => s.launchAccess { bulkAccess s.me ps.1 va (8 * n) (.gather ps.1 [] (.descriptor kind whole)) with via := ps.2 })

/-- The state in which a parked thread's instruction goes on: as an instruction that issues, and the thread READY from the next cycle
unless it parks again. -/
def State.asIssuing (s : State) (t : Nat) : State :=
  { s.wake t with cur := { col := colOf t, core := quarterOf t, slot := slotOf t, word := s.wordAt t } }

/-- The words of its descriptor, or of its block, that an instruction had read when it parked (RANGE), with whether they are all of them
(R359). -/
def State.keptWords (s : State) : Option (Sparse Byte × Bool) := if (s.thr s.me).retrans then (s.thr s.me).desc else none

/-- An instruction that has parked (RANGE) after it has read its words keeps them, and goes on from them (R359). -/
def State.keepWords (s : State) (got : Sparse Byte) (whole : Bool) : State :=
  if (s.thr s.me).retrans && (s.thr s.me).st == .parked .range then s.modThr s.me (fun x => { x with desc := some (got, whole) }) else s

/-- The completion word of a command: none, or its translation for W and E; then what follows (R329, R330, R378). -/
def State.completionWord (s : State) (va : Nat) (go : Option Nat → List Via → State → State) : State :=
  if va = 0 then go none [] s
  else if va % 8 ≠ 0 then s.trapMe (misaligned va)
  else match s.translate s.me va 8 (permW ||| permE) with
    | .ok g via => s.mapChecked g 8 .fe va (go (some g) via)
    | r => s.noAccess va r

/-- The bytes of a status word. -/
def statusBytes (v : Nat) : Sparse Byte := sset 0 [] 0 (BitVec.ofNat 8 v)

/-- `n` bytes at an address, as a part of a transfer of their own. -/
def onePiece (g n : Nat) : Piece := { ga := g, va := 0, off := 0, n := n }

/-- Whether an engine reaches an owner by a store on its way: another package's memory, or a memory tile, which takes it through its
pipeline (R301). -/
def Owner.byStore : Owner → Bool
  | .other _ => true | .tile _ _ => true
  | .layer _ _ => false | .bank _ _ => false | .channel _ => false | .hostPort => false | .station _ => false

/-- A completion word is written when its owner can be reached: the state, the store on its way, and whether the word has been written. -/
def State.writeStatus (s : State) (fin sent : Option Nat) (v : Nat) (a : Agent) : State × Option Nat × Bool :=
  match fin, sent with
  | none, _ => (s, none, true)
  | some _, some n => (s, some n, (s.flight n).isNone)
  | some g, none =>
    if (s.owner g).byStore then
      ((s.fresh.2).present { seq := s.fresh.1, agent := a, op := .store .d true v, ga := g, va := 0, size := 8 }, some s.fresh.1, false)
    else if s.pieceReady (onePiece g 8) then
      (((s.takeOwner g 8 false true).noteUse g).writePiece (onePiece g 8) (statusBytes v) true a, none, true)
    else (s.demand g, none, false)

/-! ### Transfers of engines: at most 64 bytes in one piece -/

/-- Bytes of a piece and the places of those from bad words: read at once from this package, or through an access to another; and the
package cycle, plus 1, of the end of the memory tile's pipeline that the piece is in (R301). -/
structure Transfer where
  flight : Option Nat
  buf : Option (Sparse Byte × List Nat)
  pipe : Nat
deriving DecidableEq, Repr

/-- A turn of a transfer at an owner of this package: the state, the end of the pipeline that the piece is in, and whether it is to be
performed now. -/
def State.engineTurn (s : State) (p : Piece) (pipe : Nat) (wr : Bool) : State × Nat × Bool :=
  if pipe ≠ 0 then (s, pipe, decide (pipe ≤ s.sched.cycle + 1) && s.ownerRuns (s.owner p.ga))
  else if s.pieceReady p then
    match s.owner p.ga with
    | .tile _ _ => (s.takeOwner p.ga p.n false wr, s.sched.cycle + 3, false)
    | _ => (s.takeOwner p.ga p.n false wr, 0, true)
  else (s.demand p.ga, 0, false)

/-- The source part of a transfer. -/
def State.engineRead (s : State) (a : Agent) (p : Piece) (x : Transfer) : State × Transfer :=
  match x.buf with
  | some _ => (s, x)
  | none =>
    match s.owner p.ga with
    | .other _ =>
      (match x.flight with
       | none =>
         ((s.fresh.2).present { seq := s.fresh.1, agent := a, op := .gather [p] [] (.engine []), ga := p.ga, va := p.va, size := p.n },
           { x with flight := some s.fresh.1 })
       | some n => (match s.flight n with
         | some f => (match f.op, f.waiting && decide (f.due ≤ s.sched.cycle) with
           | .gather [] got (.engine bad), true => (s.dropFlight n, { flight := none, buf := some (got, bad), pipe := 0 })
           | _, _ => (s, x))
         | none => (s, { flight := none, buf := some ([], upFrom p.off p.n), pipe := 0 })))
    | _ =>
      match s.engineTurn p x.pipe false with
      | (s1, _, true) =>
        let bad := (upFrom 0 p.n).filterMap (fun i => if (s.badWord (p.ga + i) 1).isSome then some (p.off + i) else none)
        ((s1.noteUse p.ga).noteRead p.ga p.n a, { flight := none, buf := some (s.readPiece p [], bad), pipe := 0 })
      | (s1, n, false) => (s1, { x with pipe := n })

/-- A piece written: its words are FULL, and those that take a byte of a bad word are poisoned (R243). -/
def State.writeMarked (s : State) (p : Piece) (data : Sparse Byte) (bad : List Nat) (a : Agent) : State :=
  let s := s.writePiece p data true a
  if bad.isEmpty then s
  else (wordsOf p.ga p.n).foldl (fun s w =>
    if bad.any (fun o => decide (w ≤ p.ga + (o - p.off) ∧ p.ga + (o - p.off) < w + 8)) then s.poisonWord w a else s) s

/-- The destination part of a transfer; the flag says that it is done. -/
def State.engineWrite (s : State) (a : Agent) (p : Piece) (x : Transfer) : State × Transfer × Bool :=
  match x.buf with
  | none => (s, x, false)
  | some (data, bad) =>
    match s.owner p.ga with
    | .other _ =>
      (match x.flight with
       | none =>
         ((s.fresh.2).present { seq := s.fresh.1, agent := a, op := .scatter [p] data true (.done [] []), ga := p.ga, va := p.va, size := p.n },
           { x with flight := some s.fresh.1 }, false)
       | some n => (match s.flight n with
         | some _ => (s, x, false)
         | none => (s, { flight := none, buf := none, pipe := 0 }, true)))
    | _ =>
      match s.engineTurn p x.pipe true with
      | (s1, _, true) => ((s1.noteUse p.ga).writeMarked p data bad a, { flight := none, buf := none, pipe := 0 }, true)
      | (s1, n, false) => (s1, { x with pipe := n }, false)

end Sys2Proof.Machine
end

