-- ==== Sys2Proof/Machine/Ranges.lean ====
section
/-! DEFINITION. Range tables as instructions and events change them (R361 to R382): RGSET, RGGET, RGPROBE, RGSPLIT, RGMERGE, RGRES, RGINV,
RGSYNC, RGCPT, residency fetches and the compactor. -/
namespace Sys2Proof.Machine

/-! ### Images of entries (R357) -/

/-- The entry that five words describe. -/
def entryOf (w0 w1 w2 w3 w4 : W64) : Entry :=
  { st := .valid, perms := w0.extractLsb' 1 5, fetch := w0.getLsbD 6, tag := w0.extractLsb' 48 12
    base := bits w0.toNat 47 8 * 256, limit := w1.toNat, offset := w2.toInt, rlo := w3.toNat, rhi := w4.toNat }

/-- Bits [48:8] and no others. -/
def limitForm (w : W64) : Bool := w.toNat % 256 == 0 && decide (w.toNat < 2 ^ 49)

/-- Whether an entry's range with RMODE = FETCH lies in the stacked memory of one column of this package. -/
def State.fetchable (s : State) (e : Entry) : Bool :=
  let a := e.target e.base
  let b := e.target (e.limit - 1)
  s.inMap a && s.inMap b && gaPkg a == s.pkg.pkgNo.toNat && gaSpace a == 0 && gaSpace b == 0 && gaPkg b == gaPkg a && gaOwner a == gaOwner b

/-- The rules of a well-formed image. -/
def State.wellFormedEntry (s : State) (w0 w1 w2 w3 w4 : W64) : Bool :=
  let e := entryOf w0 w1 w2 w3 w4
  w0.getLsbD 0 && bits w0.toNat 63 60 == 0 && !w0.getLsbD 7 && limitForm w1 && limitForm w3 && limitForm w4 &&
    decide (e.base < e.limit ∧ e.limit ≤ 2 ^ 48) && bits w2.toNat 7 0 == 0 &&
    decide (-(2 : Int) ^ 52 ≤ e.offset ∧ e.offset < (2 : Int) ^ 52) &&
    decide (0 ≤ (e.base : Int) + e.offset ∧ (e.limit : Int) - 1 + e.offset < (2 : Int) ^ 52) && (!e.fetch || s.fetchable e)

/-- Word 0 of an entry, with BUSY. -/
def Entry.word0 (e : Entry) : Nat :=
  if e.st = .invalid then 0
  else e.tag.toNat * 2 ^ 48 + e.base + bnat (e.st == .fetching || e.st == .moving || e.st == .dropping) * 128 + bnat e.fetch * 64 +
    e.perms.toNat * 2 + 1

/-- The five words of an entry. -/
def Entry.words (e : Entry) : List W64 :=
  if e.st = .invalid then [0, 0, 0, 0, 0]
  else [BitVec.ofNat 64 e.word0, BitVec.ofNat 64 e.limit, BitVec.ofInt 64 e.offset, BitVec.ofNat 64 e.rlo, BitVec.ofNat 64 e.rhi]

/-! ### What is under way through entries (R236) -/

/-- Whether every word of an access has been performed: a move of many words whose thread waits for its reply. -/
def Access.performed (a : Access) : Bool := a.op.inPieces && a.op.todo.isEmpty

/-- The numbers of the accesses and transfers under way, with the extents that entries have translated for them. -/
def State.liveVia (s : State) : List (Nat × List Via) :=
  (s.flights.filter (fun a => !a.performed)).map (fun a => (a.seq, a.via)) ++
    (s.cores.map (fun q => q.2.copies.map (fun c => (c.seq, c.via)))).flatten ++
    s.eng.swaps.map (fun w => (w.id, w.via)) ++ s.eng.comps.map (fun c => (c.seq, c.via)) ++
    (s.cols.map (fun c => c.2.sendQ.map (fun i => (i.seq, i.via)) ++ c.2.gangs.map (fun g => (g.num, g.via)))).flatten

/-- Whether an access or transfer that an entry translated is still under way. -/
def State.usedEntry (s : State) (tbl i : Nat) : Bool := s.liveVia.any (fun x => x.2.any (fun v => v.tbl == tbl && v.idx == i))

/-- The extents of everything under way changed by `f`. -/
def State.mapVia (s : State) (f : List Via → List Via) : State :=
  { s with
    flights := s.flights.map (fun a => { a with via := f a.via })
    cores := s.cores.map (fun q => (q.1, { q.2 with copies := q.2.copies.map (fun c => { c with via := f c.via }) }))
    cols := s.cols.map (fun c => (c.1, { c.2 with
      sendQ := c.2.sendQ.map (fun i => { i with via := f i.via }), gangs := c.2.gangs.map (fun g => { g with via := f g.via }) }))
    eng := { s.eng with
      swaps := s.eng.swaps.map (fun w => { w with via := f w.via }), comps := s.eng.comps.map (fun c => { c with via := f c.via }) } }

/-- Entry `i` of a table has another entry in its place: what it has translated goes on without it (R364, R367). -/
def State.releaseVia (s : State) (tbl i : Nat) : State :=
  s.mapVia (fun l => l.map (fun v => if v.tbl = tbl ∧ v.idx = i then { v with idx := 32 } else v))

/-- Entry `j` of a table takes what entry `i` has translated from address `a` on, as a split leaves it; with `a` 0 all of it, as a merge does
(R371). -/
def State.moveVia (s : State) (tbl i j a : Nat) : State :=
  s.mapVia (fun l => l.flatMap (fun v =>
    if v.tbl ≠ tbl ∨ v.idx ≠ i ∨ v.va + v.len ≤ a then [v]
    else if a ≤ v.va then [{ v with idx := j }]
    else [{ v with len := a - v.va }, { v with idx := j, va := a, len := v.va + v.len - a, ga := v.ga + (a - v.va) }]))

/-! ### RGSET, RGGET, RGPROBE, RGSPLIT, RGMERGE (R367 to R371) -/

/-- The segment of the patrol tester, when an entry translates into it (R249). -/
def State.entryPatrolled (s : State) (e : Entry) : Option PatrolSeg :=
  let meetsSeg := fun (space owner o n : Nat) => meets (e.target e.base) (e.limit - e.base) (s.ga space owner o) n
  match s.eng.patrol.seg with
  | some (.stacked c k) => if meetsSeg 0 c (k * 2 ^ 24) (2 ^ 24) then some (.stacked c k) else none
  | some (.scratch c q) => if meetsSeg 1 c (q * 2 ^ 20) (2 ^ 20) then some (.scratch c q) else none
  | none => none

/-- An entry image installed in a table. -/
def State.setEntry (s : State) (tbl i : Nat) (d a : Reg) : State :=
  let w := fun (k : Nat) => s.rd (regPlus a k)
  let e := entryOf (w 0) (w 1) (w 2) (w 3) (w 4)
  if !s.wellFormedEntry (w 0) (w 1) (w 2) (w 3) (w 4) then (s.wr d 1).finish
  else match (s.entry tbl i).st with
    | .valid => go e
    | .invalid => go e
    | .fetching => s.parkMe .range (.entryFree tbl i)
    | .moving => s.parkMe .range (.entryFree tbl i)
    | .dropping => s.parkMe .range (.entryFree tbl i)
where
  go (e : Entry) : State :=
    match s.entryPatrolled e with
    | some g => { s with eng := { s.eng with patrol := { s.eng.patrol with releasing := true } } }.parkMe .range (.patrol g)
    | none => (((s.releaseVia tbl i).putEntry tbl i e).wr d 0).finish

/-- A tag written. -/
def State.setTag (s : State) (d a : Reg) (k : BitVec 12 → State) : State :=
  if bits (s.rd a).toNat 63 12 ≠ 0 then (s.wr d 1).finish
  else
    let s := k ((s.rd a).setWidth 12)
    (s.wr d 0).finish

def execRgset (d : Reg) (t : RgTarget) (a : Reg) (s : State) : Out :=
  .next (s.supervisor (fun s =>
    match t with
    | .entry i => s.setEntry s.myCore i.toNat d a
    | .island k i => s.setEntry (80 + k.toNat) i.toNat d a
    | .ctag n => s.setTag d a (fun v => s.modThr (16 * s.myCore + n.toNat) (fun x => { x with ctag := v, ctagWas := some x.context }))
    | .itag k => s.setTag d a (fun v => s.modIsl k.toNat (fun x => { x with itag := v }))))

/-- RGGET, from the tables and tags as they stood at the start of the cycle (R365, R368). -/
def execRgget (d : Reg) (t : RgTarget) (s : State) : Out :=
  .next (match t with
    | .entry i => (s.modThr s.me (fun x => x.putRun d (s.startEntry s.myCore i.toNat).words)).finish
    | .ctag n => (s.wr d ((s.before.thr (16 * s.myCore + n.toNat)).ctag.setWidth 64)).finish
    | .island k i => s.supervisor (fun s => (s.modThr s.me (fun x => x.putRun d (s.startEntry (80 + k.toNat) i.toNat).words)).finish)
    | .itag k => s.supervisor (fun s => (s.wr d ((s.before.isl k.toNat).itag.setWidth 64)).finish))

/-- Bits [22:16] of a probe: word 0 [6:0] of the entry. -/
def Entry.low7 (e : Entry) : Nat := e.word0 % 128

/-- The two words of RGPROBE. A MOVING entry is a hit (R370). -/
def State.probe (s : State) (t va : Nat) : Nat × Nat :=
  if va < 2 ^ 20 then (0x80 * 2 ^ 56, s.windowGa t va)
  else if 2 ^ 48 ≤ va then (0x04 * 2 ^ 56, 0)
  else match s.hits (coreOf t) (s.thr t).context va with
    | [] => (0x04 * 2 ^ 56, 0)
    | [i] =>
      let e := s.startEntry (coreOf t) i
      let out := if e.st = .moving ∨ (e.winLo ≤ va ∧ va + 1 ≤ e.winHi) then 0x00 else 0x07
      (out * 2 ^ 56 + e.low7 * 2 ^ 16 + i, e.target va)
    | i :: j :: _ => (0x06 * 2 ^ 56 + j * 2 ^ 8 + i, 0)

def execRgprobe (d a : Reg) (s : State) : Out :=
  let r := s.probe s.me (s.rd a).toNat
  .next (s.modThr s.me (fun x => x.putRun d [BitVec.ofNat 64 r.1, BitVec.ofNat 64 r.2])).finish

/-- The status of RGSPLIT. -/
def splitStatus (i j : Nat) (x y : Entry) (v : Nat) : Nat :=
  if i = j ∨ x.st ≠ .valid ∨ y.st ≠ .invalid then 1
  else if v % 256 ≠ 0 ∨ ¬(x.base < v ∧ v < x.limit) then 2
  else 0

def execRgsplit (d : Reg) (i j : BitVec 5) (a : Reg) (s : State) : Out :=
  .next (s.supervisor (fun s =>
    let q := s.myCore
    let v := (s.rd a).toNat
    let x := s.entry q i.toNat
    let st := splitStatus i.toNat j.toNat x (s.entry q j.toNat) v
    ((if st = 0 then ((s.moveVia q i.toNat j.toNat v).putEntry q j.toNat { x with base := v }).putEntry q i.toNat { x with limit := v } else s).wr d (BitVec.ofNat 64 st)).finish))

/-- The status of RGMERGE. -/
def mergeStatus (i j : Nat) (x y : Entry) : Nat :=
  if i = j ∨ x.st ≠ .valid ∨ y.st ≠ .valid then 1
  else if (x.limit ≠ y.base ∧ y.limit ≠ x.base) ∨ x.tag ≠ y.tag ∨ x.offset ≠ y.offset ∨ x.perms ≠ y.perms ∨ x.fetch ≠ y.fetch ∨
    x.rlo ≠ y.rlo ∨ x.rhi ≠ y.rhi then 2
  else 0

def execRgmerge (d : Reg) (i j : BitVec 5) (s : State) : Out :=
  .next (s.supervisor (fun s =>
    let q := s.myCore
    let x := s.entry q i.toNat
    let y := s.entry q j.toNat
    let st := mergeStatus i.toNat j.toNat x y
    ((if st = 0 then ((s.moveVia q j.toNat i.toNat 0).putEntry q j.toNat {}).putEntry q i.toNat { x with base := min x.base y.base, limit := max x.limit y.limit }
      else s).wr d (BitVec.ofNat 64 st)).finish))

/-! ### Scopes and selectors (R373) -/

/-- The tables of a scope, the own one first. -/
def scopeTables (q : Nat) : Scope → List Nat
  | .core => [q]
  | .col => q :: (upFrom (q / 4 * 4) 4).filter (· != q)
  | .pkg => q :: (List.range 90).filter (· != q)
  | .chain => q :: (List.range 90).filter (· != q)
  | .sys => q :: (List.range 90).filter (· != q)

/-- The other packages of a scope. -/
def State.scopePkgs (s : State) : Scope → List Nat
  | .chain => (List.range (s.pkg.pkgCount.toNat + 1)).filter (· != s.pkg.pkgNo.toNat)
  | .core => [] | .col => [] | .pkg => [] | .sys => []

def selAny (w : W64) : Bool := w.getLsbD 60
def selTag (w : W64) : BitVec 12 := w.extractLsb' 48 12
def selVa (w : W64) : Nat := bits w.toNat 47 8 * 256
def selOk (w : W64) : Bool := bits w.toNat 63 61 == 0 && bits w.toNat 7 0 == 0

def rgTrap : TrapInfo := { cause := 0x05, sub := 0x40 }

/-- Whether an entry takes part in invalidations and window updates, with a matching tag. -/
def Entry.selected (e : Entry) (sel : W64) : Bool := e.looks && (selAny sel || e.tag == selTag sel)

def State.inval (s : State) (id : Nat) : Option Inval := s.eng.invals.find? (fun x => x.id == id)
def State.modInval (s : State) (id : Nat) (f : Inval → Inval) : State :=
  { s with eng := { s.eng with invals := s.eng.invals.map (fun x => if x.id = id then f x else x) } }

/-- Whether an invalidation or window update is complete (R374, R377). -/
def State.invalDone (s : State) (x : Inval) : Bool :=
  x.left.isEmpty && x.pkgs.isEmpty && x.dropped.isEmpty && x.later.isEmpty &&
    x.awaits.all (fun n => !s.liveVia.any (fun l => l.1 == n))

/-- The outstanding invalidations of a thread. -/
def State.invalsOf (s : State) (t : Nat) : List Inval := s.eng.invals.filter (fun x => x.thr == some t && !s.invalDone x)

/-- Complete ones that nobody waits for leave; one that came over a link is answered. -/
def State.sweepInvals (s : State) : State :=
  let gone := s.eng.invals.filter (fun x => (x.nowait || x.thr.isNone) && s.invalDone x)
  let s := gone.foldl (fun s x => match x.origin with
    | some (p, n) => s.tell (.chain p s.pkg.pkgNo.toNat n (.answer [] 0))
    | none => s) s
  { s with eng := { s.eng with invals := s.eng.invals.filter (fun x => !gone.any (fun y => y.id == x.id)) } }

/-- The thread's own RGINV or RGRES is complete. -/
def State.finishInval (s : State) (t id : Nat) : State :=
  { s with eng := { s.eng with invals := s.eng.invals.filter (fun x => x.id != id) } }.completeParked t (fun x => x)

/-! ### RGINV (R374) -/

/-- A posted store held on an entry's fetch faults (R205). -/
def State.discardHeld (s : State) (a : Access) (cause : Nat) : State :=
  match a.agent with
  | .thread t => (s.dropFlight a.seq).modThr t (fun x => { x with
      deferred := x.deferred ++ [{ cause := cause, va := BitVec.ofNat 64 a.va, at_ := a.pc }] })
  | _ => s.dropFlight a.seq

/-- The stores held on an entry. -/
def State.heldOn (s : State) (tbl i : Nat) : List Access :=
  s.flights.filter (fun a => match a.held with
    | some (t, j, _) => t == tbl && j == i
    | none => false)

/-- One entry is dropped: its fetch ends without widening its window, and an update that waits for it passes it by. -/
def State.dropEntry (s : State) (id tbl i : Nat) : State :=
  let s := s.putEntry tbl i { s.entry tbl i with st := .dropping }
  let s := { s with eng := { s.eng with fetches := s.eng.fetches.map (fun (f : Fetch) => if f.tbl = tbl ∧ f.idx = i then { f with dropped := true } else f) } }
  let s := { s with eng := { s.eng with invals := s.eng.invals.map (fun (x : Inval) => { x with later := x.later.filter (· != (tbl, i)) }) } }
  ((s.heldOn tbl i).foldl (fun s a => s.discardHeld a 0x04) s).modInval id (fun x => { x with dropped := x.dropped ++ [(tbl, i)] })

/-- A table is emptied (R364): its fetches end without widening a window, and no invalidation or update waits for its entries. -/
def State.clearTable (s : State) (tbl : Nat) : State :=
  let s := (List.range 32).foldl (fun s i => s.releaseVia tbl i) s
  { s.putTable tbl emptyTable with eng := { s.eng with
      fetches := s.eng.fetches.map (fun (f : Fetch) => if f.tbl = tbl then { f with dropped := true } else f)
      invals := s.eng.invals.map (fun (x : Inval) => { x with
        dropped := x.dropped.filter (fun e => e.1 != tbl), later := x.later.filter (fun e => e.1 != tbl) }) } }

/-- The entries of a table that an invalidation drops. -/
def State.dropMatches (s : State) (x : Inval) (tbl : Nat) : List Nat :=
  (List.range 32).filter (fun i =>
    let e := s.entry tbl i
    e.selected x.sel && decide (e.base < x.fin ∧ selVa x.sel < e.limit))

/-- A drop reaches a table. -/
def State.dropAt (s : State) (id tbl : Nat) : State :=
  match s.inval id with
  | some x => (s.dropMatches x tbl).foldl (fun s i => s.dropEntry id tbl i) s
  | none => s

/-- The messages of an invalidation or window update to the tables and packages of its scope. -/
def State.sendScope (s : State) (x : Inval) (q : Nat) : State :=
  let s := x.left.foldl (fun s tbl => s.classZero (q / 4) (tableStation tbl) (if x.res then .rgresUpdateArrive x.id tbl else .rangeDropArrive x.id tbl)) s
  x.pkgs.foldl (fun s p =>
    if s.linkUp p then
      s.tell (.chain p s.pkg.pkgNo.toNat x.id (.tables x.res x.sel (BitVec.ofNat 64 (if x.res then x.rlo + bnat x.rmode else x.fin)) (BitVec.ofNat 64 x.rhi)))
    else s.modInval x.id (fun y => { y with pkgs := y.pkgs.filter (· != p) })) s

/-- An invalidation is entered in the list of those under way. -/
def State.addInval (s : State) (x : Inval) : State := { s with eng := { s.eng with invals := s.eng.invals.filter (fun y => y.id != x.id) ++ [x] } }

/-- The thread goes on, or waits for the end. -/
def State.afterInval (s : State) (id : Nat) (nowait : Bool) : State :=
  match s.inval id with
  | some x =>
    if nowait then s.finish
    else if s.invalDone x then { s with eng := { s.eng with invals := s.eng.invals.filter (fun y => y.id != id) } }.finish
    else s.parkMe .mem (.inval id)
  | none => s.finish

def execRginv (sc : Scope) (nw : Bool) (d a : Reg) (s : State) : Out :=
  .next (s.supervisor (fun s =>
    let sel := s.rd d
    let fin := s.rd a
    let q := s.myCore
    if !selOk sel || !limitForm fin || decide (fin.toNat = 0 ∨ 2 ^ 48 < fin.toNat ∨ fin.toNat ≤ selVa sel) then s.trapMe rgTrap
    else if !(s.outstanding s.me).isEmpty then s.parkMe .mem .drain
    else if 8 ≤ (s.invalsOf s.me).length then s.parkMe .mem (.invalidations 7)
    else
      let id := s.fresh.1
      let x : Inval := {
        id := id, thr := some s.me, sel := sel, fin := fin.toNat, res := false, rmode := false, rlo := 0, rhi := 0, nowait := nw
        left := (scopeTables q sc).drop 1, pkgs := s.scopePkgs sc }
      (((s.fresh.2.addInval x).dropAt id q).sendScope x q).afterInval id nw))

/-- A drop reaches a table, which answers. -/
def execRangeDropArrive (id tbl : Nat) (s : State) : Out :=
  .next (match s.inval id with
    | some x =>
      (s.dropAt x.id tbl).classZero (tableStation tbl) ((s.invalHome id).getD 30) (.rangeDropAck id tbl)
    | none => s)

/-- The answer of a table. -/
def execRangeDropAck (id tbl : Nat) (s : State) : Out :=
  .next (s.modInval id (fun x => { x with left := x.left.filter (· != tbl) }))

/-- Whether a dropping entry can become INVALID (R364). -/
def State.dropEnded (s : State) (tbl i : Nat) : Bool :=
  (s.entry tbl i).st == .dropping && !s.usedEntry tbl i && !s.eng.fetches.any (fun f => f.tbl == tbl && f.idx == i)

/-- A dropped entry becomes INVALID when everything under way through it has ended. -/
def execRangeEntryInvalid (tbl i : Nat) (s : State) : Out :=
  .next (if s.dropEnded tbl i then
    let s := s.putEntry tbl i {}
    { s with eng := { s.eng with invals := s.eng.invals.map (fun x => { x with dropped := x.dropped.filter (· != (tbl, i)) }) } }
  else s)

/-- The dropping entries that can become INVALID now. -/
def State.invalidScan (s : State) : List Event :=
  (((s.eng.invals.map (·.dropped)).flatten).eraseDups.filter (fun e => s.dropEnded e.1 e.2)).map (fun e => .rangeEntryInvalid e.1 e.2)

/-! ### RGSYNC (R375) -/

def execRgsync (s : State) : Out :=
  .next (if (s.invalsOf s.me).isEmpty then s.finish else s.parkMe .mem (.invalidations 0))

/-! ### RGRES (R377) -/

/-- The new window of an entry. -/
def Inval.window (x : Inval) (e : Entry) : Entry := { e with rlo := x.rlo, rhi := x.rhi, fetch := x.rmode }

/-- The numbers of the accesses and transfers under way through an entry that have a byte outside its new window. -/
def State.awaited (s : State) (tbl i : Nat) (e : Entry) : List Nat :=
  (s.liveVia.filter (fun x => x.2.any (fun v =>
    v.tbl == tbl && v.idx == i && !decide (e.winLo ≤ v.va ∧ v.va + v.len ≤ e.winHi)))).map (·.1)

/-- The entries of a table that a window update names. -/
def State.resMatches (s : State) (x : Inval) (tbl : Nat) : List Nat :=
  (List.range 32).filter (fun i =>
    let e := s.entry tbl i
    e.selected x.sel && decide (e.base ≤ selVa x.sel ∧ selVa x.sel < e.limit))

/-- One entry takes its window, now or when its fetch or move ends. -/
def State.resEntry (s : State) (id tbl i : Nat) : State :=
  match s.inval id with
  | none => s
  | some x =>
    let e := s.entry tbl i
    if e.st = .valid then
      (s.putEntry tbl i (x.window e)).modInval id (fun y => { y with awaits := y.awaits ++ s.awaited tbl i (x.window e) })
    else s.modInval id (fun y => { y with later := y.later ++ [(tbl, i)] })

/-- A window update reaches a table. -/
def State.resAt (s : State) (id tbl : Nat) : State :=
  match s.inval id with
  | some x => (s.resMatches x tbl).foldl (fun s i => s.resEntry id tbl i) s
  | none => s

def execRgres (sc : Scope) (d a : Reg) (s : State) : Out :=
  .next (s.supervisor (fun s =>
    let sel := s.rd d
    let w0 := s.rd a
    let w1 := s.rd (regPlus a 1)
    let q := s.myCore
    if !selOk sel || !limitForm (w0 &&& ~~~1#64) || !limitForm w1 then s.trapMe rgTrap
    else
      let id := s.fresh.1
      let x : Inval := {
        id := id, thr := some s.me, sel := sel, fin := 0, res := true, rmode := w0.getLsbD 0, rlo := w0.toNat / 256 * 256, rhi := w1.toNat
        nowait := false, left := (scopeTables q sc).drop 1, pkgs := s.scopePkgs sc }
      (((s.fresh.2.addInval x).resAt id q).sendScope x q).afterInval id false))

/-- A window update reaches another table of its scope. -/
def execRgresUpdateArrive (id tbl : Nat) (s : State) : Out :=
  .next ((s.resAt id tbl).modInval id (fun x => { x with left := x.left.filter (· != tbl) }))

/-- The window updates that waited for the entry to become VALID. -/
def State.lateUpdates (s : State) (tbl i : Nat) : State :=
  (s.eng.invals.filter (fun x => x.later.contains (tbl, i))).foldl (fun s x =>
    (s.modInval x.id (fun y => { y with later := y.later.filter (· != (tbl, i)) })).resEntry x.id tbl i) s

/-! ### Ends of residency fetches (R362) -/

/-- A held store translates again. -/
def State.retryHeld (s : State) (a : Access) (tbl i : Nat) : State :=
  let e := s.entry tbl i
  if e.st = .fetching then s.modFlight a.seq (fun b => { b with held := some (tbl, i, s.fetchCovers tbl i a.va a.size) })
  else if e.winLo ≤ a.va ∧ a.va + a.size ≤ e.winHi then
    if a.waiting then s.modFlight a.seq (fun b => { b with held := none }) else s.present { a with held := none }
  else match s.through e tbl i a.va a.size permW with
    | .fetch _ _ lo hi x y _ => (s.startFetch tbl i lo hi x y).modFlight a.seq (fun b => { b with held := some (tbl, i, true) })
    | _ => s.discardHeld a 0x07

/-- The stores held on an entry translate again, in order. -/
def State.releaseHeld (s : State) (tbl i : Nat) : State := (s.heldOn tbl i).foldl (fun s a => s.retryHeld a tbl i) s

/-- Whether two entries have the same tag, range, offset and window. -/
def sameRange (a b : Entry) : Bool :=
  a.tag == b.tag && a.base == b.base && a.limit == b.limit && a.offset == b.offset && a.rlo == b.rlo && a.rhi == b.rhi

/-- The window of a fetch in every entry of the package that equals its own before the fetch. -/
def State.widen (s : State) (f : Fetch) : State :=
  (List.range 90).foldl (fun s tbl =>
    if (s.table tbl).any (fun x => x.looks && sameRange x f.old) then
      s.putTable tbl ((s.table tbl).map (fun x => if x.looks && sameRange x f.old then { x with rlo := f.newLo, rhi := f.newHi } else x))
    else s) s

def State.fetch (s : State) (id : Nat) : Option Fetch := s.eng.fetches.find? (fun f => f.id == id)
def State.dropFetch (s : State) (id : Nat) : State := { s with eng := { s.eng with fetches := s.eng.fetches.filter (fun f => f.id != id) } }

/-- Whether the last burst of a fetch is written in this cycle. -/
def State.fetchEnded (s : State) (f : Fetch) : Bool :=
  !f.failed && f.ptrs.all (fun p => decide (p.2 ≤ p.1)) &&
    s.eng.bursts.all (fun b => !(b.fetch && b.num == f.id) || (decide (b.till ≤ s.sched.cycle) && !(s.col b.col).frozen))

/-- The fetches that complete in this cycle. -/
def State.fetchScan (s : State) : List Event :=
  (s.eng.fetches.filter (fun f => s.fetchEnded f)).map (fun f => .residencyFetchComplete f.id)

/-- A residency fetch completes. -/
def execResidencyFetchComplete (id : Nat) (s : State) : Out :=
  .next (match s.fetch id with
    | some f =>
      if !s.fetchEnded f then s
      else
        let s := s.dropFetch id
        if f.dropped then s
        else
          let s := s.widen f
          let s := s.putEntry f.tbl f.idx { s.entry f.tbl f.idx with st := .valid, rlo := f.newLo, rhi := f.newHi }
          (s.lateUpdates f.tbl f.idx).releaseHeld f.tbl f.idx
    | none => s)

/-- An agent that waits for this fetch meets PARTIAL_RESIDENCY. -/
def State.failWaiters (s : State) (tbl i : Nat) : State :=
  let l := s.threads.filterMap (fun x => match x.2.wait with
    | .entry t j true va => if t = tbl ∧ j = i then some (x.1, va) else none
    | _ => none)
  let s := l.foldl (fun s x => s.trap x.1 { cause := 0x07, sub := 0x31, detail := i, w2 := BitVec.ofNat 64 x.2 }) s
  let s := (s.heldOn tbl i).foldl (fun s a => match a.held with
    | some (_, _, true) => s.discardHeld a 0x07
    | _ => s) s
  let s := s.failFetchingGangs tbl i
  if tbl < 80 then s
  else s.modIsl (tbl - 80) (fun k => { k with nodes := k.nodes.map (fun n => match n.2.fetchWait with
    | some (j, true) => if j = i then (n.1, { n.2 with fetchWait := none, got := n.2.got ++ [(0, 7)] }) else n
    | _ => n) })

/-- A residency fetch fails: no byte has moved, and the window stays. -/
def execResidencyFetchFail (id : Nat) (s : State) : Out :=
  .next (match s.fetch id with
    | some f =>
      if !f.failed then s
      else if f.dropped then s.dropFetch id
      else
        let s := (s.failWaiters f.tbl f.idx).dropFetch id
        let s := s.putEntry f.tbl f.idx { s.entry f.tbl f.idx with st := .valid }
        (s.lateUpdates f.tbl f.idx).releaseHeld f.tbl f.idx
    | none => s)

/-! ### The compactor (R378 to R380) -/

def compTrap : TrapInfo := { cause := 0x15, sub := 0x30 }

/-- Whether a region lies in this package, in one owner's extent of spaces 0 to 3. -/
def State.regionOk (s : State) (g len : Nat) : Bool :=
  s.inMap g && s.inMap (g + len - 1) && gaPkg g == s.pkg.pkgNo.toNat && decide (gaSpace g ≤ 3) &&
    g / 2 ^ 39 == (g + len - 1) / 2 ^ 39

/-- RGCPT with its descriptor (R378). -/
def State.compDescribed (s : State) (got : Sparse Byte) : State :=
  let src := descWord got 0
  let dst := descWord got 1
  let len := descWord got 2 * 256
  if 2 ^ 52 ≤ src ∨ 2 ^ 52 ≤ dst ∨ src % 256 ≠ 0 ∨ dst % 256 ≠ 0 ∨ len = 0 ∨ 2 ^ 28 ≤ descWord got 2 ∨ !s.regionOk src len ∨ !s.regionOk dst len ∨
    gaSpace src ≠ gaSpace dst then s.trapMe compTrap
  else s.completionWord (descWord got 3) (fun fin via s =>
    if 8 ≤ s.eng.comps.length then s.parkMe .mem (.queue 2)
    else if !(s.outstanding s.me).isEmpty then s.parkMe .mem .drain
    else
      let c : CompCmd := { src := src, dst := dst, len := len, fin := fin, seq := s.fresh.1, via := via }
      let s := s.fresh.2
      { s with eng := { s.eng with comps := s.eng.comps ++ [c] } }.finish)

def execRgcpt (a : Reg) (s : State) : Out :=
  .next (s.supervisor (fun s => match s.keptWords with
    | some (got, _) => (s.compDescribed got).keepWords got true
    | none => s.readDescriptor (s.rd a).toNat 4 2 true))

/-- What an entry translates to. -/
def Entry.lo (e : Entry) : Nat := e.target e.base
def Entry.len (e : Entry) : Nat := e.limit - e.base

/-- Whether an entry's target lies inside a region. -/
def Entry.inside (e : Entry) (g n : Nat) : Bool := decide (g ≤ e.lo ∧ e.lo + e.len ≤ g + n)

/-- Every entry of the package, with its table and number. -/
def State.allEntries (s : State) : List (Nat × Nat × Entry) :=
  ((List.range 90).map (fun tbl => (List.range 32).map (fun i => (tbl, i, s.entry tbl i)))).flatten.filter (fun x => x.2.2.st != .invalid)

/-- The head command changed. -/
def State.modComp (s : State) (f : CompCmd → CompCmd) : State :=
  { s with eng := { s.eng with comps := match s.eng.comps with
    | c :: cs => f c :: cs
    | [] => [] } }

/-- Whether a command refuses because of an entry that looks up. -/
def CompCmd.refused (c : CompCmd) (e : Entry) : Bool :=
  (meets e.lo e.len c.src c.len && !e.inside c.src c.len) || (meets e.lo e.len c.dst c.len && !e.inside c.src c.len)

/-- Whether the head command can be taken: no fetch is under way through an entry that it meets. -/
def State.compTakeable (s : State) : Bool :=
  match s.eng.comps with
  | c :: _ => c.st == .queued &&
      !(s.allEntries.any (fun x => x.2.2.st == .fetching && (meets x.2.2.lo x.2.2.len c.src c.len || meets x.2.2.lo x.2.2.len c.dst c.len)))
  | [] => false

/-- A command leaves the queue once its completion word is written. -/
def State.finishComp (s : State) (c : CompCmd) (v : Nat) : State :=
  let r := s.writeStatus c.fin c.sent v .compactor
  if r.2.2 then { r.1 with eng := { r.1.eng with comps := r.1.eng.comps.drop 1 } } else r.1.modComp (fun c => { c with sent := r.2.1 })

/-- The compactor takes a command: it refuses it, or marks the entries inside the source. -/
def execCompactorTake (s : State) : Out :=
  .next (if !s.compTakeable then s
    else match s.eng.comps with
      | c :: _ =>
        let l := s.allEntries
        if c.sent.isSome || l.any (fun x => x.2.2.looks && c.refused x.2.2) then s.finishComp c 5
        else
          let marked := (l.filter (fun x => x.2.2.st == .valid && x.2.2.inside c.src c.len)).map (fun x => (x.1, x.2.1))
          let old := (l.filter (fun x => x.2.2.st == .dropping && (meets x.2.2.lo x.2.2.len c.src c.len || meets x.2.2.lo x.2.2.len c.dst c.len))).map
            (fun x => (x.1, x.2.1))
          (marked.foldl (fun s x => s.putEntry x.1 x.2 { s.entry x.1 x.2 with st := .moving }) s).modComp (fun c => { c with st := .drain marked old })
      | [] => s)

/-- Whether a running swap or a fetch meets a region. -/
def State.swapMeets (s : State) (g n : Nat) : Bool :=
  s.eng.swaps.any (fun w => (match w.st with
    | .running _ => true
    | .queued => false
    | .holding _ _ => false
    | .drainwait => false) && (meets w.stacked w.len g n || meets w.gddr w.len g n)) ||
    s.eng.fetches.any (fun f => f.ptrs.any (fun p => meets (s.ga 0 f.col p.1) (p.2 - p.1) g n ||
      meets (s.ga 3 0 (s.homeOff f.col p.1)) (p.2 - p.1) g n)) ||
    s.eng.bursts.any (fun b => meets (s.ga 0 b.col b.off) b.len g n)

/-- The numbers of the commands whose only access through range entries is a completion word that is not written yet. -/
def State.idleCommands (s : State) : List Nat :=
  s.eng.comps.map (·.seq) ++ (s.eng.swaps.filter (fun w => match w.st with
    | .running _ => false
    | .queued => true
    | .holding _ _ => true
    | .drainwait => true)).map (·.id)

/-- Whether anything under way has been translated into a region, by any entry that stands or has stood (R237). -/
def State.regionUsed (s : State) (g n : Nat) : Bool :=
  s.liveVia.any (fun x => !s.idleCommands.contains x.1 && x.2.any (fun v => meets v.ga v.len g n))

/-- Whether the drain of the head command is over (R237, R379). -/
def State.compDrained (s : State) : Bool :=
  match s.eng.comps with
  | c :: _ => (match c.st with
    | .drain _ _ => !s.regionUsed c.src c.len && !s.regionUsed c.dst c.len && !s.swapMeets c.src c.len && !s.swapMeets c.dst c.len
    | .queued => false
    | .move _ => false
    | .rewritten => false)
  | [] => false

/-- The move of the head command starts. -/
def execCompactorDrainDone (s : State) : Out :=
  .next (if !s.compDrained then s
    else match s.eng.comps with
      | c :: _ => (match c.st with
        | .drain marked _ => (s.modComp (fun c => { c with st := .move marked })).later (c.len / 64) .compactorMoveDone
        | _ => s)
      | [] => s)

/-- Bytes and marks of whole words copied, as a move that handles overlap, and whether a bad word was among them (R243). -/
def State.copyRegion (s : State) (src dst len : Nat) (a : Agent) : State × Bool :=
  let data := (List.range len).map (fun i => s.byte (src + i))
  let bads := (List.range (len / 8)).filter (fun i => (s.badWord (src + 8 * i) 8).isSome)
  let s1 := (s.noteRead src len a).corrected src len
  let s2 := ((List.range len).zip data).foldl (fun s b => s.putByte (dst + b.1) b.2) s1
  let s3 := (List.range (len / 8)).foldl (fun s i => s.setMark (dst + 8 * i) .clean) s2
  (bads.foldl (fun s i => (if hasFe dst then s.setFull (dst + 8 * i) true else s).poisonWord (dst + 8 * i) a) s3, !bads.isEmpty)

/-- Places of a region, one in each of its 64 KiB blocks. -/
def regionPlaces (g n : Nat) : List Nat :=
  ((List.range (n / 65536 + 2)).map (fun i => max g (65536 * (g / 65536 + i)))).filter (fun a => decide (a < g + n))

/-- The segments and owners that a move reaches can be reached now (R246, R249). -/
def State.moveReachable (s : State) (g n : Nat) : Bool :=
  (regionPlaces g n).all (fun a => s.ownerRuns (s.owner a) && !s.retaining a && !s.patrolled a)

/-- A demand on everything that a move reaches. -/
def State.moveDemand (s : State) (g n : Nat) : State :=
  (regionPlaces g n).foldl (fun s a => s.demand a) s

/-- The segments that a move reaches are in use (R244). -/
def State.moveNoted (s : State) (g n : Nat) : State := (regionPlaces g n).foldl (fun s a => s.noteUse a) s

/-- The rewrite of a marked entry that still stands MOVING. -/
def State.rewrite (s : State) (c : CompCmd) (x : Nat × Nat) : State :=
  let e := s.entry x.1 x.2
  if e.st = .moving then
    (s.putEntry x.1 x.2 { e with st := .valid, offset := e.offset + ((c.dst : Int) - c.src) }).lateUpdates x.1 x.2
  else s

/-- The bytes have moved: every marked entry is rewritten, and the command ends. -/
def execCompactorMoveDone (s : State) : Out :=
  .next (match s.eng.comps with
    | c :: _ => (match c.st with
      | .move marked =>
        if s.moveReachable c.src c.len && s.moveReachable c.dst c.len then
          let r := s.copyRegion c.src c.dst c.len .compactor
          let s := marked.foldl (fun s x => s.rewrite c x) ((r.1.moveNoted c.src c.len).moveNoted c.dst c.len)
          s.modComp (fun c => { c with st := .rewritten, bad := r.2 })
        else ((s.moveDemand c.src c.len).moveDemand c.dst c.len).after 1 .compactorMoveDone
      | .rewritten => s.finishComp c (if c.bad then 3 else 1)
      | .queued => s
      | .drain _ _ => s)
    | [] => s)

/-- The compactor's steps of a cycle. -/
def State.compScan (s : State) : List Event :=
  (if s.compTakeable then [.compactorTake] else []) ++ (if s.compDrained then [.compactorDrainDone] else []) ++
    (match s.eng.comps with
     | c :: _ => if c.st = .rewritten then [.compactorMoveDone] else []
     | [] => [])

end Sys2Proof.Machine
end

