-- ==== Sys2Proof/Machine/Transit.lean ====
section
/-! DEFINITION. Transit channels (R312 to R327): bindings, sends, deliveries, credits, folds and flushes. -/
namespace Sys2Proof.Machine

def engTrap (sub detail : Nat) : TrapInfo := { cause := 0x15, sub := sub, detail := detail }

def State.out (s : State) (c o : Nat) : OutChan := (s.col c).outs.toList.getD o {}
def State.inc (s : State) (c i : Nat) : InChan := (s.col c).ins.toList.getD i {}
def State.putOut (s : State) (c o : Nat) (x : OutChan) : State := s.modCol c (fun y => { y with outs := y.outs.setIfInBounds o x })
def State.putIn (s : State) (c i : Nat) (x : InChan) : State := s.modCol c (fun y => { y with ins := y.ins.setIfInBounds i x })

/-- Every branch has its whole window (R323). -/
def OutChan.idle (x : OutChan) : Bool := x.branches.all (fun b => b.credits == b.w)

/-- Slots of an inbound channel in a state. -/
def InChan.number (x : InChan) (w : WinSt) : Nat := (x.slots.filter (fun n => n.st == w)).length

def InChan.slot (x : InChan) (n : Nat) : WinSlot := x.slots.getD n {}
def InChan.setSlot (x : InChan) (n : Nat) (v : WinSlot) : InChan := { x with slots := x.slots.set n v }

/-- The offset of a reserved slot (R313). -/
def slotOff (i n : Nat) : Nat := i / 2 * 0x100000 + 0x80000 + i % 2 * 0x40000 + n * 0x1000

/-! ### XBIND (R323) -/

/-- The branches of a descriptor: column, inbound channel and window. -/
def branchFields (d : W64) (n : Nat) : List Branch :=
  (List.range n).map (fun b =>
    let f := bits d.toNat (16 * b + 15) (16 * b)
    let w := f % 64 + 1
    { col := f / 2 ^ 11, inc := bits f 10 8, w := w, credits := w })

/-- Whether a descriptor is malformed for a column. -/
def bindBad (d : W64) (n c : Nat) : Bool :=
  let l := branchFields d n
  decide (d.toNat / 2 ^ (16 * n) ≠ 0) || (List.range n).any (fun b => bits d.toNat (16 * b + 7) (16 * b + 6) != 0) ||
    l.any (fun b => decide (19 < b.col) || b.col == c) || decide ((l.map (fun b => (b.col, b.inc))).eraseDups.length ≠ l.length)

/-- The inbound channels of a binding released. -/
def State.unbind (s : State) (x : OutChan) : State := x.branches.foldl (fun s b => s.putIn b.col b.inc { (s.inc b.col b.inc) with
  bound := false, half := false, prod := 0, out := 0, branch := 0, w := 0, head := 0, recv := 0, fill := 0, slots := [], lastFold := 0, folds := 0 }) s

/-- Whether an inbound channel belongs to another binding. -/
def InChan.taken (x : InChan) (c o : Nat) : Bool := x.bound && !(x.prod == c && x.out == o)

/-- A binding made, the old one released. -/
def State.bind (s : State) (c o : Nat) (l : List Branch) : State :=
  let s := s.unbind (s.out c o)
  let s := ((List.range l.length).zip l).foldl (fun s b => s.putIn b.2.col b.2.inc { (s.inc b.2.col b.2.inc) with
    bound := true, half := false, prod := c, out := o, branch := b.1, w := b.2.w, head := 0, recv := 0, fill := 0
    slots := List.replicate b.2.w {}, lastFold := 0, folds := 0 }) s
  let live := fun (id : Nat) => s.eng.swaps.any (fun w => w.id == id)
  s.putOut c o { (s.out c o) with
    bound := !l.isEmpty, half := [], floor := 0, branches := l.map (fun b => { b with holds := (s.inc b.col b.inc).holds.filter live }) }

/-- The refusal of a binding before the thread's stores are waited for, and after. -/
def State.bindRefusal (s : State) (c o n : Nat) (d : W64) : Option TrapInfo :=
  if bindBad d n c then some (engTrap 5 o)
  else if (s.out c o).bound && !(s.out c o).idle then some (engTrap 6 o)
  else none

def State.bindTaken (s : State) (c o n : Nat) (d : W64) : Bool := (branchFields d n).any (fun b => (s.inc b.col b.inc).taken c o)

def execXbind (o : PReg) (a : Reg) (n : BitVec 3) (s : State) : Out :=
  .next (s.supervisor (fun s =>
    let c := s.cur.col
    let d := s.rd a
    match s.bindRefusal c o.toNat n.toNat d with
    | some i => s.trapMe i
    | none =>
      if !(s.outstanding s.me).isEmpty then s.parkMe .mem .drain
      else if s.bindTaken c o.toNat n.toNat d then s.trapMe (engTrap 5 o.toNat)
      else (s.bind c o.toNat (branchFields d n.toNat)).finish))

/-! ### XSEND, XFOLD, XFLUSH (R323, R326) -/

/-- Whether an XSEND may go: a count on every branch, no hold and no gate (R323, R332, R438). -/
def OutChan.mayGo (x : OutChan) : Bool :=
  !x.gate && x.holds.isEmpty && x.half.isEmpty && x.branches.all (fun b => decide (0 < b.credits) && b.holds.isEmpty)

/-- An item for the transit sender. -/
def State.queueSend (s : State) (c : Nat) (i : SendItem) : State := s.modCol c (fun x => { x with sendQ := x.sendQ ++ [i] })

def execXsend (o : PReg) (a d : Reg) (s : State) : Out :=
  let c := s.cur.col
  let x := s.out c o.toNat
  let w := (s.rd d).toNat
  let len := w % 8192
  let tag := w / 2 ^ 32
  let va := (s.rd a).toNat
  .next (if !x.bound then s.trapMe (engTrap 1 o.toNat)
    else if bits w 31 13 ≠ 0 ∨ len = 0 ∨ 4096 < len ∨ len % 64 ≠ 0 then s.trapMe (engTrap 2 o.toNat)
    else if tag < x.floor.toNat then s.trapMe (engTrap 3 o.toNat)
    else if va % 64 ≠ 0 then s.trapMe (misaligned va)
    else match s.translate s.me va len (permR ||| permE) with
      | .ok g via => s.mapChecked g len .bulk va (fun s =>
          if !x.mayGo then s.parkMe .window (.window o.toNat)
          else if !(s.outstanding s.me).isEmpty then s.parkMe .mem .drain
          else
            let s := s.putOut c o.toNat { x with
              floor := BitVec.ofNat 32 tag, branches := x.branches.map (fun b => { b with credits := b.credits - 1 }) }
            ((s.fresh.2).queueSend c { kind := .data, thr := some s.me, out := o.toNat, src := g, len := len, tag := tag, seq := s.fresh.1,
                                       from_ := s.sched.cycle + 1, via := via, win := inWindow va }).parkMe .mem .reply)
      | r => s.noAccess va r)

def execXfold (o : PReg) (a : Reg) (s : State) : Out :=
  let c := s.cur.col
  let x := s.out c o.toNat
  .next (if !x.bound then s.trapMe (engTrap 1 o.toNat)
    else if 2 ^ 32 ≤ (s.rd a).toNat then s.trapMe (engTrap 2 o.toNat)
    else if !(s.outstanding s.me).isEmpty then s.parkMe .mem .drain
    else
      let s := s.putOut c o.toNat { x with floor := (s.rd a).setWidth 32 }
      ((s.fresh.2).queueSend c { kind := .fold, thr := none, out := o.toNat, tag := (s.rd a).toNat, seq := s.fresh.1,
                                 from_ := s.sched.cycle + 1 }).finish)

def execXflush (o : PReg) (s : State) : Out :=
  let c := s.cur.col
  let x := s.out c o.toNat
  .next (if !x.bound then s.trapMe (engTrap 1 o.toNat)
    else if !(s.outstanding s.me).isEmpty then s.parkMe .mem .drain
    else
      let s := s.modCol c (fun y => { y with flushes := y.flushes ++ [{ thr := some s.me, out := o.toNat, left := List.range x.branches.length }] })
      ((s.fresh.2).queueSend c { kind := .flush, thr := none, out := o.toNat, tag := 0, seq := s.fresh.1,
                                 from_ := s.sched.cycle + 1 }).parkMe .mem .reply)

/-! ### XRECV, XFREE, XSTAT (R324, R325, R327) -/

def execXrecv (d : Reg) (i : PReg) (s : State) : Out :=
  let c := s.cur.col
  let x := s.inc c i.toNat
  let v := x.slot x.recv
  .next (if !x.bound then s.trapMe (engTrap 1 i.toNat)
    else if v.st ≠ .filled ∨ x.half then s.parkMe .transit (.transit i.toNat)
    else
      let s := s.putIn c i.toNat { (x.setSlot x.recv { v with st := .claimed }) with recv := (x.recv + 1) % x.w }
      (s.modThr s.me (fun t => t.putRun d [BitVec.ofNat 64 (s.ga 1 c (slotOff i.toNat x.recv)),
        BitVec.ofNat 64 (v.tag * 2 ^ 32 + bnat v.err * 2 ^ 31 + v.len)])).finish)

def execXfree (i : PReg) (s : State) : Out :=
  let c := s.cur.col
  let x := s.inc c i.toNat
  .next (if !x.bound then s.trapMe (engTrap 1 i.toNat)
    else if x.number .claimed = 0 then s.trapMe (engTrap 4 i.toNat)
    else if !(s.outstanding s.me).isEmpty then s.parkMe .mem .drain
    else
      let s := s.putIn c i.toNat { (x.setSlot x.head { (x.slot x.head) with st := .returning }) with head := (x.head + 1) % x.w }
      (s.after (3 * hops c x.prod) (.transitCredit x.prod x.out x.branch 1 false true)).finish)

/-- The word of an outbound channel. -/
def OutChan.stat (x : OutChan) : Nat :=
  if !x.bound then 0
  else x.floor.toNat * 2 ^ 32 + 2 ^ 31 + x.branches.length * 2 ^ 28 +
    (((List.range x.branches.length).zip x.branches).foldl (fun n b => n + b.2.credits * 2 ^ (7 * b.1)) 0)

/-- The word of an inbound channel. -/
def InChan.stat (x : InChan) : Nat :=
  if !x.bound then 0
  else x.lastFold.toNat * 2 ^ 32 + 2 ^ 31 + x.number .filled * 2 ^ 24 + x.number .claimed * 2 ^ 17 + (x.w - 1) * 2 ^ 11 + x.prod * 2 ^ 6 +
    x.out * 2 ^ 3 + x.folds.toNat

def execXstat (d : Reg) (inb : Bool) (c : PReg) (s : State) : Out :=
  .next (s.wr d (BitVec.ofNat 64 (if inb then (s.inc s.cur.col c.toNat).stat else (s.out s.cur.col c.toNat).stat))).finish

/-! ### The transit sender (R318) -/

/-- The head of the sender's list changed or gone. -/
def State.modSend (s : State) (c : Nat) (f : SendItem → List SendItem) : State :=
  s.modCol c (fun x => { x with sendQ := match x.sendQ with
    | i :: is => f i ++ is
    | [] => [] })

/-- Eight words of a packet with their marks. -/
def packetWords (got : Sparse Byte) (bad : List Nat) : List (W64 × Bool) :=
  (List.range 8).map (fun j =>
    (BitVec.ofNat 64 (descWord got j), bad.any (fun o => decide (8 * j ≤ o ∧ o < 8 * j + 8))))

/-- The last packet of a send has been read: its thread goes on. -/
def State.sendOver (s : State) (i : SendItem) : State :=
  match i.thr with
  | some t => if (s.thr t).wait = .reply then s.completeParked t id else s
  | none => s

/-- A data packet, once its bytes have been read. -/
def State.sendData (s : State) (c : Nat) (i : SendItem) (x : OutChan) : State :=
  let n := x.branches.length
  if n = 0 then (s.modSend c (fun _ => [])).sendOver i else
  let off := 64 * (i.done / n)
  let r := s.engineRead (.transit c) (onePiece (onGa i.win i.src off) 64) { flight := i.flight, buf := i.buf, pipe := i.pipe }
  match r.2.buf, x.branches[i.done % n]? with
  | some (got, bad), some b =>
    let p : TransitPkt := {
      prod := c, out := i.out, branch := i.done % n, cons := b.col, inc := b.inc, tag := i.tag, len := i.len, off := off
      emit := r.1.fresh.1, data := packetWords got bad }
    let s := (r.1.fresh.2).modCol b.col (fun y => { y with arriving := y.arriving ++ [(s.sched.cycle + 3 * hops c b.col + 2, p)] })
    if i.done + 1 = n * (i.len / 64) then (s.modSend c (fun _ => [])).sendOver i
    else
      let kept := if (i.done + 1) % n = 0 then none else some (got, bad)
      s.modSend c (fun i => [{ i with done := i.done + 1, flight := none, pipe := 0, buf := kept }])
  | _, _ => r.1.modSend c (fun i => [{ i with flight := r.2.flight, buf := r.2.buf, pipe := r.2.pipe }])

/-- A fold or flush message to one branch. -/
def State.sendMessage (s : State) (c : Nat) (i : SendItem) (x : OutChan) : State :=
  match x.branches[i.done]? with
  | some b =>
    let e : Event := if i.kind = .fold then .transitFoldApply b.col b.inc i.tag s.fresh.1 else .transitFlushApply b.col b.inc s.fresh.1
    let s := (s.fresh.2).after (3 * hops c b.col) e
    if i.done + 1 = x.branches.length then s.modSend c (fun _ => []) else s.modSend c (fun i => [{ i with done := i.done + 1 }])
  | none => s.modSend c (fun _ => [])

/-- One packet cycle of a column's transit sender. -/
def execTransitSenderPacket (c : Nat) (s : State) : Out :=
  .next (match (s.col c).sendQ with
    | i :: _ =>
      if s.sched.cycle < i.from_ then s
      else if i.kind = .data then s.sendData c i (s.out c i.out)
      else s.sendMessage c i (s.out c i.out)
    | [] => s)

/-! ### Arrivals (R316, R317) -/

/-- The producer and the place in the order of emission of a fold or flush on its way to column `c`. -/
def State.foldFrom (s : State) (c : Nat) : Event → Option (Nat × Nat)
  | .transitFoldApply c' i _ e => if c' = c then some ((s.inc c i).prod, e) else none
  | .transitFlushApply c' i e => if c' = c then some ((s.inc c i).prod, e) else none
  | _ => none

/-- Whether a packet is the next of its path to be performed. -/
def State.packetTurn (s : State) (p : TransitPkt) : Bool :=
  !(s.col p.cons).arriving.any (fun q => q.2.prod == p.prod && decide (q.2.emit < p.emit)) &&
    !s.sched.agenda.any (fun e => match s.foldFrom p.cons e.2 with
      | some (q, n) => q == p.prod && decide (n < p.emit)
      | none => false)

/-- Whether every packet emitted before a fold or flush has been written, and every fold and flush before it applied (R317). -/
def State.foldTurn (s : State) (c i emit : Nat) : Bool :=
  !(s.col c).arriving.any (fun q => q.2.prod == (s.inc c i).prod && decide (q.2.emit < emit)) &&
    !s.sched.agenda.any (fun e => match s.foldFrom c e.2 with
      | some (q, n) => q == (s.inc c i).prod && decide (n < emit)
      | none => false)

/-- The slot that a packet goes to: the first one of a send the slot at FILL, the others the one before it. -/
def InChan.target (x : InChan) (p : TransitPkt) : Nat := if p.off = 0 then x.fill else (x.fill + x.w - 1) % x.w

/-- The address at which a packet will be written. -/
def State.packetGa (s : State) (p : TransitPkt) : Nat := s.ga 1 p.cons (slotOff p.inc ((s.inc p.cons p.inc).target p) + p.off)

/-- A packet is written into its slot, which the first one takes at FILL and the last one fills. -/
def State.deliver (s : State) (p : TransitPkt) : State :=
  let x := s.inc p.cons p.inc
  let n := x.target p
  let x := if p.off = 0 then
      { (x.setSlot x.fill { st := .inflight, tag := p.tag, len := p.len, err := false }) with fill := (x.fill + 1) % x.w }
    else x
  let v := x.slot n
  let v := { v with
    err := v.err || p.data.any (·.2)
    st := if p.off + 64 = p.len then .filled else v.st }
  let g := s.packetGa p
  let ag := Agent.transit p.cons
  let s := (s.takeOwner g 64 false true).noteUse g
  let s := (s.store g (joinLanes 64 (p.data.map (fun w => w.1.toNat))) 64 ag).setAll g 64 true
  let s := ((List.range 8).zip p.data).foldl (fun s w => if w.2.2 then s.poisonWord (g + 8 * w.1) ag else s) s
  (s.putIn p.cons p.inc (x.setSlot n v)).modCol p.cons (fun c => { c with arriving := c.arriving.filter (fun q => q.2.emit != p.emit) })

/-- A packet of a delivery at its consumer. -/
def execTransitPacket (p : TransitPkt) (s : State) : Out :=
  .next (if (s.col p.cons).arriving.any (fun q => q.2 == p && decide (q.1 ≤ s.sched.cycle)) && s.packetTurn p &&
      s.pieceReady (onePiece (s.packetGa p) 64) then s.deliver p
    else s)

/-- The slots from FILL back that are FILLED with a tag of at least `t`. -/
def InChan.tailFrom (x : InChan) (t : Nat) : Nat → Nat → Nat
  | 0, k => k
  | n + 1, k =>
    let v := x.slot ((x.fill + x.w - 1 - k) % x.w)
    if v.st = .filled ∧ t ≤ v.tag then x.tailFrom t n (k + 1) else k

/-- `k` slots at the tail discarded. -/
def InChan.discard (x : InChan) (k : Nat) : InChan :=
  let y := (List.range k).foldl (fun (y : InChan) j => y.setSlot ((x.fill + x.w - 1 - j) % x.w) {}) x
  { y with fill := (x.fill + x.w - k % x.w) % x.w }

/-- A fold is applied at a consumer (R320). -/
def execTransitFoldApply (c i tag emit : Nat) (s : State) : Out :=
  let x := s.inc c i
  .next (if !s.foldTurn c i emit then s.after 1 (.transitFoldApply c i tag emit)
    else
      let k := x.tailFrom tag x.w 0
      (s.putIn c i { (x.discard k) with lastFold := BitVec.ofNat 32 tag, folds := x.folds + 1 }).after (3 * hops c x.prod)
        (.transitCredit x.prod x.out x.branch k false false))

/-- A flush is applied at a consumer (R321). -/
def execTransitFlushApply (c i emit : Nat) (s : State) : Out :=
  let x := s.inc c i
  .next (if !s.foldTurn c i emit then s.after 1 (.transitFlushApply c i emit)
    else
      let k := x.tailFrom 0 x.w 0
      (s.putIn c i (x.discard k)).after (3 * hops c x.prod) (.transitCredit x.prod x.out x.branch k true false))

/-- The oldest RETURNING slot is FREE: the first one from FILL on. -/
def InChan.freeOldest (x : InChan) : InChan :=
  match (List.range x.w).find? (fun k => (x.slot ((x.fill + k) % x.w)).st == .returning) with
  | some k => x.setSlot ((x.fill + k) % x.w) {}
  | none => x

/-- The flushes with the answer of branch `b` of channel `o`: it belongs to the first that awaits it, since those of one branch come in the
order of the flushes (R317). -/
def answered (o b : Nat) : List FlushWait → List FlushWait
  | [] => []
  | f :: fs => if f.out = o ∧ f.left.contains b then { f with left := f.left.filter (· != b) } :: fs else f :: answered o b fs

/-- A branch has answered a flush; the thread of a flush with its last answer goes on (R321). -/
def State.flushAnswer (s : State) (c o b : Nat) : State :=
  let l := answered o b (s.col c).flushes
  let s := s.modCol c (fun x => { x with flushes := l.filter (fun f => !f.left.isEmpty) })
  (l.filter (fun f => f.left.isEmpty)).foldl (fun s f => match f.thr with
    | some t => if (s.thr t).wait = .reply then s.completeParked t id else s
    | none => s) s

/-- A credit reaches the producer, from an XFREE, a fold or a flush (R316). -/
def execTransitCredit (c o b n : Nat) (answer ret : Bool) (s : State) : Out :=
  let x := s.out c o
  .next (match x.branches[b]? with
    | some br =>
      let s := s.putOut c o { x with branches := x.branches.set b { br with credits := br.credits + n } }
      let s := if ret then s.putIn br.col br.inc (s.inc br.col br.inc).freeOldest else s
      if answer then s.flushAnswer c o b else s
    | none => s)

end Sys2Proof.Machine
end

