-- ==== Sys2Proof/Machine/Engines.lean ====
section
/-! DEFINITION. The copy engines (R328, R329), the layer-swap engine (R330 to R333) and ENGSTAT (R334). -/
namespace Sys2Proof.Machine

/-! ### CPY -/

/-- Dimension `i` of a descriptor: source stride, destination stride, count. -/
def copyDim (got : Sparse Byte) (i : Nat) : Int × Int × Nat :=
  (toSigned 32 (descWord got (4 + 2 * i) / 2 ^ 32), toSigned 32 (descWord got (4 + 2 * i)), descWord got (5 + 2 * i))

/-- The lowest and the highest byte address of an operand, from its base and its strides with their counts. -/
def extent (base : Nat) (l : List (Int × Nat)) (z : Nat) : Int × Int :=
  (l.foldl (fun x d => x + min 0 (((d.2 : Int) - 1) * d.1)) base,
   l.foldl (fun x d => x + max 0 (((d.2 : Int) - 1) * d.1)) base + z - 1)

/-- The address `d` bytes from one that a virtual address has given, which wraps in the core window (R190). -/
def besideGa (win : Bool) (g : Nat) (d : Int) : Nat :=
  if win then g - gaOff g + (((gaOff g : Int) + d) % 0x400000).toNat else ((g : Int) + d).toNat

/-- The runs of addresses of an extent (R190). -/
def extentRuns (win : Bool) (g len : Nat) : List (Nat × Nat) :=
  if win ∧ 0x400000 < gaOff g + len then [(g, 0x400000 - gaOff g), (g - gaOff g, gaOff g + len - 0x400000)] else [(g, len)]

/-- Whether two lists of runs have a byte in common. -/
def runsMeet (a b : List (Nat × Nat)) : Bool := a.any (fun x => b.any (fun y => meets x.1 x.2 y.1 y.2))

/-- The translation of an extent with its map check; `go` takes the lowest global address, and whether it lies in the core window. -/
def State.extentChecked (s : State) (x : Int × Int) (k : BitVec 5) (go : Nat → Bool → List Via → State → State) : State :=
  let va := wrapTo 64 x.1
  let len := (x.2 - x.1).toNat + 1
  match s.translate s.me va len k with
  | .ok g via => s.mapChecked g len .bulk va (go g (inWindow va) via)
  | r => s.noAccess va r

/-- CPY with its descriptor (R329). -/
def State.copyDescribed (s : State) (got : Sparse Byte) : State :=
  let w3 := descWord got 3
  let n := w3 % 16 + 1
  let z := 2 ^ bits w3 5 4
  let src := descWord got 0
  let dst := descWord got 1
  let fin := descWord got 2
  let dims := (List.range n).map (copyDim got)
  if w3 / 64 ≠ 0 ∨ dims.any (fun d => d.2.2 == 0 || decide (2 ^ 24 ≤ d.2.2)) then s.trapMe (engTrap 0x10 0)
  else if src % z ≠ 0 ∨ dims.any (fun d => d.1 % z != 0) then s.trapMe (misaligned src)
  else if dst % z ≠ 0 ∨ dims.any (fun d => d.2.1 % z != 0) then s.trapMe (misaligned dst)
  else if fin % 8 ≠ 0 then s.trapMe (misaligned fin)
  else
    let xs := extent src (dims.map (fun d => (d.1, d.2.2))) z
    let xd := extent dst (dims.map (fun d => (d.2.1, d.2.2))) z
    s.extentChecked xs (permR ||| permE) (fun los ws vs s =>
      s.extentChecked xd (permW ||| permE) (fun lod wd vd s =>
        s.completionWord fin (fun f vf s =>
          if runsMeet (extentRuns ws los ((xs.2 - xs.1).toNat + 1)) (extentRuns wd lod ((xd.2 - xd.1).toNat + 1)) then s.trapMe (engTrap 0x12 0)
          else if 1024 ≤ (s.core s.myCore).copies.length then s.parkMe .mem (.queue 0)
          else if !(s.outstanding s.me).isEmpty then s.parkMe .mem .drain
          else
            let c : CopyCmd := {
              thr := s.me, src := besideGa ws los ((src : Int) - xs.1), dst := besideGa wd lod ((dst : Int) - xd.1), fin := f, esz := z, dims := dims, total := dims.foldl (fun t d => t * d.2.2) 1
              seq := s.fresh.1, via := vs ++ vd ++ vf, srcWin := ws, dstWin := wd, since := s.sched.cycle + 1 }
            ((s.fresh.2).modCore s.myCore (fun q => { q with copies := q.copies ++ [c] })).finish)))

/-- CPY goes on with its first four words, or with all of them. -/
def State.copyRead (s : State) (a : Reg) (got : Sparse Byte) (whole : Bool) : State :=
  (if whole then s.copyDescribed got else s.readDescriptor (s.rd a).toNat (4 + 2 * (descWord got 3 % 16 + 1)) 0 true).keepWords got whole

def execCpy (a : Reg) (s : State) : Out :=
  .next (match s.keptWords with
    | some (got, whole) => s.copyRead a got whole
    | none => s.readDescriptor (s.rd a).toNat 4 0 false)

/-- The addresses of element `e`. -/
def CopyCmd.address (c : CopyCmd) (e : Nat) : Nat × Nat :=
  let r := c.dims.foldl (fun (x : Int × Int × Nat) d =>
    let i : Int := ((x.2.2 % d.2.2 : Nat) : Int)
    (x.1 + i * d.1, x.2.1 + i * d.2.1, x.2.2 / d.2.2)) (0, 0, e)
  (besideGa c.srcWin c.src r.1, besideGa c.dstWin c.dst r.2.1)

/-- The elements from `e` on that lie together at both ends, within one block of 64 bytes each, at most `n` more. -/
def CopyCmd.run (c : CopyCmd) (a : Nat × Nat) (e k : Nat) : Nat → Nat
  | 0 => k
  | n + 1 =>
    let x := c.address (e + k)
    if e + k < c.total ∧ x = (a.1 + k * c.esz, a.2 + k * c.esz) ∧ x.1 / 64 = a.1 / 64 ∧ x.2 / 64 = a.2 / 64 then c.run a e (k + 1) n else k

/-- The next transfer of a copy: the source address, the destination address and the number of elements. -/
def CopyCmd.next (c : CopyCmd) : Nat × Nat × Nat :=
  let a := c.address c.done
  (a.1, a.2, c.run a c.done 1 63)

/-- The core whose copy the engine of a column serves next, from its turn on. -/
def State.copyCore (s : State) (c : Nat) : Option Nat :=
  (List.range 4).find? (fun k => match (s.core (4 * c + ((s.col c).copyTurn + k) % 4)).copies with
    | x :: _ => decide (x.done < x.total ∧ x.since ≤ s.sched.cycle)
    | [] => false) |>.map (fun k => ((s.col c).copyTurn + k) % 4)

/-- The head copy of a core changed. -/
def State.modCopy (s : State) (q : Nat) (f : CopyCmd → CopyCmd) : State :=
  s.modCore q (fun x => { x with copies := match x.copies with
    | c :: cs => f c :: cs
    | [] => [] })

/-- One transfer of the copy engine of a column, as far as it goes in this cycle. -/
def execCopyTransfer (c : Nat) (s : State) : Out :=
  .next (match s.copyCore c with
    | some q =>
      (match (s.core (4 * c + q)).copies with
       | x :: _ =>
         let t := x.next
         let n := t.2.2 * x.esz
         let ag := Agent.copy (4 * c + q)
         let r := s.engineRead ag (onePiece t.1 n) { flight := if x.buf.isNone then x.flight else none, buf := x.buf, pipe := x.pipe }
         let w := if x.buf.isNone ∧ r.2.buf.isNone then (r.1, r.2, false)
           else r.1.engineWrite ag (onePiece t.2.1 n) (if x.buf.isSome then { r.2 with flight := x.flight } else r.2)
         let bad : Bool := match r.2.buf with
           | some b => !b.2.isEmpty
           | none => false
         if w.2.2 then
           (w.1.modCopy (4 * c + q) (fun y => { y with
             done := y.done + t.2.2, bad := y.bad || bad, flight := none, buf := none, pipe := 0, since := s.sched.cycle + 1 })).modCol c
               (fun y => { y with copyTurn := (q + 1) % 4, moved := s.sched.cycle + 1 })
         else (w.1.modCopy (4 * c + q) (fun y => { y with flight := w.2.1.flight, buf := w.2.1.buf, pipe := w.2.1.pipe })).modCol c (fun y => { y with copyTurn := q })
       | [] => s)
    | none => s)

/-- A copy whose writes are all performed: its completion word, and it leaves the core's count. -/
def execCopyComplete (c q : Nat) (s : State) : Out :=
  .next (match (s.core (4 * c + q)).copies with
    | x :: _ =>
      if x.done < x.total then s
      else
        let r := s.writeStatus x.fin x.flight (if x.bad then 3 else 1) (.copy (4 * c + q))
        if r.2.2 then r.1.modCore (4 * c + q) (fun y => { y with copies := y.copies.drop 1, copiesDone := y.copiesDone + 1 })
        else r.1.modCopy (4 * c + q) (fun y => { y with flight := r.2.1 })
    | [] => s)

/-- Copies whose completion is due. -/
def State.copyScan (s : State) (c : Nat) : List Event :=
  (List.range 4).filterMap (fun q => match (s.core (4 * c + q)).copies with
    | x :: _ => if x.total ≤ x.done then some (.copyComplete c q) else none
    | [] => none)

/-! ### LSWAP (R330) -/

/-- LSWAP with its descriptor. -/
def State.swapDescribed (s : State) (got : Sparse Byte) : State :=
  let st := descWord got 0
  let gd := descWord got 1
  let w2 := descWord got 2
  let w3 := descWord got 3
  let units := w2 % 2 ^ 18
  let len := units * 4096
  if 2 ^ 52 ≤ st ∨ 2 ^ 52 ≤ gd ∨ bits w2 31 18 ≠ 0 ∨ w2 / 2 ^ 33 ≠ 0 ∨ 2 ^ 16 ≤ w3 ∨ units = 0 ∨ 131072 < units ∨ st % 4096 ≠ 0 ∨ gd % 4096 ≠ 0 ∨
    gaPkg st ≠ s.pkg.pkgNo.toNat ∨ gaPkg gd ≠ s.pkg.pkgNo.toNat ∨ gaSpace st ≠ 0 ∨ gaSpace gd ≠ 3 ∨
    2 ^ 29 < gaOff st % 2 ^ 29 + len ∨ 2 ^ 36 < gaOff gd % 2 ^ 36 + len then s.trapMe (engTrap 0x20 0)
  else match (s.mapCheck st len .bulk st).orElse (fun _ => s.mapCheck gd len .bulk gd) with
  | some i => s.trapMe i
  | none =>
    s.completionWord (descWord got 4) (fun fin via s =>
      if 64 ≤ s.eng.swaps.length then s.parkMe .mem (.queue 1)
      else if !(s.outstanding s.me).isEmpty then s.parkMe .mem .drain
      else
        let o := gaOff st
        let w : SwapCmd := {
          id := s.fresh.1, stacked := st, gddr := gd, len := len, writeback := w2.testBit 32, outMask := w3 % 256, inMask := w3 / 256
          fin := fin, via := via, ptrs := layerParts o (o + len) }
        let s := s.fresh.2
        { s with eng := { s.eng with swaps := s.eng.swaps ++ [w] } }.finish)

def execLswap (a : Reg) (s : State) : Out :=
  .next (s.supervisor (fun s => match s.keptWords with
    | some (got, _) => (s.swapDescribed got).keepWords got true
    | none => s.readDescriptor (s.rd a).toNat 5 1 true))

def execEngstat (d : Reg) (swap : Bool) (s : State) : Out :=
  .next (s.wr d (BitVec.ofNat 64 (if swap then s.eng.swapsDone.toNat * 2 ^ 32 + s.eng.swaps.length
    else (s.core s.myCore).copiesDone.toNat * 2 ^ 32 + (s.core s.myCore).copies.length))).finish

/-! ### Swap commands (R331, R332) -/

def State.swap (s : State) (id : Nat) : Option SwapCmd := s.eng.swaps.find? (fun w => w.id == id)
def State.modSwap (s : State) (id : Nat) (f : SwapCmd → SwapCmd) : State :=
  { s with eng := { s.eng with swaps := s.eng.swaps.map (fun w => if w.id = id then f w else w) } }

def SwapCmd.col (w : SwapCmd) : Nat := gaOwner w.stacked

/-- Whether no earlier command for the same column is unfinished. -/
def State.swapFirst (s : State) (w : SwapCmd) : Bool :=
  match s.eng.swaps.find? (fun x => x.col == w.col) with
  | some x => x.id == w.id
  | none => false

/-- The channels that a mask names. -/
def named (m : Nat) : List Nat := (List.range 8).filter (fun i => m.testBit i)

/-- The producer columns that feed the named inbound channels of a command. -/
def State.producers (s : State) (w : SwapCmd) : List Nat :=
  (((named w.inMask).map (s.inc w.col)).filter (·.bound)).map (·.prod) |>.eraseDups

/-- A command leaves QUEUED: its holds are sent. -/
def execSwapHold (id : Nat) (s : State) : Out :=
  .next (match s.swap id with
    | some w =>
      if w.st = .queued ∧ s.swapFirst w then
        let ps := s.producers w
        let cs := if w.outMask = 0 ∧ w.inMask = 0 then ps else w.col :: ps
        let s := cs.foldl (fun s c => s.classZero 30 c (.swapHoldArrive id c)) s
        let s := { s with eng := { s.eng with swapHolds := s.eng.swapHolds ++ cs.map (fun c => (id, c)) } }
        s.modSwap id (fun w => { w with st := .holding ps s.sched.cycle })
      else s
    | none => s)

/-- The hold of a command takes effect at a column; a producer answers in the next cycle. -/
def execSwapHoldArrive (id c : Nat) (s : State) : Out :=
  .next (match s.swap id with
    | some w =>
      if c = w.col then
        let s := (named w.outMask).foldl (fun s o => s.putOut c o { (s.out c o) with holds := (s.out c o).holds ++ [id] }) s
        (named w.inMask).foldl (fun s i => s.putIn c i { (s.inc c i) with holds := (s.inc c i).holds ++ [id] }) s
      else
        let s := (List.range 8).foldl (fun s o => s.putOut c o { (s.out c o) with
          branches := (s.out c o).branches.map (fun b =>
            if b.col = w.col ∧ w.inMask.testBit b.inc then { b with holds := b.holds ++ [id] } else b) }) s
        (s.fresh.2).after (1 + max 1 (3 * hops c 30) + Config.delay s.fresh.1 % (97 - max 1 (3 * hops c 30))) (.swapHoldAck id c)
    | none => s)

/-- A producer's answer. -/
def execSwapHoldAck (id c : Nat) (s : State) : Out :=
  .next (s.modSwap id (fun w => match w.st with
    | .holding l n => { w with st := .holding (l.filter (· != c)) (if (l.filter (· != c)).isEmpty then s.sched.cycle else n) }
    | _ => w))

/-- Whether an inbound channel has all slots FREE, and every send to it that its producer has accepted has been received and freed (R332). -/
def State.inDrained (s : State) (c i : Nat) : Bool :=
  let x := s.inc c i
  x.slots.all (fun v => v.st == .free) &&
    (!x.bound || (match (s.out x.prod x.out).branches[x.branch]? with
      | some b => b.credits == b.w
      | none => true))

/-- Whether the named channels are drained. -/
def State.swapDrained (s : State) (w : SwapCmd) : Bool :=
  (named w.outMask).all (fun o => (s.out w.col o).idle) && (named w.inMask).all (fun i => s.inDrained w.col i)

/-- Whether the compactor drains or moves a region of a command (R379). -/
def State.compMeets (s : State) (w : SwapCmd) : Bool :=
  match s.eng.comps with
  | c :: _ => c.st != .queued && c.st != .rewritten &&
      (meets w.stacked w.len c.src c.len || meets w.stacked w.len c.dst c.len || meets w.gddr w.len c.src c.len || meets w.gddr w.len c.dst c.len)
  | [] => false

/-- A command leaves HOLDING, and DRAINWAIT once its channels are drained. -/
def execSwapRun (id : Nat) (s : State) : Out :=
  .next (match s.swap id with
    | some w =>
      let go : Bool := match w.st with
        | .holding [] n => decide (n < s.sched.cycle)
        | .drainwait => true
        | _ => false
      if !go then s
      else if s.swapDrained w && !s.compMeets w then
        (s.fresh.2).modSwap id (fun w => { w with st := .running (s.sched.cycle + 1 + Config.delay s.fresh.1) })
      else s.modSwap id (fun w => { w with st := .drainwait })
    | none => s)

/-! ### Bursts (R333, R362) -/

/-- What has bursts to move: its number, whether it is a fetch, the column, the pointers and the layer whose turn it is. -/
structure Mover where
  num : Nat
  fetch : Bool
  col : Nat
  ptrs : List (Nat × Nat)
  turn : Nat
deriving DecidableEq, Repr

/-- The place among the parts that has the turn and bytes left. -/
def Mover.part (m : Mover) : Option (Nat × Nat × Nat) :=
  ((List.range m.ptrs.length).map (fun k => (m.turn + k) % m.ptrs.length)).findSome? (fun i =>
    match m.ptrs[i]? with
    | some (a, b) => if a < b then some (i, a, min (b - a) (4096 - a % 4096)) else none
    | none => none)

/-- The movers that may start a burst: the oldest fetch of each column, and the running commands. -/
def State.movers (s : State) : List Mover :=
  let fs := (s.eng.fetches.filter (fun f => !f.failed && decide (f.start ≤ s.sched.cycle) &&
    !s.eng.fetches.any (fun g => g.col == f.col && decide (g.id < f.id) && !g.failed))).map
      (fun f => ({ num := f.id, fetch := true, col := f.col, ptrs := f.ptrs, turn := f.turn } : Mover))
  let ws := s.eng.swaps.filterMap (fun w => match w.st with
    | .running n => if n ≤ s.sched.cycle then some ({ num := w.id, fetch := false, col := w.col, ptrs := w.ptrs, turn := w.turn } : Mover) else none
    | _ => none)
  (if s.eng.nextSwapTurn = 0 then fs ++ ws else ws ++ fs).filter (fun m => m.part.isSome)

/-- The GDDR-7 address of a burst. -/
def State.burstHome (s : State) (m : Mover) (a : Nat) : Nat :=
  if m.fetch then s.ga 3 0 (s.homeOff m.col a)
  else match s.swap m.num with
    | some w => w.gddr + (s.ga 0 m.col a - w.stacked)
    | none => s.ga 3 0 a

/-- Whether the bytes of a burst can be reached at both its ends, and its port is free (R333, R379). -/
def State.burstFree (s : State) (m : Mover) (a n : Nat) : Bool :=
  let g := s.ga 0 m.col a
  s.ownerRuns (s.owner g) && !s.retaining g && !s.patrolled g && !s.portHeld m.col (bits g 28 27) &&
    !s.bytesMoving g n && !s.bytesMoving (s.burstHome m a) n

/-- The burst that a mover starts. -/
def State.startBurst (s : State) (m : Mover) (i a n : Nat) : State :=
  let l := bits a 28 27
  let hold := if s.pkg.vhalf ∧ 2 ≤ l then 64 else 32
  let b : Burst := { num := m.num, fetch := m.fetch, col := m.col, off := a, len := n, till := s.sched.cycle + hold }
  let bump := fun (p : List (Nat × Nat)) => p.set i (a + n, (p.getD i (0, 0)).2)
  let s := s.noteUse (s.ga 0 m.col a)
  let s := s.modCol m.col (fun x => { x with portHold := sset 0 x.portHold l 2 })
  { s with eng := { s.eng with
      bursts := s.eng.bursts ++ [b]
      nextSwapTurn := bnat m.fetch
      swaps := if m.fetch then s.eng.swaps else s.eng.swaps.map (fun w => if w.id = m.num then { w with ptrs := bump w.ptrs, turn := (i + 1) % w.ptrs.length } else w)
      fetches := if m.fetch then s.eng.fetches.map (fun (f : Fetch) => if f.id = m.num then { f with ptrs := bump f.ptrs, turn := (i + 1) % f.ptrs.length } else f)
        else s.eng.fetches } }

/-- A mover's next burst starts when its port and segments can be reached and the engine moves fewer than five (R333). -/
def State.tryBurst (s : State) (m : Mover) : State :=
  match m.part with
  | some (i, a, n) =>
    if 5 ≤ s.eng.bursts.length then s
    else if s.burstFree m a n then s.startBurst m i a n
    else if s.blocked (s.ga 0 m.col a) then s.demand (s.ga 0 m.col a)
    else s
  | none => s

/-- The bytes of a burst move, and its port is released. -/
def State.endBurst (s : State) (b : Burst) : State :=
  let st := s.ga 0 b.col b.off
  let s := { s with eng := { s.eng with bursts := s.eng.bursts.erase b } }
  let s := s.modCol b.col (fun x => { x with portHold := sset 0 x.portHold (bits b.off 28 27) 0 })
  let s := s.noteUse st
  if b.fetch then (s.copyRegion (s.ga 3 0 (s.homeOff b.col b.off)) st b.len .swap).1
  else match s.swap b.num with
    | some w =>
      let gd := w.gddr + (st - w.stacked)
      let r := if w.writeback then s.copyRegion st gd b.len .swap else s.copyRegion gd st b.len .swap
      r.1.modSwap b.num (fun w => { w with bad := w.bad || r.2 })
    | none => s

/-- Bursts that end now. -/
def State.burstsDue (s : State) (id : Nat) : List Burst :=
  s.eng.bursts.filter (fun b => b.num == id && decide (b.till ≤ s.sched.cycle) && !(s.col b.col).frozen)

/-- Whether every transfer of a command is performed. -/
def State.swapOver (s : State) (w : SwapCmd) : Bool :=
  (match w.st with
   | .running _ => true
   | _ => false) && w.ptrs.all (fun p => decide (p.2 ≤ p.1)) && !s.eng.bursts.any (fun b => !b.fetch && b.num == w.id)

/-- The bursts of a command or fetch in this cycle: those that end, then one that starts; with the last one a command is over. -/
def execSwapBurst (id : Nat) (s : State) : Out :=
  let s1 := (s.burstsDue id).foldl (fun s b => s.endBurst b) s
  let s2 := match s1.movers.find? (fun m => m.num == id) with
    | some m => s1.tryBurst m
    | none => s1
  .next (match s2.swap id with
    | some w => if s2.swapOver w then s2.after 0 (.swapDone id) else s2
    | none => s2)

/-- The columns that know of a command's holds, those of producers bound since among them. -/
def State.holders (s : State) (id : Nat) : List Nat :=
  (s.cols.filter (fun c => c.2.outs.any (fun o => o.holds.contains id || o.branches.any (fun b => b.holds.contains id)) ||
    c.2.ins.any (fun i => i.holds.contains id))).map (·.1)

/-- A command ends: its completion word is written, and its holds are lifted. -/
def execSwapDone (id : Nat) (s : State) : Out :=
  .next (match s.swap id with
    | some w =>
      if !s.swapOver w then s
      else
        let r := s.writeStatus w.fin w.sent (if w.bad then 3 else 1) .swap
        if r.2.2 then
          let cs := ((r.1.eng.swapHolds.filter (fun x => x.1 == id)).map (·.2) ++ s.holders id).eraseDups
          let s := { r.1 with eng := { r.1.eng with
            swaps := r.1.eng.swaps.filter (fun x => x.id != id), swapsDone := r.1.eng.swapsDone + 1
            swapHolds := r.1.eng.swapHolds.filter (fun x => x.1 != id) } }
          cs.foldl (fun s c => s.classZero 30 c (.swapLiftArrive id c)) s
        else r.1.modSwap id (fun w => { w with sent := r.2.1 })
    | none => s)

/-- The lifting of a hold reaches a column. -/
def execSwapLiftArrive (id c : Nat) (s : State) : Out :=
  .next (s.modCol c (fun x => { x with
    outs := x.outs.map (fun o => { o with
      holds := o.holds.filter (· != id), branches := o.branches.map (fun b => { b with holds := b.holds.filter (· != id) }) })
    ins := x.ins.map (fun i => { i with holds := i.holds.filter (· != id) }) }))

/-- The swap engine's steps of a cycle: commands that leave a state, then bursts that end or may start. -/
def State.swapScan (s : State) : List Event :=
  (s.eng.swaps.filter (fun w => w.st == .queued && s.swapFirst w)).map (fun w => .swapHold w.id) ++
    s.eng.swaps.filterMap (fun w => match w.st with
      | .holding [] n => if n < s.sched.cycle then some (.swapRun w.id) else none
      | .drainwait => if s.swapDrained w && !s.compMeets w then some (.swapRun w.id) else none
      | _ => none) ++
    (((s.eng.bursts.filter (fun b => decide (b.till ≤ s.sched.cycle) && !(s.col b.col).frozen)).map (·.num) ++ s.movers.map (·.num)).eraseDups).map
      (fun n => .swapBurst n) ++
    (s.eng.swaps.filter (fun w => s.swapOver w)).map (fun w => .swapDone w.id)

end Sys2Proof.Machine
end

