-- ==== Sys2Proof/Machine/NodeOps.lean ====
section
/-! DEFINITION. What a node of an island graph does with the tokens at its inputs in one cycle (R257 to R260, R292 to R297, R299):
coordinate operators, REDUCE, ALU maps, conversions and the control operators of the routers. -/
namespace Sys2Proof.Machine

/-- A node fault (R310, R311): cause, subcode, detail and the kind of the offending token. -/
structure NFault where
  cause : Nat
  sub : Nat := 0
  detail : Nat := 0
  kind : Nat := 0
deriving DecidableEq, Repr

/-- What a node does in a cycle: its new state, tokens for outputs A and B, a fault, flags, the node whose held fault is cleared, and a
mark whose fault becomes a node fault (R298). -/
structure NStep where
  x : Node
  a : List ITok := []
  b : List ITok := []
  fault : Option NFault := none
  flags : FFlags := 0
  clear : Option Nat := none
  lift : Option (Nat × Nat) := none
deriving DecidableEq, Repr

/-- What a node sees: its word, the depths of its inputs, the island cycle, and where it is. -/
structure NEnv where
  w : NodeWord
  depth : Nat → Nat
  cyc : Nat
  isl : Nat
  slot : Nat

/-! ### Inputs -/

def Node.input (x : Node) (p : Nat) : List Buf := x.ins.toList.getD p []

/-- The token that stands at an input. -/
def Node.headAt (x : Node) (p cyc : Nat) : Option ITok :=
  match x.input p with
  | b :: _ => if b.from_ ≤ cyc then some b.tok else none
  | [] => none

/-- A slot of an input is freed in this cycle (R261). -/
def Node.free (x : Node) (p cyc : Nat) : Node :=
  { x with freed := p :: (if x.freedAt = cyc + 1 then x.freed else []), freedAt := cyc + 1 }

/-- The head of an input leaves it. -/
def Node.pop (x : Node) (p cyc : Nat) : Node := { x with ins := x.ins.setIfInBounds p (x.input p).tail }.free p cyc

def Node.gram (x : Node) (p : Nat) : Gram := x.grams.toList.getD p {}

/-- The head of an input is consumed, and counts for the checks (R259). -/
def NEnv.eat (e : NEnv) (x : Node) (p : Nat) (t : ITok) : Node :=
  { x.pop p e.cyc with grams := x.grams.setIfInBounds p (gramNext (x.gram p) t.tok) }

/-- A STREAM fault at a token. -/
def streamFault (t : ITok) (sub : Nat) : NFault := { cause := 1, sub := sub, detail := tkLow t.tok, kind := tkKind t.tok }

/-- The fault of a token that cannot continue its stream. -/
def NEnv.check (e : NEnv) (x : Node) (p : Nat) (t : ITok) : Option NFault :=
  (gramError (e.depth p) (x.gram p) t.tok).map (fun n => streamFault t n)

/-- A condition that stands at port 3. -/
def Node.cond (x : Node) (cyc : Nat) : Option Bool :=
  match x.conds with
  | c :: _ => if c.2 ≤ cyc then some c.1 else none
  | [] => none

def Node.popCond (x : Node) (cyc : Nat) : Node := { x with conds := x.conds.drop 1 }.free 3 cyc

/-! ### Tokens -/

def ITok.kind (t : ITok) : Nat := tkKind t.tok
def ITok.data (t : ITok) : Bool := isData t.kind
def plain (t : Tok) : ITok := { tok := t }

/-- A data token of a kind with a coordinate and an element value. -/
def mkData (kind coord v : Nat) : Tok := mkTok kind 0 (if hasCoord kind then coord % 2 ^ 32 * 2 ^ 32 + v % 2 ^ 32 else v)

/-- The fault of a node, with nothing consumed. -/
def faulted (x : Node) (f : NFault) : Option NStep := some { x := x, fault := some f }

/-- The first fault of the heads of some inputs, by port. -/
def NEnv.checks (e : NEnv) (x : Node) (l : List (Nat × ITok)) : Option NFault := l.findSome? (fun p => e.check x p.1 p.2)

/-- Whether two tokens at one position have the same structure and coordinate (R295). -/
def sameShape (a b : ITok) : Bool :=
  if a.data && b.data then hasCoord a.kind == hasCoord b.kind && (!hasCoord a.kind || tkCoord a.tok == tkCoord b.tok)
  else a.kind == b.kind && tkAux a.tok == tkAux b.tok

/-- The heads of all the given ports, once each has one. -/
def NEnv.heads (e : NEnv) (x : Node) : List Nat → Option (List (Nat × ITok))
  | [] => some []
  | p :: ps => match x.headAt p e.cyc, e.heads x ps with
    | some t, some l => some ((p, t) :: l)
    | _, _ => none

/-! ### ALU maps (R295) -/

/-- An integer map over `w` bits. -/
def aluInt (op w prm a b c : Nat) : Nat :=
  let sa := toSigned w a
  let sb := toSigned w b
  match op with
  | 0x10 => (a + b) % 2 ^ w
  | 0x11 => wrapTo w ((a : Int) - b)
  | 0x12 => a * b % 2 ^ w
  | 0x13 => if b % 2 ^ w = 0 then 2 ^ w - 1 else wrapTo w (Int.tdiv sa sb)
  | 0x14 => if sb < sa then b else a
  | 0x15 => if sa < sb then b else a
  | 0x16 => a &&& b
  | 0x17 => a ||| b
  | 0x18 => a ^^^ b
  | 0x19 => a * 2 ^ (b % w) % 2 ^ w
  | 0x1A => a / 2 ^ (b % w)
  | 0x1B => sa.natAbs % 2 ^ w
  | 0x1C => wrapTo w (-sa)
  | 0x1D => a
  | 0x1E => bnat (match prm with
    | 0 => decide (a = b)
    | 1 => decide (a ≠ b)
    | 2 => decide (sa < sb)
    | 3 => decide (sb ≤ sa)
    | 4 => decide (a < b)
    | _ => decide (b ≤ a))
  | _ => (a * b + c) % 2 ^ w

/-- The sign bit cleared or flipped; a NaN becomes canonical. -/
def signOp (f : FpFmt) (flip : Bool) (a : Nat) : Nat :=
  if (fdec f a).isNan then f.nan
  else if flip then a ^^^ 2 ^ (f.eb + f.fb) else a % 2 ^ (f.eb + f.fb)

/-- A NaN of a floating-point format made canonical (R49). -/
def canonical (f : Fmt) (v : Nat) : Nat := if isFpFmt f ∧ (fdec (fpOf f) v).isNan then (fpOf f).nan else v

/-- A floating-point map, with its flags. ABS and NEG of a signalling NaN set NV (R49). PASS gives its operand as it is, a NaN too, and sets no
flag (DESIGN CHOICE, log 56). -/
def aluFp (op : Nat) (f : FpFmt) (prm a b c : Nat) : Nat × FFlags :=
  match op with
  | 0x10 => Sys2Proof.Machine.fadd f 0 a b
  | 0x11 => Sys2Proof.Machine.fsub f 0 a b
  | 0x12 => Sys2Proof.Machine.fmul f 0 a b
  | 0x13 => Sys2Proof.Machine.fdiv f 0 a b
  | 0x14 => fminmax f false a b
  | 0x15 => fminmax f true a b
  | 0x1B => (signOp f false a, nanFlags (fdec f a).isSig)
  | 0x1C => (signOp f true a, nanFlags (fdec f a).isSig)
  | 0x1D => (a, 0)
  | 0x1E =>
    let r := fcompare f (match prm with
      | 0 => .eq
      | 1 => .ne
      | 2 => .lt
      | _ => .le) a b
    (bnat r.1, r.2)
  | _ => fmaGen f 0 false false a b c

/-- A map of a format. -/
def aluElem (op : Nat) (f : Fmt) (prm a b c : Nat) : Nat × FFlags :=
  if isIntFmt f then (aluInt op (fmtBits f) prm a b c, 0) else aluFp op (fpOf f) prm a b c

/-- The operand `i` of a map in lane `j`: from its port, or the constant. -/
def NEnv.operand (e : NEnv) (l : List (Nat × ITok)) (i j : Nat) : Nat :=
  let wd := fmtBits (nwFmt e.w)
  match l.find? (fun p => p.1 == i) with
  | some (_, t) => if nwPlane e.w = 1 then lane wd t.vec j else tkPay t.tok % 2 ^ wd
  | none => (nwConst e.w).toNat % 2 ^ wd

/-- The result of a map. -/
def NEnv.alu (e : NEnv) (l : List (Nat × ITok)) (t0 : ITok) : ITok × FFlags :=
  let f := nwFmt e.w
  let wd := fmtBits f
  let r := fun (j : Nat) => aluElem (nwOp e.w) f (nwParam e.w) (e.operand l 0 j) (e.operand l 1 j) (e.operand l 2 j)
  if nwPlane e.w = 1 then
    let rs := (List.range (512 / wd)).map r
    ({ tok := mkData t0.kind (tkCoord t0.tok) 0, vec := ofLanes wd (rs.map (·.1)) }, flagUnion rs)
  else ({ tok := mkData t0.kind (tkCoord t0.tok) (r 0).1 }, (r 0).2)

/-- Kinds whose value field is an operand. -/
def hasValue (k : Nat) : Bool := k == kVALUE || k == kPAIR || k == kREF

def stepAlu (e : NEnv) (x : Node) : Option NStep :=
  match e.heads x (usedPorts e.w) with
  | some ((p0, t0) :: rest) =>
    let l := (p0, t0) :: rest
    (match e.checks x l with
     | some f => faulted x f
     | none =>
       match l.find? (fun p => (p.2.data || p.2.kind == kPERMIT) && !hasValue p.2.kind) with
       | some p => faulted x (streamFault p.2 scBADKIND)
       | none =>
         match rest.find? (fun p => !sameShape t0 p.2) with
         | some p => faulted x (streamFault p.2 scRANK)
         | none =>
           let y := l.foldl (fun y p => e.eat y p.1 p.2) x
           if t0.data then
             let r := e.alu l t0
             some { x := y, a := [r.1], flags := r.2 }
           else some { x := y, a := [t0] })
  | _ => none

/-! ### Conversions (R296) -/

/-- A data-plane conversion: lane by lane; a lane without a source is a free value (log 5). -/
def NEnv.cvtVec (e : NEnv) (dst src : Fmt) (v : Vec) : Vec :=
  ofLanes (fmtBits dst) ((List.range (512 / fmtBits dst)).map (fun j =>
    if j < 512 / fmtBits src then (cvtBits dst src 0 (lane (fmtBits src) v j)).1
    else (Config.unstatedLane e.isl e.slot e.cyc j).toNat % 2 ^ fmtBits dst))

/-- A step of a unit with one input that keeps its structure: its work on a data token, or the fault of the token's kind. -/
def stepMap (e : NEnv) (x : Node) (ok : Nat → Bool) (f : Node → ITok → Node × List ITok × FFlags) : Option NStep :=
  match x.headAt 0 e.cyc with
  | none => none
  | some t =>
    match e.check x 0 t with
    | some n => faulted x n
    | none =>
      if t.data || t.kind == kPERMIT then
        if ok t.kind then
          let r := f (e.eat x 0 t) t
          some { x := r.1, a := r.2.1, flags := r.2.2 }
        else faulted x (streamFault t scBADKIND)
      else some { x := { e.eat x 0 t with r1 := if t.kind = kSTOP ∨ t.kind = kDONE then 0 else x.r1 }, a := [t] }

def stepCvt (e : NEnv) (x : Node) : Option NStep :=
  stepMap e x hasValue (fun y t =>
    let dst := nwFmt e.w
    let src := (decFmt (BitVec.ofNat 4 (nwParam e.w))).getD .fp32
    (y, [if nwPlane e.w = 1 then { tok := mkData t.kind (tkCoord t.tok) 0, vec := e.cvtVec dst src t.vec }
         else { tok := mkData t.kind (tkCoord t.tok) (cvtBits dst src 0 (tkPay t.tok % 2 ^ fmtBits src)).1 }], 0))

/-- `E` of a node word. -/
def nwE (w : NodeWord) : Int := toSigned 8 (nwParam w)

/-- The digits' exact sum times `4^8` (R61). -/
def sdSum (t : Tok) : Int :=
  (List.range (tkAux t)).foldl (fun s i => s + digitVal (digitCode t i) * ((4 ^ (7 - i) : Nat) : Int)) 0

/-- SD2B: a PAIR with the token's coordinate, or a VALUE in a stream of depth 0. -/
def stepSd2b (e : NEnv) (x : Node) : Option NStep :=
  stepMap e x (· == kSDV) (fun y t =>
    let s := sdSum t.tok
    let r := (fround fp32 0 (decide (s < 0)) s.natAbs (nwE e.w - 16) false).1
    (y, [plain (if e.depth 0 = 0 then mkData kVALUE 0 r else mkData kPAIR (tkCoord t.tok) r)], 0))

/-- `a / 2^k` rounded to an integer, ties to even. -/
def roundRne (a : Int) (k : Nat) : Int :=
  let d : Int := ((2 ^ k : Nat) : Int)
  let q := a / d
  let r := a % d
  if 2 * r < d then q else if d < 2 * r then q + 1 else if q % 2 = 0 then q else q + 1

/-- The digits of `a / 2^k`, which lies within ±1/2 (R62). -/
def sdDigits (k : Nat) : Nat → Int → List Int
  | 0, _ => []
  | n + 1, a =>
    let d := clampInt (-2) 2 (roundRne (4 * a) k)
    d :: sdDigits k n (4 * a - d * ((2 ^ k : Nat) : Int))

/-- The code of a digit (R59). -/
def digitBits (d : Int) : Nat := if d = 1 then 1 else if d = 2 then 2 else if d = -1 then 7 else if d = -2 then 6 else 0

/-- The saturated value `a / 2^600`, and whether the source is a NaN. -/
def sdSource (isInt : Bool) (v : Nat) (e : Int) : Int × Bool :=
  let half : Int := ((2 ^ 599 : Nat) : Int)
  let scale := fun (neg : Bool) (m : Nat) (q : Int) =>
    let s := q - e + 600
    let y : Int := if s < 0 then ((m / 2 ^ s.natAbs : Nat) : Int) else ((m * 2 ^ s.toNat : Nat) : Int)
    clampInt (-half) half (if neg then -y else y)
  if isInt then
    let i := toSigned 32 v
    (scale (decide (i < 0)) i.natAbs 0, false)
  else match fdec fp32 v with
    | .nan _ => (0, true)
    | .inf neg => (if neg then -half else half, false)
    | .fin neg m q => (scale neg m q, false)

/-- B2SD: the coordinate of a VALUE is its position in the fibre. -/
def stepB2sd (e : NEnv) (x : Node) : Option NStep :=
  stepMap e x hasValue (fun y t =>
    let n := nwParam e.w / 256
    let s := sdSource (nwOpf e.w) (tkPay t.tok % 2 ^ 32) (nwE e.w)
    let ds := (sdDigits 600 n s.1).map digitBits
    let pay := ((List.range n).zip ds).foldl (fun v d => v + d.2 * 2 ^ (21 - 3 * d.1)) 0
    let coord := if t.kind = kVALUE then x.r1 else tkCoord t.tok
    ({ y with r1 := x.r1 + 1 }, [plain (mkTok kSDV n (coord % 2 ^ 32 * 2 ^ 32 + pay))], if s.2 then fNV else 0))

def stepWconv (e : NEnv) (x : Node) : Option NStep :=
  stepMap e x (· == kVALUE) (fun y t =>
    let wd := fmtBits (nwFmt e.w)
    let d : Bool := nwPlane e.w == 1
    (y, (List.range ((if d then 512 else 64) / wd)).map (fun j =>
      if d then { tok := mkData kVALUE 0 0, vec := BitVec.ofNat 512 (lane wd t.vec j) }
      else plain (mkData kVALUE 0 (tkPay t.tok / 2 ^ (wd * j) % 2 ^ wd))), 0))

/-! ### Coordinate operators (R292, R293) -/

/-- Whether a token holds its fibre(0) open, bearing a coordinate. -/
def coordTok (t : ITok) : Bool := t.data && hasCoord t.kind

/-- The end of a pair of fibres: stops of one rank, with EMPTY before them when the fibre has emitted nothing (R258). -/
def NEnv.closePair (e : NEnv) (x : Node) (a b : ITok) : Option NStep :=
  if a.kind = kSTOP ∧ b.kind = kSTOP ∧ tkAux a.tok = tkAux b.tok then
    let out := (if x.r0 = 0 then [plain tokEmpty] else []) ++ [plain a.tok]
    some { x := { e.eat (e.eat x 0 a) 1 b with r0 := 0 }, a := out, b := out }
  else if a.kind = kDONE ∧ b.kind = kDONE then
    some { x := { e.eat (e.eat x 0 a) 1 b with r0 := 0, kinds := [none, none] }, a := [plain tokDone], b := [plain tokDone] }
  else faulted x (streamFault b scRANK)

/-- The fill of UNION for an input that lacks coordinate `c`. -/
def unionFill (kind c : Nat) : ITok :=
  plain (if kind = kREF then mkData kREF c 0xFFFFFFFF
    else if kind = kCOORD then mkTok kCOORD 0 (c * 2 ^ 32)
    else if kind = kSDV then mkTok kSDV 1 (c * 2 ^ 32)
    else mkData kPAIR c 0)

/-- The kind of an input's fill: of its current fibre, in which the token at its head may be the first, of its stream so far, or of the
present token. -/
def Node.fillKind (x : Node) (p : Nat) (head : ITok) (present : Nat) : Nat :=
  if head.data then head.kind else ((x.gram p).kind.orElse (fun _ => x.kinds.getD p none)).getD present

/-- The last data kind of an input noted. -/
def Node.noteKind (x : Node) (p : Nat) (t : ITok) : Node := { x with kinds := x.kinds.set p (some t.kind) }

/-- INTERSECT and UNION. -/
def stepCoord (e : NEnv) (x : Node) (union : Bool) : Option NStep :=
  match x.headAt 0 e.cyc, x.headAt 1 e.cyc with
  | some a, some b =>
    (match e.checks x [(0, a), (1, b)] with
     | some f => faulted x f
     | none =>
       if a.data && !hasCoord a.kind then faulted x (streamFault a scBADKIND)
       else if b.data && !hasCoord b.kind then faulted x (streamFault b scBADKIND)
       else if a.kind = kEMPTY ∨ b.kind = kEMPTY then
         let y := if a.kind = kEMPTY then e.eat x 0 a else x
         some { x := if b.kind = kEMPTY then e.eat y 1 b else y }
       else
         let ca := tkCoord a.tok
         let cb := tkCoord b.tok
         if coordTok a ∧ coordTok b ∧ ca = cb then
           some { x := { ((e.eat (e.eat x 0 a) 1 b).noteKind 0 a).noteKind 1 b with r0 := 1 }, a := [a], b := [b] }
         else if coordTok a ∧ (!coordTok b ∨ ca < cb) ∧ b.kind ≠ kDONE then
           let y := (e.eat x 0 a).noteKind 0 a
           some (if union then { x := { y with r0 := 1 }, a := [a], b := [unionFill (x.fillKind 1 b a.kind) ca] } else { x := y })
         else if coordTok b ∧ (!coordTok a ∨ cb < ca) ∧ a.kind ≠ kDONE then
           let y := (e.eat x 1 b).noteKind 1 b
           some (if union then { x := { y with r0 := 1 }, a := [unionFill (x.fillKind 0 a b.kind) cb], b := [b] } else { x := y })
         else e.closePair x a b)
  | _, _ => none

/-- REPEAT: `r0` is 1 once the element of A has been consumed while B's closing stop still stands. -/
def stepRepeat (e : NEnv) (x : Node) : Option NStep :=
  match x.headAt 1 e.cyc with
  | none => none
  | some b =>
    match e.check x 1 b with
    | some f => faulted x f
    | none =>
      match x.headAt 0 e.cyc with
      | none => if x.r0 = 1 ∧ b.kind = kSTOP ∧ tkAux b.tok = 0 then some { x := { e.eat x 1 b with r0 := 0 }, a := [b] } else none
      | some a =>
        match e.check x 0 a with
        | some f => faulted x f
        | none =>
          if x.r0 = 1 then
            if b.kind = kSTOP ∧ tkAux b.tok = 0 then some { x := { e.eat x 1 b with r0 := 0 }, a := [b] }
            else if b.kind = kSTOP ∧ a.kind = kSTOP ∧ tkAux a.tok + 1 = tkAux b.tok then
              some { x := { e.eat (e.eat x 0 a) 1 b with r0 := 0 }, a := [b] }
            else faulted x (streamFault b scRANK)
          else if b.data then
            if !hasCoord b.kind then faulted x (streamFault b scBADKIND)
            else if !a.data then faulted x (streamFault b scRANK)
            else if nwPlane e.w = 1 then some { x := e.eat x 1 b, a := [{ tok := mkData kPAIR (tkCoord b.tok) 0, vec := a.vec }] }
            else some { x := e.eat x 1 b, a := [plain (mkData kPAIR (tkCoord b.tok) (tkLow a.tok))] }
          else if b.kind = kEMPTY then
            if a.data ∨ a.kind = kEMPTY then some { x := { e.eat (e.eat x 0 a) 1 b with r0 := 1 }, a := [b] } else faulted x (streamFault b scRANK)
          else if b.kind = kSTOP then
            if a.data then some { x := { e.eat x 0 a with r0 := 1 } } else faulted x (streamFault b scRANK)
          else if a.kind = kDONE then some { x := e.eat (e.eat x 0 a) 1 b, a := [b] }
          else faulted x (streamFault b scRANK)

/-! ### REDUCE (R294) -/

/-- The least pattern of a format: −∞ or the integer minimum; and the greatest. -/
def lowest (f : Fmt) : Nat := if isIntFmt f then 2 ^ (fmtBits f - 1) else (fpOf f).inf true
def highest (f : Fmt) : Nat := if isIntFmt f then 2 ^ (fmtBits f - 1) - 1 else (fpOf f).inf false

/-- The combination of two elements: 0 sum, 1 max, 2 min. -/
def redElem (prm : Nat) (f : Fmt) (a b : Nat) : Nat :=
  match prm with
  | 0 => (aluElem 0x10 f 0 a b 0).1
  | 1 => (aluElem 0x15 f 0 a b 0).1
  | _ => (aluElem 0x14 f 0 a b 0).1

/-- The identity of an EMPTY fibre. -/
def redIdent (prm : Nat) (f : Fmt) : Nat :=
  match prm with
  | 0 => 0
  | 1 => lowest f
  | _ => highest f

/-- Whether element `b` takes the place of `a` in an argmax. -/
def argBetter (f : Fmt) (a b : Nat) : Bool :=
  if isIntFmt f then decide (toSigned (fmtBits f) a < toSigned (fmtBits f) b)
  else
    let g := fpOf f
    if (fdec g b).isNan then false
    else if (fdec g a).isNan then true
    else (fcompare g .lt a b).1

/-- Whether SDV token `b` is larger than `a` (R64). -/
def sdBetter (a b : Tok) : Bool :=
  match ((List.range 8).map (fun i => (digitVal (digitCode a i), digitVal (digitCode b i)))).find? (fun d => d.1 != d.2) with
  | some d => decide (d.1 < d.2)
  | none => false

/-- The SDV of an EMPTY fibre: every digit −2. -/
def sdLowest : Tok := mkTok kSDV 8 (0xFFFFFFFF * 2 ^ 32 + (List.range 8).foldl (fun v i => v + 6 * 2 ^ (21 - 3 * i)) 0)

/-- An element taken into the running result; the position in a fibre of VALUE tokens is `r1`. -/
def NEnv.redTake (e : NEnv) (x : Node) (t : ITok) : Node :=
  let f := nwFmt e.w
  let prm := nwParam e.w
  let wd := fmtBits f
  if prm = 3 then
    if f = .sd then
      { x with acc := some (match x.acc with
        | some a => if sdBetter a.tok t.tok then t else a
        | none => t) }
    else
      let c := if hasCoord t.kind then tkCoord t.tok else x.r1
      let v := tkPay t.tok % 2 ^ wd
      let take : Bool := match x.acc with
        | some a => argBetter f (tkLow a.tok) v
        | none => true
      { x with r1 := x.r1 + 1, acc := if take then some (plain (mkData kPAIR c v)) else x.acc }
  else if nwPlane e.w = 1 then
    { x with acc := some (match x.acc with
      | some a => { a with vec := ofLanes wd ((List.range (512 / wd)).map (fun j => redElem prm f (lane wd a.vec j) (lane wd t.vec j))) }
      | none => { t with tok := mkData kVALUE 0 0, vec := ofLanes wd ((List.range (512 / wd)).map (fun j => canonical f (lane wd t.vec j))) }) }
  else
    { x with acc := some (match x.acc with
      | some a => plain (mkData kVALUE 0 (redElem prm f (tkPay a.tok) (tkPay t.tok % 2 ^ wd)))
      | none => plain (mkData kVALUE 0 (canonical f (tkPay t.tok % 2 ^ wd)))) }

/-- The token of a fibre's result; `c` is the coordinate with OPF. -/
def NEnv.redResult (e : NEnv) (x : Node) (c : Option Nat) : ITok :=
  let f := nwFmt e.w
  let prm := nwParam e.w
  let wd := fmtBits f
  if prm = 3 then
    if f = .sd then (match x.acc with
      | some a => a
      | none => plain sdLowest)
    else (match x.acc with
      | some a =>
        plain (mkTok kVALUE 0 (tkCoord a.tok * 2 ^ 32 + canonical f (tkLow a.tok)))
      | none => plain (mkTok kVALUE 0 (0xFFFFFFFF * 2 ^ 32 + lowest f)))
  else
    let r : ITok := match x.acc with
      | some a => a
      | none =>
        if nwPlane e.w = 1 then { tok := mkData kVALUE 0 0, vec := ofLanes wd (List.replicate (512 / wd) (redIdent prm f)) }
        else plain (mkData kVALUE 0 (redIdent prm f))
    match c with
    | some k => { r with tok := mkData kPAIR k (if nwPlane e.w = 1 then 0 else tkPay r.tok) }
    | none => r

/-- Whether REDUCE takes a data kind. -/
def NEnv.redKind (e : NEnv) (k : Nat) : Bool :=
  if nwFmt e.w = .sd then k == kSDV else hasValue k

/-- The close of a reduced fibre with OPF: first the coordinate, then (`r0` = 1) the stop that corresponds. -/
def NEnv.redClose (e : NEnv) (x : Node) (t : ITok) : Option NStep :=
  match x.headAt 1 e.cyc with
  | none => if x.r0 = 1 ∧ tkAux t.tok = 0 then some { x := { e.eat x 0 t with r0 := 0, acc := none, r1 := 0 } } else none
  | some c =>
    match e.check x 1 c with
    | some f => faulted x f
    | none =>
      if x.r0 = 0 then
        if !c.data then faulted x (streamFault c scRANK)
        else if !hasCoord c.kind then faulted x (streamFault c scBADKIND)
        else some { x := { e.eat x 1 c with r0 := 1 }, a := [e.redResult x (some (tkCoord c.tok))] }
      else if tkAux t.tok = 0 then some { x := { e.eat x 0 t with r0 := 0, acc := none, r1 := 0 } }
      else if c.kind = kSTOP ∧ tkAux c.tok + 1 = tkAux t.tok then
        some { x := { e.eat (e.eat x 0 t) 1 c with r0 := 0, acc := none, r1 := 0 }, a := [plain c.tok] }
      else faulted x (streamFault c scRANK)

def stepReduce (e : NEnv) (x : Node) : Option NStep :=
  match x.headAt 0 e.cyc with
  | none => none
  | some t =>
    match e.check x 0 t with
    | some f => faulted x f
    | none =>
      if t.data then
        if e.redKind t.kind then some { x := e.redTake (e.eat x 0 t) t } else faulted x (streamFault t scBADKIND)
      else if t.kind = kEMPTY then some { x := e.eat x 0 t }
      else if t.kind = kSTOP then
        if nwOpf e.w then e.redClose x t
        else some { x := { e.eat x 0 t with acc := none, r1 := 0 }
                    a := e.redResult x none :: (if tkAux t.tok = 0 then [] else [plain (tokStop (tkAux t.tok - 1))]) }
      else if nwOpf e.w then
        (match x.headAt 1 e.cyc with
         | none => none
         | some c =>
           if c.kind = kDONE ∧ (e.check x 1 c).isNone then some { x := e.eat (e.eat x 0 t) 1 c, a := [t] } else faulted x (streamFault c scRANK))
      else some { x := e.eat x 0 t, a := [t] }

/-! ### Router operations (R297, R299): whole streams. `phase` is 0 between streams -/

/-- One token of a stream that is moved: its port's next token, checked. -/
def NEnv.moved (e : NEnv) (x : Node) (p : Nat) : Option (Except NFault (ITok × Node)) :=
  match x.headAt p e.cyc with
  | none => none
  | some t => match e.check x p t with
    | some f => some (.error f)
    | none => some (.ok (t, e.eat x p t))

/-- A step that moves the next token of port `p`, from a state that may have changed already; `next` is the phase after DONE. -/
def NEnv.move (e : NEnv) (x : Node) (changed : Bool) (p next : Nat) (toB : Bool) : Option NStep :=
  match e.moved x p with
  | none => if changed then some { x := x } else none
  | some (.error f) => faulted x f
  | some (.ok (t, y)) =>
    let y := if t.kind = kDONE then { y with phase := next } else y
    some (if toB then { x := y, b := [t] } else { x := y, a := [t] })

/-- A FOLD that a step has emitted goes to both outputs (R257). -/
def NStep.foldBoth (r : NStep) : NStep :=
  let l := (r.a ++ r.b).filter (fun t => t.kind == kFOLD)
  if l.isEmpty then r else { r with a := l, b := l }

def stepSteer (e : NEnv) (x : Node) : Option NStep :=
  if x.phase = 0 then
    match x.cond e.cyc with
    | some c => (e.move { x.popCond e.cyc with phase := if c then 1 else 2 } true 0 0 (!c)).map NStep.foldBoth
    | none => none
  else (e.move x false 0 0 (x.phase == 2)).map NStep.foldBoth

def stepMerge (e : NEnv) (x : Node) : Option NStep :=
  if x.phase = 0 then
    match x.cond e.cyc with
    | some c => e.move { x.popCond e.cyc with phase := if c then 1 else 2 } true (if c then 0 else 1) 0 false
    | none => none
  else e.move x false (x.phase - 1) 0 false

/-- CARRY: phase 0 INIT, 1 LOOP, 2 a stream of port 1. -/
def stepCarry (e : NEnv) (x : Node) : Option NStep :=
  if x.phase = 0 then e.move x false 0 1 false
  else if x.phase = 1 then
    match x.cond e.cyc with
    | some true => e.move { x.popCond e.cyc with phase := 2 } true 1 1 false
    | some false => some { x := { x.popCond e.cyc with phase := 0 } }
    | none => none
  else e.move x false 1 1 false

/-- INVARIANT: phase 0 takes a stream, 1 holds it. -/
def stepInvariant (e : NEnv) (x : Node) : Option NStep :=
  if x.phase = 0 then
    match e.moved x 0 with
    | none => none
    | some (.error f) => faulted x f
    | some (.ok (t, y)) =>
      if 8 ≤ x.store.length then faulted x { cause := 9, kind := t.kind }
      else some { x := { y with store := x.store ++ [t], phase := if t.kind = kDONE then 1 else 0 } }
  else match x.cond e.cyc with
    | some true => some { x := x.popCond e.cyc, a := x.store }
    | some false => some { x := { x.popCond e.cyc with store := [], phase := 0 } }
    | none => none

/-- The side of SELECT: the next token of port `p`, when its stream is not over; ports that are over are listed in `dropLeft`. -/
def NEnv.selectTake (e : NEnv) (s : NStep) (p : Nat) (emit : Bool) : NStep :=
  if s.x.dropLeft.contains p || s.fault.isSome then s
  else match s.x.headAt p e.cyc with
    | none => s
    | some t =>
      let passOver := fun (y : Node) => if t.kind = kDONE then { y with dropLeft := p :: y.dropLeft } else y
      match t.mark with
      | some m => if emit then { s with lift := some m } else { s with x := passOver (e.eat s.x p t), clear := some m.1 }
      | none => (match e.check s.x p t with
        | some f => { s with fault := some f }
        | none => { s with x := passOver (e.eat s.x p t), a := if emit then s.a ++ [t] else s.a })

/-- SELECT: phase 1 emits port 0, 2 emits port 1. -/
def stepSelect (e : NEnv) (x : Node) : Option NStep :=
  let go := fun (y : Node) =>
    let s := e.selectTake (e.selectTake { x := y } 0 (y.phase == 1)) 1 (y.phase == 2)
    if 2 ≤ s.x.dropLeft.length then { s with x := { s.x with phase := 0, dropLeft := [] } } else s
  if x.phase = 0 then (x.cond e.cyc).map (fun c => go { x.popCond e.cyc with phase := if c then 1 else 2 })
  else
    let s := go x
    if s.x = x ∧ s.fault.isNone ∧ s.lift.isNone then none else some s

/-- The cycle in which the head of an input has arrived. -/
def Node.since (x : Node) (p : Nat) : Nat :=
  match x.input p with
  | b :: _ => b.from_
  | [] => 0

/-- PMENTER: the permit at port 0 and the contender whose first token arrived first. -/
def stepPmenter (e : NEnv) (x : Node) : Option NStep :=
  if x.phase = 0 then
    match x.headAt 0 e.cyc with
    | none => none
    | some t =>
      let p : Option Nat := match x.headAt 1 e.cyc, x.headAt 2 e.cyc with
        | some _, some _ => some (if x.since 2 < x.since 1 then 2 else 1)
        | some _, none => some 1
        | none, some _ => some 2
        | none, none => none
      match p, e.check x 0 t with
      | none, _ => none
      | some _, some f => faulted x f
      | some q, none => (e.move { e.eat x 0 t with phase := q } true q 0 false).map (fun s => { s with b := [t] })
  else e.move x false x.phase 0 false

/-- PMEXIT: a stream's DONE passes with the permit held on port 1. -/
def stepPmexit (e : NEnv) (x : Node) : Option NStep :=
  match x.headAt 0 e.cyc with
  | none => none
  | some t =>
    if t.kind = kDONE then
      match x.headAt 1 e.cyc with
      | none => none
      | some p =>
        match e.checks x [(0, t), (1, p)] with
        | some f => faulted x f
        | none => some { x := e.eat (e.eat x 0 t) 1 p, a := [t], b := [p] }
    else e.move x false 0 0 false

/-- SINK: everything is consumed, unchecked. -/
def stepSink (e : NEnv) (x : Node) : Option NStep :=
  match x.headAt 0 e.cyc with
  | none => none
  | some t => some { x := { x.pop 0 e.cyc with doneSeen := x.doneSeen || t.kind == kDONE } }

/-! ### What every unit does first (R257, R298) -/

/-- The link ports of a node. -/
def linkPorts (w : NodeWord) : List Nat := (usedPorts w).filter (· != 3)

/-- Whether a node moves whole streams, in which a FOLD travels. The permit outputs of PMENTER and PMEXIT, of depth 0, take none (R257; DEDUCED,
log 57). -/
def movesStreams (op : Nat) : Bool := decide (0x30 ≤ op ∧ op ≤ 0x36)

/-- Tokens are discarded through each input's DONE, then the output ends with the marked DONE. -/
def NEnv.dropStep (e : NEnv) (x : Node) (m : Nat × Nat) : NStep :=
  let y := x.dropLeft.foldl (fun (y : Node) p => match y.headAt p e.cyc with
    | some t =>
      let z := { y.pop p e.cyc with grams := y.grams.setIfInBounds p {} }
      if t.kind = kDONE then { z with dropLeft := z.dropLeft.filter (· != p) } else z
    | none => y) x
  if y.dropLeft.isEmpty then
    let out : List ITok := [{ tok := tokDone, mark := some m }]
    { x := { y with drop := none, grams := Vector.replicate 3 {}, held := none, phase := 0, r0 := 0, r1 := 0, r2 := 0, r3 := 0
                    kinds := [none, none], acc := none, rows := [], cur := [], got := [], store := [], fetchWait := none }
      a := out, b := if twoOuts (nwOp e.w) then out else [] }
  else { x := y }

/-- A node with SUPP begins to discard; an input whose DONE has been taken is not read further. -/
def NEnv.startDrop (e : NEnv) (x : Node) (m : Nat × Nat) : Node := { x with drop := some m, dropLeft := linkPorts e.w }

/-- The marked DONE at an input, if one stands there. -/
def NEnv.markedHead (e : NEnv) (x : Node) : Option (Nat × Nat) :=
  (linkPorts e.w).findSome? (fun p => (x.headAt p e.cyc).bind (fun t => t.mark))

/-- A FOLD at an input. -/
def NEnv.foldHead (e : NEnv) (x : Node) : Option (Nat × ITok) :=
  (linkPorts e.w).findSome? (fun p => match x.headAt p e.cyc with
    | some t => if t.kind = kFOLD then some (p, t) else none
    | none => none)

/-- The parts of a step that are common to the units, then the unit's own. -/
def NEnv.common (e : NEnv) (x : Node) (own : Option NStep) : Option NStep :=
  let op := nwOp e.w
  match x.drop with
  | some m => some (e.dropStep x m)
  | none =>
    match (if op = 0x34 then none else e.markedHead x) with
    | some m => some (if nwSupp e.w then { x := e.startDrop x m } else { x := x, lift := some m })
    | none =>
      match (if movesStreams op || op == 0x39 then none else e.foldHead x) with
      | some (p, t) => (match e.check x p t with
        | some f => faulted x f
        | none => some { x := e.eat x p t, a := [plain t.tok], b := if twoOuts op then [plain t.tok] else [] })
      | none => own

end Sys2Proof.Machine
end

