-- ==== Sys2Proof/Machine/Nodes.lean ====
section
/-! DEFINITION. The nodes of a running island: links and control routes (R261 to R263, R284, R286, R388), the steps of one node in one
cycle (R290), node faults (R298, R309 to R311), scanning (R291), memory nodes (R300 to R302), MBAR (R303), ARRAY (R304, R305) and edge
ports (R306). -/
namespace Sys2Proof.Machine

/-! ### The active configuration -/

def Isl.words (i : Isl) : List NodeWord :=
  match i.activeBank with
  | some b => (i.bank b).nodes
  | none => []

/-- The number of a slot among the argument slots (R283). -/
def argIndex (ws : List NodeWord) (n : Nat) : Nat := ((argSlots ws).filter (fun m => decide (m < n))).length

/-- A node's word, with the value of its argument slot as its constant (R393). -/
def Isl.wordOf (i : Isl) (n : Nat) : NodeWord :=
  let w := nodeAt i.words n
  match i.activeBank with
  | some b =>
    if nwArgw w then BitVec.ofNat 128 (w.toNat / 2 ^ 64 * 2 ^ 64 + (sget 0 (i.bank b).args (argIndex i.words n)).toNat) else w
  | none => w

/-- What node `n` of island `k` sees in this cycle. -/
def Isl.env (i : Isl) (k n : Nat) : NEnv where
  w := i.wordOf n
  depth := fun p => match i.activeBank with
    | some b => sget 0 (i.bank b).depths (4 * n + p)
    | none => 0
  cyc := i.cyc
  isl := k
  slot := n

/-! ### Node fault registers (R311) -/

def Isl.faultReg (i : Isl) (n : Nat) : W64 := sget 0 i.nfault n

/-- A register with a fault: bit 63 or 62, FLAGS kept. -/
def faultWord (old : W64) (top : Nat) (f : NFault) : W64 :=
  BitVec.ofNat 64 (2 ^ top + old.toNat / 2 ^ 52 % 32 * 2 ^ 52 + f.kind % 16 * 2 ^ 48 + f.cause % 256 * 2 ^ 40 + f.sub % 256 * 2 ^ 32 +
    f.detail % 2 ^ 32)

/-- FLAGS accumulate (R295). -/
def Isl.addFlags (i : Isl) (n : Nat) (f : FFlags) : Isl :=
  if f = 0 then i
  else
    let b : W64 := BitVec.ofNat 64 (f.toNat * 2 ^ 52)
    { i with nfault := sset 0 i.nfault n (i.faultReg n ||| b), flagNow := sset 0 i.flagNow n (sget 0 i.flagNow n ||| b) }

/-- The first node to fault, and the lowest slot among the faults of one cycle (R309). -/
def Isl.noteFaulting (i : Isl) (n : Nat) : Isl :=
  match i.faulting with
  | none => { i with faulting := some (n, i.cyc) }
  | some (m, c) => if c = i.cyc ∧ n < m then { i with faulting := some (n, c) } else i

/-- A node faults: with SUPP the fault is held, and the node discards its inputs (R298); else the invocation ends (R309). -/
def Isl.nodeFault (i : Isl) (e : NEnv) (f : NFault) : Isl :=
  if nwSupp e.w ∧ f.cause ≠ 4 ∧ f.cause ≠ 5 then
    { i with nfault := sset 0 i.nfault e.slot (faultWord (i.faultReg e.slot) 62 f) }.putNode e.slot
      (e.startDrop (i.node e.slot) (e.slot, f.cause * 256 + f.sub))
  else ({ i with nfault := sset 0 i.nfault e.slot (faultWord (i.faultReg e.slot) 63 f) }).noteFaulting e.slot

/-- The fault held at node `n` becomes a node fault (R298). -/
def Isl.liftFault (i : Isl) (n : Nat) : Isl :=
  ({ i with nfault := sset 0 i.nfault n ((i.faultReg n ||| (1#64 <<< 63)) &&& ~~~(1#64 <<< 62)) }).noteFaulting n

/-- The fault held at node `n` is forgotten (R298). -/
def Isl.clearFault (i : Isl) (n : Nat) : Isl := { i with nfault := sset 0 i.nfault n (i.faultReg n &&& ~~~(1#64 <<< 62)) }

/-- Whether the tokens of the region move: an invocation runs, and no bank is reloading (R307, R308, R394). -/
def Isl.flows (i : Isl) : Bool :=
  !i.frozen && (List.range 4).all (fun b => !(i.bank b).reloading) &&
    (match i.run with
     | some r => !r.gone
     | none => false)

/-- Whether node `n` goes on in this cycle: it has not faulted, and no node has in an earlier cycle. -/
def Isl.live (i : Isl) (n : Nat) : Bool :=
  i.flows && nwOp (nodeAt i.words n) != 0 && !bit (i.faultReg n).toNat 63 &&
    (match i.faulting with
     | some (_, c) => c == i.cyc
     | none => true)

/-! ### Links (R261, R262, R284) -/

/-- Slots of an input freed in this cycle, which are free for the producer from the next. -/
def Node.freedNow (x : Node) (p cyc : Nat) : Nat := if x.freedAt = cyc + 1 ∧ x.freed.contains p then 1 else 0

/-- Routers of the condition route between two slots, those of its ends included (R388). -/
def routeLen (a b : Nat) : Nat := (routeFrom (b % 64) 14 (a % 64)).length

/-- Whether an input of a consumer has room for a token from slot `n`: four slots of a link, two bits at each router of a route. -/
def Isl.room (i : Isl) (n : Nat) (c : Nat × Nat) : Bool :=
  let x := i.node c.1
  if c.2 = 3 then decide (x.conds.length + x.freedNow 3 i.cyc < 2 * routeLen n c.1)
  else decide ((x.input c.2).length + x.freedNow c.2 i.cyc < 4)

/-- A data token of the control plane at a data-plane input: its element value in every lane. -/
def ITok.spread (t : ITok) (w : Nat) : ITok :=
  if t.data then
    { t with
      tok := if t.kind = kVALUE ∨ t.kind = kPAIR then mkData t.kind (tkCoord t.tok) 0 else t.tok
      vec := ofLanes w (List.replicate (512 / w) (tkPay t.tok % 2 ^ w)) }
  else t

/-- A token enters the input of a consumer. -/
def Isl.deliver (i : Isl) (n : Nat) (t : ITok) (c : Nat × Nat) : Isl :=
  let w := nodeAt i.words c.1
  let p := nodeAt i.words n
  let t := if nwRep p && nwPlane p == 0 && dataInput w c.2 then t.spread (fmtBits (nwFmt w)) else t
  let x := i.node c.1
  i.putNode c.1 { x with ins := x.ins.setIfInBounds c.2 (x.input c.2 ++ [{ tok := t, from_ := i.cyc + 1 + between n c.1 }]) }

/-- A condition enters its route. -/
def Isl.deliverCond (i : Isl) (n : Nat) (v : Bool) (c : Nat × Nat) : Isl :=
  let x := i.node c.1
  i.putNode c.1 { x with conds := x.conds ++ [(v, i.cyc + 1 + between n c.1)] }

/-- Output A (0) or B (1) of a node emits the token that is due, when every consumer has room. -/
def Isl.emitOut (i : Isl) (n o : Nat) : Isl :=
  let x := i.node n
  match (if o = 0 then x.outA else x.outB) with
  | b :: bs =>
    let cs := consumers i.words n o
    if b.from_ ≤ i.cyc ∧ cs.all (i.room n) then
      cs.foldl (fun i c => i.deliver n b.tok c) (i.putNode n (if o = 0 then { x with outA := bs } else { x with outB := bs }))
    else i
  | [] => i

/-- The same for the condition bits of a node with COND. -/
def Isl.emitCond (i : Isl) (n : Nat) : Isl :=
  let x := i.node n
  match x.condOut with
  | b :: bs =>
    let cs := consumers i.words n 0
    if b.2 ≤ i.cyc ∧ cs.all (i.room n) then cs.foldl (fun i c => i.deliverCond n b.1 c) (i.putNode n { x with condOut := bs })
    else i
  | [] => i

/-- What a node emits in this cycle; a PORTOUT's tokens leave for the mesh. -/
def Isl.emit (i : Isl) (n : Nat) : Isl :=
  if noOuts (nwOp (nodeAt i.words n)) then i else ((i.emitOut n 0).emitOut n 1).emitCond n

/-! ### One node in one cycle (R290) -/

/-- The latency of R290 for the operations that have a fixed one; the table gives MBAR and ARG none. -/
def nodeLatency (w : NodeWord) : Nat :=
  let op := nwOp w
  if isAlu op then (if isIntFmt (nwFmt w) ∨ op = 0x1D ∨ op = 0x1E then 1 else 3)
  else match op with
    | 0x03 => 1 | 0x04 => 1 | 0x05 => 1 | 0x06 => 1 | 0x23 => 1
    | 0x20 => 3 | 0x21 => 3 | 0x22 => 3
    | _ => 0

/-- Bit 0 of a result (R286). -/
def condBit (w : NodeWord) (t : ITok) : Bool := if nwPlane w = 1 then t.vec.getLsbD 0 else bit t.tok.toNat 0

/-- Tokens put into the outputs, to leave from island cycle `at_` on; with COND, the bits of the data tokens instead. -/
def Node.push (x : Node) (w : NodeWord) (at_ : Nat) (a b : List ITok) : Node :=
  if nwCond w then { x with condOut := x.condOut ++ (a.filter (·.data)).map (fun t => (condBit w t, at_)) }
  else { x with
    outA := x.outA ++ a.map (fun t => { tok := t, from_ := at_ })
    outB := x.outB ++ b.map (fun t => { tok := t, from_ := at_ }) }

/-- Whether a node's outputs hold as much as its stages can. -/
def Node.stalled (x : Node) (lat : Nat) : Bool :=
  decide (lat < x.outA.length) || decide (lat < x.outB.length) || decide (lat < x.condOut.length)

/-- What a step of a node leaves. -/
def Isl.apply (i : Isl) (e : NEnv) (r : NStep) : Isl :=
  let i := (i.putNode e.slot (r.x.push e.w (e.cyc + 1 + nodeLatency e.w) r.a r.b)).addFlags e.slot r.flags
  let i := match r.clear with
    | some n => i.clearFault n
    | none => i
  let i := match r.lift with
    | some m => i.liftFault m.1
    | none => i
  match r.fault with
  | some f => i.nodeFault e f
  | none => i

/-- The island has moved a token (R408). -/
def Isl.moves (i : Isl) (now : Nat) : Isl := { i with moved := now + 1 }

/-- The cycle of a node that has only its tokens to look at: it emits, then consumes. -/
def State.fire (s : State) (k n : Nat) (own : NEnv → Node → Option NStep) : State :=
  if !(s.isl k).live n then s
  else
    let i := (s.isl k).emit n
    let e := i.env k n
    let x := i.node n
    if x.stalled (nodeLatency e.w) then s.putIsl k i
    else match e.common x (own e x) with
      | none => s.putIsl k i
      | some r => s.putIsl k ((i.apply e r).moves s.sched.cycle)

/-- ALU map of operation `op`: the event of another operation does nothing. -/
def State.fireAlu (s : State) (k n op : Nat) : State :=
  if nwOp (nodeAt (s.isl k).words n) = op then s.fire k n stepAlu else s

/-- The cycle of a node of operation `op`. -/
def State.fireOp (s : State) (k n op : Nat) (own : NEnv → Node → Option NStep) : State :=
  if nwOp (nodeAt (s.isl k).words n) = op then s.fire k n own else s

def execIntersect (k n : Nat) (s : State) : Out := .next (s.fireOp k n 0x03 (fun e x => stepCoord e x false))
def execUnion (k n : Nat) (s : State) : Out := .next (s.fireOp k n 0x04 (fun e x => stepCoord e x true))
def execRepeatNode (k n : Nat) (s : State) : Out := .next (s.fireOp k n 0x05 stepRepeat)
def execReduce (k n : Nat) (s : State) : Out := .next (s.fireOp k n 0x06 stepReduce)
def execAluAdd (k n : Nat) (s : State) : Out := .next (s.fireAlu k n 0x10)
def execAluSub (k n : Nat) (s : State) : Out := .next (s.fireAlu k n 0x11)
def execAluMul (k n : Nat) (s : State) : Out := .next (s.fireAlu k n 0x12)
def execAluDiv (k n : Nat) (s : State) : Out := .next (s.fireAlu k n 0x13)
def execAluMin (k n : Nat) (s : State) : Out := .next (s.fireAlu k n 0x14)
def execAluMax (k n : Nat) (s : State) : Out := .next (s.fireAlu k n 0x15)
def execAluAnd (k n : Nat) (s : State) : Out := .next (s.fireAlu k n 0x16)
def execAluOr (k n : Nat) (s : State) : Out := .next (s.fireAlu k n 0x17)
def execAluXor (k n : Nat) (s : State) : Out := .next (s.fireAlu k n 0x18)
def execAluShl (k n : Nat) (s : State) : Out := .next (s.fireAlu k n 0x19)
def execAluShr (k n : Nat) (s : State) : Out := .next (s.fireAlu k n 0x1A)
def execAluAbs (k n : Nat) (s : State) : Out := .next (s.fireAlu k n 0x1B)
def execAluNeg (k n : Nat) (s : State) : Out := .next (s.fireAlu k n 0x1C)
def execAluPass (k n : Nat) (s : State) : Out := .next (s.fireAlu k n 0x1D)
def execAluCmp (k n : Nat) (s : State) : Out := .next (s.fireAlu k n 0x1E)
def execAluFma (k n : Nat) (s : State) : Out := .next (s.fireAlu k n 0x1F)
def execCvt (k n : Nat) (s : State) : Out := .next (s.fireOp k n 0x20 stepCvt)
def execSd2b (k n : Nat) (s : State) : Out := .next (s.fireOp k n 0x21 stepSd2b)
def execB2sd (k n : Nat) (s : State) : Out := .next (s.fireOp k n 0x22 stepB2sd)
def execWconv (k n : Nat) (s : State) : Out := .next (s.fireOp k n 0x23 stepWconv)
def execSteer (k n : Nat) (s : State) : Out := .next (s.fireOp k n 0x30 stepSteer)
def execMerge (k n : Nat) (s : State) : Out := .next (s.fireOp k n 0x31 stepMerge)
def execCarry (k n : Nat) (s : State) : Out := .next (s.fireOp k n 0x32 stepCarry)
def execInvariant (k n : Nat) (s : State) : Out := .next (s.fireOp k n 0x33 stepInvariant)
def execSelect (k n : Nat) (s : State) : Out := .next (s.fireOp k n 0x34 stepSelect)
def execPmenter (k n : Nat) (s : State) : Out := .next (s.fireOp k n 0x35 stepPmenter)
def execPmexit (k n : Nat) (s : State) : Out := .next (s.fireOp k n 0x36 stepPmexit)
def execSink (k n : Nat) (s : State) : Out := .next (s.fireOp k n 0x39 stepSink)

/-- ARG has no input: its initial tokens leave as their consumers have room (R306). -/
def execArg (k n : Nat) (s : State) : Out := .next (s.fireOp k n 0x38 (fun _ _ => none))

/-! ### Stream barriers (R303) -/

/-- The nodes that an MBAR names: memory nodes by tile, and scanning nodes by row. -/
def mbarNames (w : NodeWord) (ws : List NodeWord) (n : Nat) : Bool :=
  let op := nwOp (nodeAt ws n)
  (isMemNode op && bit (nwParam w) (n / 8)) || ((op == 0x01 || op == 0x02) && bit (nwParam w) (8 + n / 8))

/-- Whether a node has an access that has started and has not been performed. -/
def State.streamBusy (s : State) (k n : Nat) : Bool :=
  s.flights.any (fun a => a.agent == .stream k n) || ((s.isl k).node n).fetchWait.isSome

/-- The tokens that stand at the input of an MBAR. -/
def Isl.standingAt (i : Isl) (m : Nat) : List Buf := ((i.node m).input 0).takeWhile (fun b => decide (b.from_ ≤ i.cyc))

/-- Whether an access of a named node that began before the last trigger's arrival may be outstanding. -/
def State.mbarBusy (s : State) (k m : Nat) : Bool :=
  let i := s.isl k
  (slots i.words).any (fun n => mbarNames (nodeAt i.words m) i.words n && s.streamBusy k n)

/-- Whether a barrier keeps node `n` from starting an access: a trigger stands at it for which the accesses before its arrival have not all been
performed (`r0` counts the tokens at it that await none). -/
def State.barred (s : State) (k n : Nat) : Bool :=
  let i := s.isl k
  (slots i.words).any (fun m =>
    nwOp (nodeAt i.words m) == 0x37 && mbarNames (nodeAt i.words m) i.words n &&
      ((i.standingAt m).drop (i.node m).r0).any (fun b => b.tok.data))

/-- A trigger passes once the named accesses that began before it have been performed; other tokens pass as they are. -/
def stepMbar (e : NEnv) (x : Node) : Option NStep :=
  match x.headAt 0 e.cyc with
  | none => none
  | some t =>
    match e.check x 0 t with
    | some f => faulted x f
    | none =>
      if t.data ∧ x.r0 = 0 then none
      else some { x := { e.eat x 0 t with r0 := x.r0 - 1 }, a := [t] }

/-- No access of a named node is outstanding: the tokens that stand at an MBAR await none. -/
def State.clearBarrier (s : State) (k n : Nat) : State :=
  if !(s.isl k).live n || nwOp (nodeAt (s.isl k).words n) != 0x37 || s.mbarBusy k n then s
  else s.modIsl k (fun i => i.putNode n { i.node n with r0 := (i.standingAt n).length })

def execMbar (k n : Nat) (s : State) : Out := .next ((s.clearBarrier k n).fireOp k n 0x37 stepMbar)

/-! ### SCAN and SCANL (R291): phase 0 between fibres, 1 and 2 reading the segment bounds, 3 the entries, 4 and 5 dense -/

/-- Address and size of the read that a phase makes. -/
def NEnv.scanRead (e : NEnv) (x : Node) (l : Bool) : Nat × MSize :=
  let v := (nwConst e.w).toNat
  let s := nwParam e.w
  let ent := (v + 4 * (s + 1) + 7) / 8 * 8
  match x.phase with
  | 1 => (v + 4 * x.r0, .w)
  | 2 => (v + 4 * (x.r0 + 1), .w)
  | 3 => if l then (ent + 8 * x.r1, .d) else (ent + 4 * x.r1, .w)
  | _ => (v + 4 * (x.r0 * s + x.r1), .w)

/-- The stop held back, if any. -/
def Node.heldStop (x : Node) : List ITok :=
  match x.held with
  | some n => [plain (tokStop n)]
  | none => []

/-- An element of the fibre. -/
def Node.scanEmit (x : Node) (last : Nat) (t : Tok) : NStep :=
  { x := { x with
      busy := 0
      got := []
      r1 := x.r1 + 1
      grams := x.grams.setIfInBounds 2 { coord := some (tkCoord t) }
      phase := if x.r1 + 1 = last then 0 else x.phase
      held := if x.r1 + 1 = last then some 0 else none }
    a := [plain t] }

/-- What a read has brought. -/
def NEnv.scanGot (e : NEnv) (x : Node) (l : Bool) (v : Nat) : NStep :=
  match x.phase with
  | 1 => { x := { x with busy := 0, got := [], r1 := v, phase := 2 } }
  | 2 =>
    if v < x.r1 then { x := { x with busy := 0, got := [] }, fault := some { cause := 6, detail := x.r0 } }
    else if v = x.r1 then { x := { x with busy := 0, got := [], phase := 0, held := some 0 }, a := [plain tokEmpty] }
    else { x := { x with busy := 0, got := [], r2 := v, phase := 3 } }
  | 3 =>
    let t := if l then mkData kPAIR (v / 2 ^ 32) v else mkData kREF v x.r1
    if (match (x.gram 2).coord with
      | some c => decide (tkCoord t ≤ c)
      | none => false) then { x := { x with busy := 0, got := [] }, fault := some (streamFault (plain t) scORDER) }
    else x.scanEmit x.r2 t
  | _ => x.scanEmit (nwParam e.w) (mkData kPAIR x.r1 v)

/-- The next token of the reference stream. -/
def NEnv.scanTake (e : NEnv) (x : Node) (l : Bool) (t : ITok) : Option NStep :=
  let v := (nwConst e.w).toNat
  let y := e.eat x 0 t
  if t.data then
    if !(t.kind == kREF || (t.kind == kVALUE && e.depth 0 == 0)) then faulted x (streamFault t scBADKIND)
    else if (if nwOpf e.w then l && decide (v % 4 ≠ 0) else decide (v % 8 ≠ 0)) then faulted x { cause := 2, detail := v, kind := t.kind }
    else if !nwOpf e.w ∧ nwParam e.w ≤ tkLow t.tok then faulted x { cause := 2, detail := tkLow t.tok, kind := t.kind }
    else some { x := { y with held := none, r0 := tkLow t.tok, r1 := 0, r2 := 0, grams := y.grams.setIfInBounds 2 {}
                              phase := if nwOpf e.w then (if l then 5 else 4) else 1 }
                a := x.heldStop }
  else if t.kind = kPERMIT then faulted x (streamFault t scBADKIND)
  else if t.kind = kSTOP then some { x := { y with held := some (tkAux t.tok + 1) } }
  else some { x := { y with held := none }, a := x.heldStop ++ [t] }

/-- The part of a scanning node's cycle that needs no memory. -/
def stepScan (l : Bool) (e : NEnv) (x : Node) : Option NStep :=
  if x.phase = 0 then
    match x.headAt 0 e.cyc with
    | none => none
    | some t => (match e.check x 0 t with
      | some f => faulted x f
      | none => e.scanTake x l t)
  else if x.phase = 4 then some (x.scanEmit (nwParam e.w) (mkData kREF x.r1 (x.r0 * nwParam e.w + x.r1)))
  else match x.got with
    | [] => none
    | (v, bad) :: _ =>
      if bad = 7 then faulted { x with busy := 0, got := [] } { cause := 3, sub := 7, detail := (e.scanRead x l).1 }
      else if bad ≠ 0 then faulted { x with busy := 0, got := [] } { cause := if bad = 9 then 5 else 4, detail := x.r3 }
      else some (e.scanGot x l v)

/-- A read of an island's address stream leaves (R280). -/
def State.sendRead (s : State) (k n g va : Nat) (z : MSize) (via : List Via) : State :=
  let q := s.fresh.1
  (s.fresh.2.modNode k n (fun x => { x with busy := 1, r3 := g, fetchWait := none })).present
    { seq := q, agent := .stream k n, ga := g, va := va, size := z.bytes, via := via
      op := if gaSpace g = 5 then .regLoad 0 else .load z false 0 }

/-- The fault of an address stream's translation (R310). -/
def State.streamTrap (s : State) (k : Nat) (e : NEnv) (code va : Nat) : State :=
  s.putIsl k ((s.isl k).nodeFault e { cause := 3, sub := code, detail := va })

/-- The read that a scanning node's phase asks for starts, once its last is done (R233). -/
def State.scanStart (s : State) (k n : Nat) (l : Bool) : State :=
  let i := s.isl k
  let x := i.node n
  let e := i.env k n
  let need : Bool := x.phase == 1 || x.phase == 2 || x.phase == 3 || x.phase == 5
  let entryBusy : Bool := match x.fetchWait with
    | some (j, _) => (s.entry (80 + k) j).st == .fetching || (s.entry (80 + k) j).st == .moving
    | none => false
  if !i.live n || !need || x.drop.isSome || x.busy ≠ 0 || !x.got.isEmpty || decide (2 ≤ x.outA.length) || entryBusy ||
    (x.fetchWait.isNone && s.barred k n) then s
  else
    let r := e.scanRead x l
    match s.translateIsl k r.1 r.2.bytes permR with
    | .ok g via =>
      if (s.mapCheck g r.2.bytes .plain r.1).isSome || (gaSpace g == 5 && r.2 != .d) then s.streamTrap k e 5 r.1
      else s.sendRead k n g r.1 r.2 via
    | .fault f => s.streamTrap k e f.cause r.1
    | .wait _ j share => s.modNode k n (fun x => { x with fetchWait := some (j, share) })
    | .fetch tbl j lo hi a b _ => (s.startFetch tbl j lo hi a b).modNode k n (fun x => { x with fetchWait := some (j, true) })

/-- A faulted DONE at the input waits for the end of the fibre. -/
def State.fireScan (s : State) (k n : Nat) (l : Bool) : State :=
  let i := s.isl k
  if nwOp (nodeAt i.words n) ≠ (if l then 2 else 1) ∨ !i.live n then s
  else
    let i := i.emit n
    let e := i.env k n
    let x := i.node n
    let own := stepScan l e x
    let r : Option NStep := if decide (1 < x.outA.length) then none
      else if x.phase ≠ 0 ∧ x.drop.isNone ∧ (e.markedHead x).isSome then own
      else e.common x own
    let s := match r with
      | none => s.putIsl k i
      | some r => s.putIsl k ((i.apply e r).moves s.sched.cycle)
    s.scanStart k n l

def execScan (k n : Nat) (s : State) : Out := .next (s.fireScan k n false)
def execScanl (k n : Nat) (s : State) : Out := .next (s.fireScan k n true)

/-! ### Memory nodes (R300 to R302): `store` holds the tokens that have entered, `cur` the addresses of the accesses -/

/-- Bytes of an access. -/
def memBytes (w : NodeWord) : Nat := if nwPlane w = 1 then 64 else fmtBits (nwFmt w) / 8

/-- The index that a token names. -/
def memIndex (t : ITok) : Nat := if hasCoord t.kind then tkCoord t.tok else tkLow t.tok

/-- The element of a data token, or its vector. -/
def memValue (w : NodeWord) (t : ITok) : Nat := if nwPlane w = 1 then t.vec.toNat else tkPay t.tok % 2 ^ fmtBits (nwFmt w)

/-- A token with a value in the place of its own. -/
def ITok.withValue (t : ITok) (w : NodeWord) (v : Nat) : ITok :=
  if nwPlane w = 1 then { t with tok := mkData t.kind (tkCoord t.tok) 0, vec := BitVec.ofNat 512 v }
  else { t with tok := mkData t.kind (tkCoord t.tok) v }

/-- The output token for the value that an access has brought; `d` is the depth of the stream. In a stream of depth 0, which holds no PAIR
(R256), the token is a VALUE though its address be an SDV (R300; DEDUCED, log 58). -/
def memResult (w : NodeWord) (d : Nat) (t : ITok) (v : Nat) : ITok :=
  if nwOp w = 0x41 then t
  else if nwOp w = 0x42 then t.withValue w v
  else (plain (mkData (if hasCoord t.kind ∧ d ≠ 0 then kPAIR else kVALUE) (tkCoord t.tok) 0)).withValue w v

/-- The results that have come, and what passes between them, leave for the output. -/
def Node.memDrain (w : NodeWord) (d cyc : Nat) : Nat → Node → Node
  | 0, x => x
  | m + 1, x =>
    match x.store, x.got with
    | t :: ts, got =>
      if !t.data then Node.memDrain w d cyc m ({ x with store := ts }.push w cyc [t] [])
      else (match got with
        | (v, 0) :: rest => Node.memDrain w d cyc m ({ x with store := ts, got := rest, cur := x.cur.drop 1, busy := x.busy - 1 }.push w cyc [memResult w d t v] [])
        | _ => x)
    | [], _ => x

/-- The fault that an access has brought. -/
def memBad (x : Node) : Option NFault :=
  match x.store, x.got, x.cur with
  | t :: _, (_, bad) :: _, (g, _) :: _ =>
    if t.data ∧ bad ≠ 0 then
      some { cause := if bad = 9 then 5 else 4, detail := g }
    else none
  | _, _, _ => none

/-- The heads of a memory node's inputs and the fault of their grammar or of their structure. -/
def NEnv.memHeads (e : NEnv) (x : Node) : Option (Except NFault (List (Nat × ITok))) :=
  (e.heads x (usedPorts e.w)).map (fun l => match e.checks x l with
    | some f => .error f
    | none => (match l with
      | [a, b] =>
        if a.2.data ∧ b.2.data then (if hasValue b.2.kind || nwPlane e.w == 1 then .ok l else .error (streamFault b.2 scBADKIND))
        else if a.2.kind = b.2.kind ∧ tkAux a.2.tok = tkAux b.2.tok then .ok l
        else .error (streamFault b.2 scRANK)
      | _ => .ok l))

/-- The access of a memory node. -/
def memOp (w : NodeWord) (l : List (Nat × ITok)) : AccOp :=
  let v := match l with
    | [_, b] => memValue w b.2
    | _ => 0
  let z : MSize := match memBytes w with
    | 1 => .b
    | 2 => .h
    | 4 => .w
    | _ => .v
  if nwOp w = 0x41 then .store z true v
  else if nwOp w = 0x42 then .rmw (nwParam w) (nwFmt w) (if nwPlane w = 1 then 512 / fmtBits (nwFmt w) else 1) v
  else if nwOpf w then .fe z false 0
  else .load z false 0

/-- A token that is no address passes behind the accesses before it. -/
def Node.passMem (x : Node) (e : NEnv) (t : ITok) : Node :=
  if x.store.isEmpty then x.push e.w (e.cyc + 2) [t] [] else { x with store := x.store ++ [t] }

/-- A memory node consumes the tokens of one position: an access enters the pipeline, or a token passes. -/
def State.memTake (s : State) (k : Nat) (e : NEnv) (l : List (Nat × ITok)) : State :=
  let n := e.slot
  let x := (s.isl k).node n
  match l with
  | [] => s
  | (_, a) :: rest =>
    let y := l.foldl (fun y p => e.eat y p.1 p.2) x
    if !a.data then
      if a.kind = kPERMIT then s.putIsl k ((s.isl k).nodeFault e (streamFault a scBADKIND))
      else s.modNode k n (fun _ => y.passMem e a)
    else
      let sz := memBytes e.w
      let off := (nwConst e.w).toNat % 2 ^ 20 + memIndex a * sz
      let g := s.ga 2 k (n / 8 * 2 ^ 20 + off)
      if off % sz ≠ 0 ∨ 2 ^ 20 < off + sz then
        s.putIsl k ((s.isl k).nodeFault e { cause := 2, detail := off, kind := a.kind })
      else if s.barred k n || s.blocked g || !s.ownerFree g sz || (nwOpf e.w && decide (x.busy ≠ 0)) then s
      else
        let op := memOp e.w l
        let s1 := s.fresh.2.modNode k n (fun _ => { y with
          store := y.store ++ [match rest with
            | p :: _ => p.2
            | [] => a]
          cur := y.cur ++ [(g, sz)]
          busy := y.busy + 1 })
        let s2 := s1.takeOwner g sz op.twoCycles op.isWrite
        { s2 with flights := s2.flights ++ [{ seq := s.fresh.1, agent := .stream k n, op := op, ga := g, va := 0, size := sz
                                              due := s.sched.cycle + 2, entered := true }] }

/-- A memory node that discards, or meets a faulted DONE, does what every unit does (R298). -/
def State.memCommon (s : State) (k : Nat) (e : NEnv) : State :=
  match e.common ((s.isl k).node e.slot) none with
  | some r => s.putIsl k (((s.isl k).apply e r).moves s.sched.cycle)
  | none => s

/-- A FOLD at an input of a memory node passes behind the accesses before it (R257, R261). -/
def State.memFold (s : State) (k : Nat) (e : NEnv) (p : Nat × ITok) : State :=
  match e.check ((s.isl k).node e.slot) p.1 p.2 with
  | some f => s.putIsl k ((s.isl k).nodeFault e f)
  | none => (s.modNode k e.slot (fun x => (e.eat x p.1 p.2).passMem e p.2)).modIsl k (fun i => i.moves s.sched.cycle)

/-- The cycle of a memory node, after the accesses of the mesh (R301). -/
def State.fireMem (s : State) (k n op : Nat) : State :=
  let i := s.isl k
  if nwOp (nodeAt i.words n) ≠ op ∨ !i.live n then s
  else
    let e := i.env k n
    let x := i.node n
    let i := (i.putNode n (Node.memDrain e.w (e.depth 0) e.cyc 8 x)).emit n
    let s := s.putIsl k i
    let x := i.node n
    match memBad x with
    | some f => s.putIsl k (i.nodeFault e f)
    | none =>
      if decide (3 ≤ x.store.length + x.outA.length + x.condOut.length) then s
      else if x.drop.isSome || (e.markedHead x).isSome then (if x.store.isEmpty then s.memCommon k e else s)
      else match e.foldHead x, e.memHeads x with
        | some p, _ => s.memFold k e p
        | none, none => s
        | none, some (.error f) => s.putIsl k (i.nodeFault e f)
        | none, some (.ok l) => (s.memTake k e l).modIsl k (fun i => i.moves s.sched.cycle)

def execMtload (k n : Nat) (s : State) : Out := .next (s.fireMem k n 0x40)
def execMtstore (k n : Nat) (s : State) : Out := .next (s.fireMem k n 0x41)
def execMtrmw (k n : Nat) (s : State) : Out := .next (s.fireMem k n 0x42)

/-! ### ARRAY (R304, R305): `rows` and `cur` hold the open batch; phase 1 when it has been closed, 2 after a batch has faulted -/

/-- The column whose array a node uses. -/
def arrayCol (k : Nat) (w : NodeWord) : Nat := 2 * k + bnat (bit (nwParam w) 1)

def arrayFmt (w : NodeWord) : AFmt := if nwFmt w = .int8 then .int8 else .bf16

/-- What ARRAY does with a token; `busy` counts the batches in the column. -/
def stepArray (e : NEnv) (x : Node) : Option NStep :=
  match x.headAt 0 e.cyc with
  | none => none
  | some t =>
    match e.check x 0 t with
    | some f => faulted x f
    | none =>
      let y := e.eat x 0 t
      if t.data then
        if t.kind ≠ kPAIR then faulted x (streamFault t scBADKIND)
        else if 128 ≤ tkCoord t.tok then faulted x { cause := 7, detail := tkCoord t.tok, kind := t.kind }
        else some { x := { y with cur := y.cur ++ [(tkCoord t.tok, tkLow t.tok % 2 ^ (8 * aBytes (arrayFmt e.w)))] } }
      else if t.kind = kSTOP then
        if 32 < x.rows.length + 1 then faulted x { cause := 7, detail := x.rows.length + 1, kind := t.kind }
        else if tkAux t.tok = 0 then some { x := { y with rows := y.rows ++ [y.cur], cur := [] } }
        else if 2 ≤ x.busy ∨ !x.outA.isEmpty then none
        else some { x := { y with rows := y.rows ++ [y.cur], cur := [], phase := 1 } }
      else if t.kind = kDONE then (if x.busy = 0 then some { x := y, a := [t] } else none)
      else some { x := y }

/-- The batch that has been closed stands among the column's gangs (R305). -/
def State.formRequest (s : State) (k : Nat) (e : NEnv) : State :=
  let x := (s.isl k).node e.slot
  if x.phase ≠ 1 then s
  else
    let c := arrayCol k e.w
    let id := (s.col c).nextGang
    let r : ArrayReq := { isl := k, node := e.slot, plane := bit (nwParam e.w) 0, fmt := arrayFmt e.w }
    (s.modNode k e.slot (fun x => { x with phase := 0, rows := [], busy := x.busy + 1 })).modCol c (fun y => { y with
      nextGang := id + 1
      gangs := y.gangs ++ [{ id := id, formed := y.cyc, members := [], req := some r, rows := x.rows }] })

def execArray (k n : Nat) (s : State) : Out :=
  .next (
    let i := s.isl k
    if nwOp (nodeAt i.words n) ≠ 0x50 ∨ !i.live n then s
    else
      let i := i.emit n
      let e := i.env k n
      let x := i.node n
      let ends := x.drop.isSome || (e.markedHead x).isSome
      match (if ends && decide (x.busy ≠ 0) then none else e.common x (stepArray e x)) with
      | none => s.putIsl k i
      | some r => (s.putIsl k ((i.apply e r).moves s.sched.cycle)).formRequest k e)

/-- The vectors of a row: 16 results each. -/
def rowTokens (l : List Nat) : List ITok :=
  (List.range (l.length / 16)).map (fun j => { tok := mkData kVALUE 0 0, vec := ofLanes 32 ((l.drop (16 * j)).take 16) })

/-- The stream of a batch. -/
def batchTokens : List (List Nat) → List ITok
  | [] => []
  | [r] => rowTokens r ++ [plain (tokStop 1)]
  | r :: rs => rowTokens r ++ [plain (tokStop 0)] ++ batchTokens rs

/-- The results of a batch. -/
def Gang.products (g : Gang) (p : Plane) (f : WFmt) (a : AFmt) : List (List Nat) :=
  g.rows.map (fun row => (List.range (planeCols f)).map (fun n => p.element f a row n))

/-- The state of a plane as ARRAY's fault names it (R145, R310). -/
def planeCode : PlaneSt → Nat
  | .empty => 0 | .loading => 1 | .ready _ => 2

/-- A batch is done: its tokens leave from the next cycle, or its node faults; a batch of an invocation that is over is dropped (R305). -/
def execArrayRequestComplete (k n id : Nat) (s : State) : Out :=
  .next (
    let i := s.isl k
    let c := arrayCol k (nodeAt i.words n)
    match s.gang c id with
    | none => s
    | some g =>
      let s0 := (s.dropGang c id).modNode k n (fun x => { x with busy := x.busy - 1 })
      let e := i.env k n
      let i0 := s0.isl k
      if !i.live n || (i.node n).phase == 2 then s0
      else
        let p := (s.col c).plane g.plane
        match p.st, g.fails with
        | .ready f, [] =>
          let r := s0.notePlane c g f
          (match badItem p.marks (((List.range 4).map (planeWords f)).flatten) with
           | some poison =>
             (r.modNode k n (fun x => { x with phase := 2 })).modIsl k (fun j => j.nodeFault e
               { cause := if poison then 5 else 4, detail := (Config.itemGa c (0x20000 + 8192 * bnat g.plane)).toNat })
           | none => r.modNode k n (fun x => x.push e.w (i0.cyc + 1) (batchTokens (g.products p f (arrayFmt e.w))) []))
        | st, _ => (s0.modNode k n (fun x => { x with phase := 2 })).modIsl k (fun j => j.nodeFault e { cause := 8, detail := planeCode st }))

/-! ### Edge ports (R306, R266) -/

/-- The column of the invoker. -/
def Isl.invoker (i : Isl) : Nat :=
  match i.run with
  | some r => r.thr
  | none => 0

/-- PORTIN passes the tokens of its channel register. -/
def stepPortin (now back : Nat) (e : NEnv) (x : Node) : Option NStep :=
  match x.mesh with
  | [] => none
  | (tok, at_) :: rest =>
    if now < at_ then none
    else match gramError (nwParam e.w) (x.gram 0) tok with
      | some n => faulted x (streamFault (plain tok) n)
      | none => some { x := { x.returnSlot (now + back) with
                         mesh := rest, grams := x.grams.setIfInBounds 0 (gramNext (x.gram 0) tok)
                         doneSeen := x.doneSeen || tkKind tok == kDONE }
                       a := [plain tok] }

def execPortin (k n : Nat) (s : State) : Out :=
  .next (s.fireOp k n 0x60 (stepPortin s.sched.cycle (classOne (colOf (s.isl k).invoker) k)))

/-- PORTOUT checks its input. -/
def stepPortout (e : NEnv) (x : Node) : Option NStep :=
  match x.headAt 0 e.cyc with
  | none => none
  | some t => (match e.check x 0 t with
    | some f => faulted x f
    | none => some { x := e.eat x 0 t, a := [t] })

/-- The channel register of the invoker that is bound to an edge port. -/
def Inv.chanOf (r : Inv) (port : Nat) : Nat := r.ch + (port - r.port)

/-- The token of a PORTOUT leaves for the channel register that is bound to its port, which holds at most 8 (R266). -/
def State.portSend (s : State) (k n : Nat) : State :=
  let i := s.isl k
  let x := i.node n
  match i.run, x.outA with
  | some r, b :: bs =>
    if b.from_ ≤ i.cyc ∧ x.roomFor 8 s.sched.cycle ∧ i.live n then
      (s.modNode k n (fun x => { x.takeSlot s.sched.cycle with outA := bs, doneSeen := x.doneSeen || b.tok.kind == kDONE })).after
        (classOne (colOf r.thr) k) (.channelTokenArrive r.thr (r.chanOf (n / 8)) r.id b.tok.tok)
    else s
  | _, _ => s

def execPortout (k n : Nat) (s : State) : Out :=
  .next (if nwOp (nodeAt (s.isl k).words n) ≠ 0x61 then s else (s.portSend k n).fire k n stepPortout)

end Sys2Proof.Machine
end

