-- ==== Sys2Proof/Machine/NodeImage.lean ====
section
/-! DEFINITION. The state of a stream's checks and of a node as an invocation image holds it (R445). -/
namespace Sys2Proof.Machine

/-- The kind code of a stream without a token so far. -/
def noKind : Nat := 15

/-- Last kind and last rank + 1 of a check state. -/
def Gram.lastKind (g : Gram) : Nat :=
  match g.kind, g.stop with
  | some k, _ => k
  | none, some _ => kSTOP
  | none, none => if g.empt then kEMPTY else noKind

def Gram.lastRank (g : Gram) : Nat :=
  match g.stop with
  | some r => r + 1
  | none => 0

/-- A check state from its last coordinate, last kind and last rank + 1. -/
def mkGram (coord kind rank : Nat) : Gram :=
  if kind = kEMPTY then { begun := true, empt := true }
  else if kind = kSTOP then { begun := true, stop := some (rank - 1) }
  else if isData kind then { begun := true, kind := some kind, coord := if hasCoord kind then some coord else none }
  else {}

/-- The check state of the input that word 1 describes; a held value of a REPEAT counts as consumed. -/
def imageGram (w : NodeWord) (x : Node) : Gram :=
  if nwOp w = 0x05 then
    match x.input 0 with
    | b :: _ => gramNext (x.gram 0) b.tok.tok
    | [] => x.gram 0
  else x.gram 0

/-- The op-specific state: word 0, the aux of a held token, and the flags. -/
def opState (w : NodeWord) (x : Node) : Nat × Nat × Nat :=
  let op := nwOp w
  if op = 0x01 ∨ op = 0x02 then
    match x.held with
    | some n => (0, n, 1)
    | none =>
      let n := nwParam w
      if x.phase = 3 then (x.r1 * 2 ^ 32 + x.r2, 0, 1)
      else if x.phase = 4 ∨ x.phase = 5 then ((x.r0 * n + x.r1) % 2 ^ 32 * 2 ^ 32 + (x.r0 + 1) * n % 2 ^ 32, 0, 1)
      else (0, 0, 0)
  else if op = 0x06 then
    (match x.acc with
     | some a => (tkPay a.tok, tkAux a.tok, 3)
     | none => (0, 0, bnat ((x.gram 0).kind.isSome || (x.gram 0).empt)))
  else if op = 0x05 then
    (match x.input 0 with
     | b :: _ => if b.tok.data then (tkPay b.tok.tok, 0, 1) else (0, 0, 0)
     | [] => (0, 0, 0))
  else if op = 0x32 then (0, 0, bnat (x.phase != 0))
  else if op = 0x35 ∨ op = 0x36 then
    (match x.input (if op = 0x35 then 0 else 1) with
     | b :: _ => if b.tok.kind = kPERMIT then (tkPay b.tok.tok, 0, 1) else (0, 0, 0)
     | [] => (0, 0, 0))
  else (0, 0, 0)

/-- The place of an element in a fibre of VALUE tokens stands in the field of the last coordinate. -/
def imageCoord (w : NodeWord) (x : Node) (g : Gram) : Nat :=
  match g.coord with
  | some c => c
  | none => if nwOp w = 0x06 then x.r1 else 0

/-- The two words of a slot. -/
def Node.imageWords (w : NodeWord) (x : Node) : W64 × W64 :=
  let g := imageGram w x
  let o := opState w x
  (BitVec.ofNat 64 o.1,
    BitVec.ofNat 64 (imageCoord w x g % 2 ^ 32 * 2 ^ 32 + g.lastRank * 2 ^ 28 + g.lastKind * 2 ^ 24 + o.2.1 * 2 ^ 8 + o.2.2))

/-- The kind of a partial result. -/
def accToken (w : NodeWord) (pay aux : Nat) : ITok :=
  if nwParam w = 3 ∧ nwFmt w = .sd then plain (mkTok kSDV aux pay)
  else if nwParam w = 3 then plain (mkTok kPAIR 0 pay)
  else plain (mkTok kVALUE 0 pay)

/-- A node restored from its two words, in island cycle `cyc`. -/
def restoreNode (w : NodeWord) (cyc : Nat) (w0 w1 : W64) : Node :=
  let op := nwOp w
  let v := w1.toNat
  let coord := bits v 63 32
  let aux := bits v 11 8
  let f := v % 256
  let g := mkGram coord (bits v 27 24) (bits v 31 28)
  let hi := w0.toNat % 2 ^ 32
  let i := w0.toNat / 2 ^ 32
  let x : Node := { grams := #v[g, { resumed := true }, { resumed := true }] }
  if op = 0x01 ∨ op = 0x02 then
    let x := { x with grams := #v[g, {}, {}] }
    if f % 2 = 0 then x
    else if hi ≤ i then { x with held := some aux }
    else if nwOpf w then { x with phase := if op = 0x02 then 5 else 4, r0 := i / max 1 (nwParam w), r1 := i % max 1 (nwParam w) }
    else { x with phase := 3, r1 := i, r2 := hi }
  else if op = 0x06 then { x with acc := if bit f 1 then some (accToken w w0.toNat aux) else none, r1 := if hasCoord (bits v 27 24) then 0 else coord }
  else if op = 0x05 then
    if f % 2 = 1 then
      { x with ins := #v[[{ tok := plain (mkTok (bits v 27 24) aux w0.toNat), from_ := cyc }], [], []], grams := #v[{}, { resumed := true }, { resumed := true }] }
    else x
  else if op = 0x32 then { x with phase := f % 2 }
  else if (op = 0x35 ∨ op = 0x36) ∧ f % 2 = 1 then
    let b : Buf := { tok := plain (mkTok kPERMIT 0 w0.toNat), from_ := cyc }
    { x with ins := if op = 0x35 then #v[[b], [], []] else #v[[], [b], []], grams := #v[{}, {}, {}] }
  else x

/-- Whether the state of a node can be captured: no token in a link or stored, nothing outstanding (R440). The value that a REPEAT holds
and the permit of a PMENTER or PMEXIT stand in its own state. -/
def Node.quiet (w : NodeWord) (x : Node) : Bool :=
  let op := nwOp w
  let own := fun (p : Nat) => (op == 0x05 && p == 0 && (opState w x).2.2 == 1) || (op == 0x35 && p == 0) || (op == 0x36 && p == 1)
  (List.range 3).all (fun p => decide ((x.input p).length ≤ if own p then 1 else 0)) && x.outA.isEmpty && x.outB.isEmpty && x.mesh.isEmpty &&
    x.conds.isEmpty && x.condOut.isEmpty && x.store.isEmpty && x.busy == 0 && x.got.isEmpty && x.rows.isEmpty && x.cur.isEmpty &&
    !((op == 0x01 || op == 0x02) && (x.phase == 1 || x.phase == 2))

end Sys2Proof.Machine
end

