-- ==== Sys2Proof/Machine/Islands.lean ====
section
/-! DEFINITION. The region controller of an island: installation (R389, R397), reconfiguration (R391, R392), arguments (R393), starts and
ends of invocations (R307 to R309), recovery of configuration errors (R394, R395), and GINSTALL, GARG, GDRAIN and GRECONF. -/
namespace Sys2Proof.Machine

/-! ### Banks (R386) -/

/-- The status of an instruction of major 0x31 on its way back (R499). -/
def State.answerStatus (s : State) (k : Nat) (w : Nat × Reg) (v : Nat) : State :=
  s.answerInvoke k w.1 (.done [(w.2, BitVec.ofNat 64 v)] [])

/-- The same status to several threads. -/
def State.answerAll (s : State) (k : Nat) (l : List (Nat × Reg)) (v : Nat) : State := l.foldl (fun s w => s.answerStatus k w v) s

/-- The memory tiles that installed banks hold. -/
def Isl.heldTiles (i : Isl) : Nat :=
  i.banks.toList.foldl (fun m b => if b.st = .free then m else m ||| b.tiles) 0

/-- The lowest FREE bank. -/
def Isl.freeBank (i : Isl) : Option Nat := (List.range 4).find? (fun b => (i.bank b).st == .free)

/-- The cause with which a block is refused, in the order of R389; 0 when none is. -/
def Isl.installCause (i : Isl) (ws : List (BitVec 128)) : Nat :=
  let h := ws.headD 0
  let graph := bits h.toNat 95 64
  if bits h.toNat 127 112 ≠ 0x5A7E ∨ bits h.toNat 103 96 ≠ 1 then 1
  else if graph = 0 then 2
  else if i.banks.toList.any (fun b => b.st != .free && b.graph == graph) then 3
  else if i.freeBank.isNone then 4
  else blockCause h ws.tail i.heldTiles

/-- The argument table after installation: each slot holds its node's constant. -/
def initialArgs (ws : List NodeWord) : Sparse W64 :=
  ((List.range (argSlots ws).length).zip (argSlots ws)).foldl (fun m p => sset 0 m p.1 (nwConst (nodeAt ws p.2))) []

/-- A bank that holds a block. -/
def blockBank (ws : List (BitVec 128)) (st : BankSt) (who : Option (Nat × Reg)) : Bank :=
  let h := ws.headD 0
  { st := st, graph := bits h.toNat 95 64, nslots := bits h.toNat 63 48, tiles := bits h.toNat 47 40, nodes := ws.tail
    args := initialArgs ws.tail, depths := inputDepths ws.tail, installer := who, signature := bits h.toNat 31 0 }

/-- Where the backing copy of a bank lies (R384). -/
def State.backingCopy (s : State) (k b : Nat) : Nat := s.ga 3 0 (bits s.pkg.icfgbase.toNat 35 18 * 2 ^ 18 + k * 0x4000 + b * 0x1000)

/-- The header of a block with the given contents. -/
def Bank.header (b : Bank) : BitVec 128 :=
  BitVec.ofNat 128 (0x5A7E * 2 ^ 112 + (b.nodes.length - 1) % 256 * 2 ^ 104 + 2 ^ 96 + b.graph * 2 ^ 64 + b.nslots * 2 ^ 48 + b.tiles * 2 ^ 40 +
    b.signature)

/-- The backing copy is written. -/
def State.writeBacking (s : State) (k b : Nat) : State :=
  let x := (s.isl k).bank b
  let g := s.backingCopy k b
  ((List.range (x.nodes.length + 1)).zip (x.header :: x.nodes)).foldl
    (fun s w => (s.ringWord (g + 16 * w.1) w.2.toNat).ringWord (g + 16 * w.1 + 8) (w.2.toNat / 2 ^ 64)) s

/-- A block takes bank `b` and is installed at once, as a launch does it (R102). -/
def State.installNow (s : State) (k b : Nat) (ws : List (BitVec 128)) : State :=
  (s.modIsl k (fun i => i.putBank b (blockBank ws .installed none))).writeBacking k b

/-- A GINSTALL reaches its island: the block is refused, or takes the lowest FREE bank, which is written one word per cycle. -/
def execIslandInstall (k : Nat) (r : InstallReq) (s : State) : Out :=
  let i := s.isl k
  let c := i.installCause r.words
  .next (match i.freeBank with
    | some b =>
      if c = 0 then (s.modIsl k (fun i => i.putBank b (blockBank r.words .installing (some (r.thr, r.d))))).after (r.words.length - 1) (.islandInstallDone k b)
      else s.answerStatus k (r.thr, r.d) c
    | none => s.answerStatus k (r.thr, r.d) c)

/-- The words are written: the bank is INSTALLED, its backing copy stands, and GINSTALL completes. -/
def execIslandInstallDone (k b : Nat) (s : State) : Out :=
  let x := (s.isl k).bank b
  .next (if x.st ≠ .installing then s
    else
      let s := (s.modIsl k (fun i => i.putBank b { x with st := .installed, installer := none })).writeBacking k b
      match x.installer with
      | some w => s.answerStatus k w (b * 256)
      | none => s)

/-! ### Reconfiguration (R391, R392) -/

/-- Idle: neither an invocation nor a reconfiguration, and no bank reloading. -/
def Isl.idle (i : Isl) : Bool := i.run.isNone && i.reconf.isNone && !i.frozen && i.banks.toList.all (fun b => !b.reloading)

/-- The bank of a queued invocation's graph. -/
def Isl.bankFor (i : Isl) (graph : Nat) : Option Nat := i.bankOf graph [.installed, .active, .draining]

/-- The words of a bank are read: corrected ones are logged and clean, and the lowest slot with an uncorrectable one is found (R240, R241,
R394). -/
def State.noteStore (s : State) (k b : Nat) : State :=
  let x := (s.isl k).bank b
  let good := x.marks.filter (fun m => m.2 == .correctable)
  let s := good.foldl (fun s m => s.logItem 1 (20 + k) (0x40000 + 128 * b + m.1 / 2) (.stream k (m.1 / 2))) s
  let s := s.modIsl k (fun i => i.putBank b { x with marks := x.marks.filter (fun m => m.2 != .correctable) })
  match x.marks.find? (fun m => m.2 != .correctable) with
  | some m => s.atOnce (.configError k b (m.1 / 2))
  | none => s

/-- A reconfiguration to bank `b` begins: it is ACTIVE from `N + 8` cycles later. -/
def State.beginReconf (s : State) (k b : Nat) (ws : List (Nat × Reg)) (head : Bool) : State :=
  let s := s.noteStore k b
  let n := ((s.isl k).bank b).nodes.length
  (s.modIsl k (fun (i : Isl) =>
    let i : Isl := match i.activeBank with
      | some a => if (i.bank a).st = BankSt.active then i.putBank a { i.bank a with st := .installed } else i
      | none => i
    { i with activeBank := none, reconf := some { bank := b, waiters := ws, head := head } })).after (n + 8) (.reconfigurationDone k b)

/-! ### Invocations (R307) -/

/-- A node at the start of an invocation, with its initial tokens (R287, R306). On the data plane the constant stands in every lane, as that of KOP
does (R284; DEDUCED, log 59). -/
def Isl.freshNode (i : Isl) (n : Nat) : Node :=
  let w := i.wordOf n
  let op := nwOp w
  let c : ITok := if nwPlane w = 1 then
      { tok := mkData kVALUE 0 0, vec := ofLanes (fmtBits (nwFmt w)) (List.replicate (512 / fmtBits (nwFmt w)) (nwConst w).toNat) }
    else plain (mkData kVALUE 0 (nwConst w).toNat)
  let v := [c, plain tokDone]
  let x : Node := {}
  if op = 0x38 ∨ (isAlu op ∧ nwInit w) then x.push w i.cyc v []
  else if op = 0x36 ∧ nwInit w then x.push w i.cyc [] [plain (mkTok kPERMIT 0 ((nwConst w).toNat % 2 ^ 32))]
  else x

/-- The nodes of an invocation that starts; those with initial tokens emit. -/
def Isl.startNodes (i : Isl) : Isl :=
  let i := { i with
    nodes := []
    faulting := none
    nfault := (i.nfault.map (fun x => (x.1, x.2 &&& 0x000FFFFFFFFFFFFF))).filter (fun x => x.2 != 0)
    flagNow := [] }
  let i := (slots i.words).foldl (fun i n => i.putNode n (i.freshNode n)) i
  (slots i.words).foldl (fun i n => i.emit n) i

/-- A PORTIN or PORTOUT of a restored invocation: a stream that has ended left its register unbound, and an output's tokens stand in the
register. -/
def State.restorePort (s : State) (k : Nat) (v : Inv) (n : Nat) (x : Node) : Node :=
  let w := nodeAt (s.isl k).words n
  let p := n / 8
  let c := (s.thr v.thr).chan (BitVec.ofNat 3 (v.ch + (p - v.port)))
  let bound := c.st != .unbound && c.isl == k && c.port == p
  if nwOp w = 0x60 then { x with doneSeen := !bound }
  else if nwOp w = 0x61 then
    { x with doneSeen := !bound || (c.landing.getLast?.orElse (fun _ => c.head)).any (fun t => tkKind t == kDONE), inUse := c.count }
  else x

/-- The nodes of a restored invocation that had started (R445). -/
def State.restoreNodes (s : State) (k : Nat) (v : Inv) : State :=
  let i := s.isl k
  s.putIsl k (v.states.foldl (fun (i : Isl) e =>
    if nwOp (nodeAt i.words e.1) = 0 then i else i.putNode e.1 (s.restorePort k v e.1 (restoreNode (nodeAt i.words e.1) i.cyc e.2.1 e.2.2)))
      { i with nodes := [], faulting := none, nfault := (i.nfault.map (fun x => (x.1, x.2 &&& 0x000FFFFFFFFFFFFF))).filter (fun x => x.2 != 0), flagNow := [] })

/-- The argument table with which an invocation starts: its operands over the table of the bank, or the one of its image. -/
def Inv.startArgs (v : Inv) (b : Bank) : Sparse W64 :=
  match v.table with
  | some l => ((List.range b.nslots).zip l).foldl (fun m p => sset 0 m p.1 p.2) b.args
  | none => ((List.range v.ops.length).zip v.ops).foldl (fun m p => sset 0 m p.1 p.2) b.args

/-- The head of the queue starts from the active bank. -/
def State.startHead (s : State) (k : Nat) : State :=
  let i := s.isl k
  match i.queue, i.activeBank with
  | v :: vs, some b =>
    let x := i.bank b
    let i := { i with queue := vs, run := some { v with bank := b } }.putBank b { x with args := v.startArgs x }
    let s1 := if v.states.isEmpty then s.putIsl k (i.startNodes.moves s.sched.cycle)
      else (s.putIsl k (i.moves s.sched.cycle)).restoreNodes k v
    (s1.after (classOne (colOf v.thr) k) (.activeNotice v.thr v.id)).admitInvs k
  | _, _ => s

/-- The graph of the head of the queue is gone: the entry is removed, and its invoker traps (R395). -/
def State.refuseHead (s : State) (k : Nat) (v : Inv) : State :=
  ((s.modIsl k (fun i => { i with queue := i.queue.drop 1 })).after (classOne (colOf v.thr) k)
    (.islandFaultTrap v.thr v.id { cause := 0x16, sub := 2, w2 := BitVec.ofNat 64 (v.graph + k * 2 ^ 32) })).admitInvs k

/-- The invocation at the head starts when its graph is the active configuration, or is refused. -/
def State.headWork (s : State) (k : Nat) : State :=
  let i := s.isl k
  match i.queue with
  | [] => s
  | v :: _ =>
    match i.bankFor v.graph with
    | none => s.refuseHead k v
    | some b => if i.activeBank = some b then s.startHead k else s

def execInvocationStart (k : Nat) (s : State) : Out := .next (if (s.isl k).idle then s.headWork k else s)

/-- A reconfiguration begins in an idle island: for a held GRECONF, unless its bank is ACTIVE already or can no longer be, or else for the
invocation at the head (R392). -/
def execReconfiguration (k b : Nat) (s : State) : Out :=
  let i := s.isl k
  .next (if !i.idle then s
    else match i.heldReconf with
      | some (h, ws) =>
        let s := s.modIsl k (fun i => { i with heldReconf := none })
        (match (i.bank h).st with
         | .installed => s.beginReconf k h ws false
         | .active => (s.answerAll k ws 0).headWork k
         | _ => (s.answerAll k ws 4).headWork k)
      | none =>
        (match i.queue with
         | v :: _ => if i.bankFor v.graph = some b ∧ i.activeBank ≠ some b then s.beginReconf k b [] true else s
         | [] => s))

/-- The bank is ACTIVE, every buffer is empty; the head that it was for starts. -/
def execReconfigurationDone (k b : Nat) (s : State) : Out :=
  let i := s.isl k
  .next (match i.reconf with
    | some r =>
      if r.bank ≠ b then s
      else
        let x := i.bank b
        let i := { i with reconf := none, nodes := [], activeBank := if r.void then none else some b }
        let i := if x.st = .installed ∧ !r.void then i.putBank b { x with st := .active } else i
        let s := (s.putIsl k i).answerAll k r.waiters 0
        if r.head then s.headWork k else s
    | none => s)

/-- The next work of an idle island in this cycle. -/
def Isl.nextWork (i : Isl) (k : Nat) : List Event :=
  if !i.idle then []
  else match i.heldReconf, i.queue with
    | some (b, _), _ => [.reconfiguration k b]
    | none, v :: _ => (match i.bankFor v.graph with
      | some b => if i.activeBank = some b then [.invocationStart k] else [.reconfiguration k b]
      | none => [.invocationStart k])
    | none, [] => []

/-! ### Ends (R307 to R309) -/

/-- Accesses and batches of an island's nodes that are outstanding. -/
def State.islBusy (s : State) (k : Nat) : Bool :=
  s.flights.any (fun a => match a.agent with
    | .stream j _ => j == k
    | _ => false) ||
    [2 * k, 2 * k + 1].any (fun c => (s.col c).gangs.any (fun g => match g.req with
      | some r => r.isl == k
      | none => false))

/-- A token that is not a circulating permit. -/
def Buf.counts (b : Buf) : Bool := b.tok.kind != kPERMIT

/-- Whether a node has nothing left to do. -/
def Node.finished (w : NodeWord) (x : Node) : Bool :=
  let op := nwOp w
  (op != 0x60 && op != 0x61 && op != 0x39 || x.doneSeen) && x.mesh.isEmpty &&
    x.ins.toList.all (fun l => !l.any Buf.counts) && !x.outA.any Buf.counts && !x.outB.any Buf.counts && x.busy == 0 && x.got.isEmpty

/-- Whether the running invocation has ended. -/
def State.hasEnded (s : State) (k : Nat) : Bool :=
  let i := s.isl k
  match i.run with
  | some r =>
    !s.islBusy k && (if r.gone then true else i.faulting.isNone && i.flows && (slots i.words).all (fun n => (i.node n).finished (nodeAt i.words n)))
  | none => false

/-- What every end does: stored streams and permits are discarded, and GARGs that waited are applied (R307, R393). -/
def State.closeInv (s : State) (k : Nat) : State :=
  let i := s.isl k
  let s1 := s.putIsl k ({ i with run := none, nodes := [], faulting := none, gargs := [] }.moves s.sched.cycle)
  i.gargs.foldl (fun s (g : Nat × Nat × Nat × W64 × Reg) =>
    (s.modIsl k (fun j => match j.bankFor g.2.1 with
      | some b => j.putBank b { j.bank b with args := sset 0 (j.bank b).args g.2.2.1 g.2.2.2.1 }
      | none => j)).answerStatus k (g.1, g.2.2.2.2) 0) s1

def execInvocationEnd (k : Nat) (s : State) : Out := .next (if s.hasEnded k then s.closeInv k else s)

/-- Whether the report of a node fault is due: the nodes have stopped, and no access is outstanding. -/
def State.reportDue (s : State) (k : Nat) : Bool :=
  let i := s.isl k
  match i.run, i.faulting with
  | some r, some (_, c) => !r.gone && decide (c < i.cyc) && !i.frozen && !s.islBusy k && i.banks.toList.all (fun b => !b.reloading)
  | _, _ => false

/-- The invocation has ended by a node fault, which its invoker learns of (R309, R268). -/
def execNodeFaultReport (k : Nat) (s : State) : Out :=
  let i := s.isl k
  .next (if !s.reportDue k then s
    else match i.run, i.faulting with
      | some r, some (n, _) =>
        let w := (i.faultReg n).toNat
        (s.closeInv k).after (classOne (colOf r.thr) k) (.islandFaultTrap r.thr r.id
          { cause := 0x16, sub := 0x20, detail := bits w 47 40 * 256 + bits w 39 32
            w2 := BitVec.ofNat 64 (r.graph + k * 2 ^ 32 + n * 2 ^ 40) })
      | _, _ => s)

/-! ### Draining (R386, R397) -/

/-- Whether an invocation of a graph is queued or running. -/
def Isl.usesGraph (i : Isl) (graph b : Nat) : Bool :=
  i.queue.any (fun v => v.graph == graph) || i.waiting.any (fun w => w.1.graph == graph) || (match i.run with
    | some r => r.bank == b
    | none => false)

/-- A bank becomes FREE, also as the configuration that is active or that is being loaded. -/
def Isl.dropBank (i : Isl) (b : Nat) : Isl :=
  { i with
    activeBank := if i.activeBank = some b then none else i.activeBank
    reconf := i.reconf.map (fun (r : Reconf) => if r.bank = b then { r with void := true } else r) }.putBank b {}

/-- A DRAINING bank without invocations is FREE, and the threads that wait for it complete. -/
def State.sweepBank (s : State) (k b : Nat) : State :=
  let i := s.isl k
  let x := i.bank b
  if x.st = .draining ∧ !x.reloading ∧ !i.usesGraph x.graph b then
    (s.putIsl k (i.dropBank b)).answerAll k x.waiters 0
  else s

def State.sweepDrains (s : State) (k : Nat) : State :=
  if (s.isl k).frozen then s else (List.range 4).foldl (fun s b => s.sweepBank k b) s

/-! ### GARG, GDRAIN and GRECONF at the island (R397) -/

/-- A bank whose state is INSTALLED or ACTIVE. -/
def Isl.liveBank (i : Isl) (graph : Nat) : Option Nat :=
  (i.bankOf graph [.installed, .active]).bind (fun b => if (i.bank b).reloading then none else some b)

/-- GARG is applied, or waits for the end of the invocation that runs its graph. -/
def State.applyGarg (s : State) (k b : Nat) (t graph slot : Nat) (v : W64) (d : Reg) : State :=
  let i := s.isl k
  let runs : Bool := match i.run with
    | some r => r.graph == graph
    | none => false
  if (i.bank b).nslots ≤ slot then s.answerStatus k (t, d) 3
  else if runs then s.putIsl k { i with gargs := i.gargs ++ [(t, graph, slot, v, d)] }
  else (s.putIsl k (i.putBank b { i.bank b with args := sset 0 (i.bank b).args slot v })).answerStatus k (t, d) 0

/-- GRECONFs for a bank that leaves INSTALLED or ACTIVE, held or under way, report 4. -/
def State.refuseReconf (s : State) (k b : Nat) : State :=
  let i := s.isl k
  let held := match i.heldReconf with
    | some (h, ws) => if h = b then ws else []
    | none => []
  let now := match i.reconf with
    | some r => if r.bank = b then r.waiters else []
    | none => []
  (s.putIsl k { i with
    heldReconf := match i.heldReconf with
      | some (h, ws) => if h = b then none else some (h, ws)
      | none => none
    reconf := i.reconf.map (fun (r : Reconf) => if r.bank = b then { r with waiters := [] } else r) }).answerAll k (held ++ now) 4

/-- GDRAIN. -/
def State.applyDrain (s : State) (k b : Nat) (w : Nat × Reg) : State :=
  (s.refuseReconf k b).modIsl k (fun i => i.putBank b { i.bank b with st := .draining, waiters := (i.bank b).waiters ++ [w] })

/-- GRECONF is held until the island is idle; a later request replaces an earlier one (R392). -/
def State.applyReconf (s : State) (k b : Nat) (w : Nat × Reg) : State :=
  match (s.isl k).heldReconf with
  | some (h, ws) =>
    if h = b then s.modIsl k (fun i => { i with heldReconf := some (b, ws ++ [w]) })
    else (s.modIsl k (fun i => { i with heldReconf := some (b, [w]) })).answerAll k ws 5
  | none => s.modIsl k (fun i => { i with heldReconf := some (b, [w]) })

def execIslandCommand (k : Nat) (c : IslCmd) (s : State) : Out :=
  let i := s.isl k
  .next (match c with
    | .garg t graph slot v d => (match i.liveBank graph with
      | some b => s.applyGarg k b t graph slot v d
      | none => s.answerStatus k (t, d) 2)
    | .gdrain t graph d => (match i.liveBank graph with
      | some b => s.applyDrain k b (t, d)
      | none => s.answerStatus k (t, d) 2)
    | .greconf t graph d => (match i.liveBank graph with
      | some b => s.applyReconf k b (t, d)
      | none => s.answerStatus k (t, d) 2))

/-! ### Errors in the configuration store (R394, R395) -/

/-- An uncorrectable error in a bank's words: the region stops, the bank reloads, and one record is written. -/
def execConfigError (k b n : Nat) (s : State) : Out :=
  let x := (s.isl k).bank b
  .next (if x.st = .free ∨ x.reloading then s
    else
      let s := s.modIsl k (fun i => i.putBank b { x with reloading := true, errSlot := n })
      (s.logItem 2 (20 + k) (0x40000 + 128 * b + n) (.stream k n)).later 1 (.configReloadDone k b))

/-- The node words of the backing copy, when they can be read. -/
def State.readBacking (s : State) (k b : Nat) : Option (List (BitVec 128)) :=
  let n := ((s.isl k).bank b).nodes.length
  let g := s.backingCopy k b + 16
  if (s.badWord g (16 * n)).isSome then none
  else some ((List.range n).map (fun j => BitVec.ofNat 128 (s.readN (g + 16 * j) 16)))

/-- The bank is lost: it is FREE, and an invocation that runs from it meets UNCORRECTABLE at the lowest slot in error. -/
def State.loseBank (s : State) (k b : Nat) : State :=
  let s := s.refuseReconf k b
  let i := s.isl k
  let x := i.bank b
  let i1 := i.dropBank b
  let hit : Bool := match i.run with
    | some r => r.bank == b
    | none => false
  let i2 := if hit then
      ({ i1 with nfault := sset 0 i1.nfault x.errSlot (faultWord (i1.faultReg x.errSlot) 63
          { cause := 4, detail := (Config.itemGa (20 + k) (0x40000 + 128 * b + x.errSlot)).toNat }) }).noteFaulting x.errSlot
    else i1
  (s.putIsl k i2).answerAll k x.waiters 0

/-- The reload ends: the bank has its state back, or is FREE and the invocation that runs from it ends by a fault. -/
def execConfigReloadDone (k b : Nat) (s : State) : Out :=
  let i := s.isl k
  let x := i.bank b
  .next (if !x.reloading then s
    else if s.bytesMoving (s.backingCopy k b) 0x1000 then s.after 1 (.configReloadDone k b)
    else
      let found := s.readBacking k b
      let s := s.noteRead (s.backingCopy k b + 16) (16 * x.nodes.length) (.stream k x.errSlot)
      match found with
      | some ws =>
        if crc32c ((ws.map wordBytes).flatten) = x.signature then s.putIsl k (i.putBank b { x with nodes := ws, marks := [], reloading := false })
        else s.loseBank k b
      | none => s.loseBank k b)

/-! ### Instructions of major 0x31 (R396, R397) -/

/-- The read of `n` words of 16 bytes from `va` on, with R and X. -/
def State.readBlock (s : State) (va n : Nat) (use : GatherUse) : State :=
  let rows := rowList va 16 16 n
  match s.rowWatch 16 rows false with
  | some (w, a) => s.trapMe (wpTrap w a)
  | none =>
    (match s.rowPieces 16 (permR ||| permX) rows ([], []) with
     | .error (a, t) => s.noAccess a t
     | .ok ps => s.launchAccess { bulkAccess s.me ps.1 va (16 * n) (.gather ps.1 [] use) with via := ps.2 })

/-- Word `j` of 16 bytes. -/
def blockWord (got : Sparse Byte) (j : Nat) : BitVec 128 :=
  BitVec.ofNat 128 ((List.range 16).foldr (fun i x => (sget 0 got (16 * j + i)).toNat + 256 * x) 0)

/-- The nodes of the block with a header. -/
def blockNodes (got : Sparse Byte) : Nat := bits (blockWord got 0).toNat 111 104 + 1

/-- GINSTALL reads the whole block that a header names. -/
def State.readWhole (s : State) (got : Sparse Byte) (a d : Reg) (k : Nat) : State :=
  (s.readBlock (s.rd a).toNat (blockNodes got + 1) (.install d k true)).keepWords got false

def execGinstall (d a : Reg) (k : BitVec 4) (s : State) : Out :=
  .next (s.supervisor (fun s =>
    let va := (s.rd a).toNat
    if va % 16 ≠ 0 ∧ (s.thr s.me).retrans = false then s.trapMe (misaligned va)
    else match s.keptWords with
      | some (got, _) => s.readWhole got a d k.toNat
      | none => s.readBlock va 1 (.install d k.toNat false)))

/-- GINSTALL goes on with the bytes that it has read: from the header on with the whole block, and then to the island, once the thread's
earlier stores have been performed (R231). -/
def State.installRead (s : State) (got : Sparse Byte) (a d : Reg) (k : Nat) (whole : Bool) : State :=
  if whole then
    if !(s.outstanding s.me).isEmpty then s.parkMe .mem .drain
    else (s.after (classOne s.cur.col k) (.islandInstall k
      { thr := s.me, d := d, words := (List.range (blockNodes got + 1)).map (blockWord got) })).parkMe .mem .reply
  else s.readWhole got a d k

/-- A descriptor: the island and the graph, unless it is malformed. -/
def State.graphDesc (s : State) (a : Reg) : Option (Nat × Nat) :=
  let v := (s.rd a).toNat
  if bits v 63 36 ≠ 0 ∨ 9 < bits v 35 32 ∨ bits v 31 0 = 0 then none else some (bits v 35 32, bits v 31 0)

/-- A command on its way to its island (R499), or status 1. -/
def State.sendCommand (s : State) (d a : Reg) (c : Nat → IslCmd) : State :=
  match s.graphDesc a with
  | none => (s.wr d 1).finish
  | some (k, g) => (s.after (classOne s.cur.col k) (.islandCommand k (c g))).parkMe .mem .reply

def execGarg (d a : Reg) (j : BitVec 7) (s : State) : Out :=
  .next (s.sendCommand d a (fun g => .garg s.me g j.toNat (s.rd (regPlus a 1)) d))
def execGdrain (d a : Reg) (s : State) : Out :=
  .next (s.supervisor (fun s => s.sendCommand d a (fun g => .gdrain s.me g d)))
def execGreconf (d a : Reg) (s : State) : Out := .next (s.sendCommand d a (fun g => .greconf s.me g d))

/-- The reports of node faults, in the cycle after the last outstanding access has been performed (R309). -/
def State.reportScan (s : State) : List Event := (List.range 10).filterMap (fun k => if s.reportDue k then some (.nodeFaultReport k) else none)

/-- The controller's steps of a cycle. -/
def State.islScan (s : State) (k : Nat) : List Event :=
  if (s.isl k).frozen then []
  else (if s.hasEnded k then [.invocationEnd k] else []) ++ (s.isl k).nextWork k

end Sys2Proof.Machine
end

