-- ==== Sys2Proof/Machine/Counters.lean ====
section
/-! DEFINITION. Barriers and event counters (R401 to R406), the quiescence tree (R408 to R410, R435, R439), the sequence table and the
sampler (R411 to R422). -/
namespace Sys2Proof.Machine

/-! ### Major 0x32 (R406) -/

def bcTarget (b : BitVec 33) : Nat := b.toNat % 2 ^ 16
def bcCount (b : BitVec 33) : Nat := bits b.toNat 31 16
def bcPhase (b : BitVec 33) : Bool := bit b.toNat 32
def mkBarc (phase : Bool) (count target : Nat) : BitVec 33 := BitVec.ofNat 33 (bnat phase * 2 ^ 32 + count % 2 ^ 16 * 2 ^ 16 + target % 2 ^ 16)

def Col.bar (c : Col) (n : Nat) : BitVec 33 := c.barc.toList.getD n 0
def Col.evCount (c : Col) (n : Nat) : W64 := c.evc.toList.getD n 0

/-- A barrier after an arrival. -/
def barJoin (b : BitVec 33) : BitVec 33 :=
  if bcTarget b = 0 then b
  else if bcTarget b ≤ bcCount b + 1 then mkBarc (!bcPhase b) 0 (bcTarget b)
  else mkBarc (bcPhase b) (bcCount b + 1) (bcTarget b)

def execBarj (d : Reg) (n : BitVec 4) (s : State) : Out :=
  let c := s.cur.col
  let b := (s.col c).bar n.toNat
  .next ((s.modCol c (fun x => { x with barc := x.barc.setIfInBounds n.toNat (barJoin b) })).wr d (BitVec.ofNat 64 (bnat (bcPhase b)))).finish

/-- Whether a BARW has nothing to wait for. -/
def Col.barPassed (c : Col) (n : Nat) (ph : Bool) : Bool := bcTarget (c.bar n) == 0 || bcPhase (c.bar n) != ph

def execBarw (a : Reg) (n : BitVec 4) (s : State) : Out :=
  let ph := (s.rd a).getLsbD 0
  .next (if (s.col s.cur.col).barPassed n.toNat ph then s.finish else s.parkMe .barrier (.barrier n.toNat ph))

def execCntinc (n : BitVec 4) (a : Reg) (s : State) : Out :=
  let v := s.rd a
  .next (s.modCol s.cur.col (fun x => { x with evc := x.evc.setIfInBounds n.toNat (x.evCount n.toNat + v) })).finish

def execCntwait (n : BitVec 4) (a : Reg) (s : State) : Out :=
  let v := (s.rd a).toNat
  .next (if v ≤ ((s.col s.cur.col).evCount n.toNat).toNat then s.finish else s.parkMe .event (.event n.toNat v))

/-! ### The generator and the sampler's local instructions (R413, R415, R418, R419) -/

def rotl32 (x : BitVec 32) (n : Nat) : BitVec 32 := x.rotateLeft n

/-- One round of arx: the four words and the round number. -/
def arxRound (x : BitVec 32 × BitVec 32 × BitVec 32 × BitVec 32) (k : Nat) : BitVec 32 × BitVec 32 × BitVec 32 × BitVec 32 :=
  let x0 := x.1 + x.2.1
  let x3 := rotl32 (x.2.2.2 ^^^ x0) 16
  let x2 := x.2.2.1 + x3
  let x1 := rotl32 (x.2.1 ^^^ x2) 12
  let y0 := x0 + x1 + BitVec.ofNat 32 ((k + 1) * 0x9E3779B9)
  let y3 := rotl32 (x3 ^^^ y0) 8
  let y2 := x2 + y3
  (y0, rotl32 (x1 ^^^ y2) 7, y2, y3)

/-- The function arx. -/
def arx (i0 i1 i2 i3 : BitVec 32) : W64 :=
  let x := (List.range 10).foldl arxRound (i0, i1, i2, i3)
  ((x.2.1 + i1) ^^^ (x.2.2.2 + i3)) ++ ((x.1 + i0) ^^^ (x.2.2.1 + i2))

/-- The noise word of request `q`, position `p` and vocabulary index `v`. -/
def noiseWord (key : W64) (q : BitVec 16) (p v : BitVec 32) : BitVec 32 :=
  (arx (key.setWidth 32 ^^^ v) (key.extractLsb' 32 32 ^^^ 0x5A5A5A5A#32) (q ++ 0#16) p).setWidth 32

/-- The bit pattern with the sign changed. -/
def fneg32 (x : Nat) : Nat := (x + 2 ^ 31) % 2 ^ 32

/-- The Gumbel noise of a noise word. -/
def gumbel (u : BitVec 32) : Nat :=
  let x := (fround fp32 0 false (2 * (u.toNat / 2 ^ 9) + 1) (-24) false).1
  let l := (flog2 (fneg32 (flog2 x).1)).1
  (Sys2Proof.Machine.fmul fp32 0 (fneg32 l) 0x3F317218).1

def execSnoise (v : VReg) (a : Reg) (s : State) : Out :=
  let w := s.rd a
  let q := (s.rd (regPlus a 1)).setWidth 16
  let old := s.rdV v
  let r := ofLanes 32 ((List.range 16).map (fun i =>
    (Sys2Proof.Machine.fadd fp32 0 (lane 32 old i) (gumbel (noiseWord s.pkg.rngkey q (w.setWidth 32) (w.extractLsb' 32 32 + BitVec.ofNat 32 i)))).1))
  .next (s.wrV v r).finish

/-- Whether an identifier is ineligible. -/
def Pkg.ineligible (p : Pkg) (v : Nat) : Bool :=
  decide (p.vocabLimit.toNat ≤ v) || (decide (p.padlo.toNat ≤ p.padhi.toNat) && decide (p.padlo.toNat ≤ v ∧ v ≤ p.padhi.toNat))

/-- The order of FP32 values that are no NaN, −0 below +0. -/
def fpKey (x : Nat) : Int := if x < 2 ^ 31 then (x : Int) else -((x % 2 ^ 31 : Nat) : Int) - 1

/-- HAND after one lane. -/
def handTake (p : Pkg) (hand : W64) (v x : Nat) : W64 :=
  let hv := hand.toNat % 2 ^ 32
  let hi := hand.toNat / 2 ^ 32
  let nan := (fdec fp32 x).isNan || (fdec fp32 hv).isNan
  if !p.ineligible v && !nan && decide (fpKey hv < fpKey x ∨ (fpKey hv = fpKey x ∧ v < hi)) then BitVec.ofNat 64 (v * 2 ^ 32 + x) else hand

def execSmaxk (d : Reg) (v : VReg) (a : Reg) (new : Bool) (s : State) : Out :=
  let base := (s.rd a).toNat
  let h0 : W64 := if new then 0xFFFFFFFFFF800000 else (s.thr s.me).hand
  let x := s.rdV v
  let h := (List.range 16).foldl (fun h i => handTake s.pkg h ((base + i) % 2 ^ 32) (lane 32 x i)) h0
  .next ((s.modThr s.me (fun t => { t with hand := h })).wr d h).finish

/-! ### The sequence table and the abort list (R411, R414, R417, R420 to R422) -/

def State.seqEntry (s : State) (j : Nat) : SeqEntry := sget {} s.disp.seqs j
def State.putSeq (s : State) (j : Nat) (x : SeqEntry) : State := { s with disp := { s.disp with seqs := sset {} s.disp.seqs j x } }

/-- An operation leaves for station (11, 1) in traffic class 0 (R411). -/
def State.sendSeq (s : State) (op : SeqOp) : State := (s.classZero s.cur.col 30 (.sequenceTableOperation s.me op)).parkMe .mem .reply

/-- Bits of an entry are set in this cycle: 1 DRAWWRAP, 2 OOV (R8). -/
def State.seqSet (s : State) (j m : Nat) : State :=
  if m = 0 then s else { s with disp := { s.disp with seqNow := sset 0 s.disp.seqNow j (sget 0 s.disp.seqNow j ||| m) } }

def execRngdraw (d a : Reg) (s : State) : Out := .next (s.sendSeq (.draw ((s.rd a).toNat % 256) d))
def execAccept (d a : Reg) (s : State) : Out := .next (s.sendSeq (.accept ((s.rd d).toNat % 256) (s.rd a) d))

def execKvcommit (d a : Reg) (s : State) : Out :=
  .next (if (s.outstanding s.me).isEmpty then s.sendSeq (.commit (s.rd a) d) else s.parkMe .mem .drain)

def execGenabort (a : Reg) (s : State) : Out :=
  .next (s.supervisor (fun s => s.sendSeq (.abort ((s.rd a).toNat % 2 ^ 32))))

/-- A draw. -/
def State.seqDraw (s : State) (t j : Nat) (d : Reg) : State :=
  let e := s.seqEntry j
  let key := s.pkg.rngkey
  let v := arx (key.setWidth 32) (key.extractLsb' 32 32) (e.req ++ e.draw) e.pos
  ((s.putSeq j { e with draw := e.draw + 1, wrap := e.wrap || e.draw == 0xFFFF#16 }).seqSet j (bnat (e.draw == 0xFFFF#16))).classZero 30
    (colOf t) (.memReply t (.done [(d, v)] []))

/-- ACCEPT at the table. -/
def State.seqAccept (s : State) (t j : Nat) (ids : W64) (d : Reg) : State :=
  let a := ids.toNat / 2 ^ 32
  let y := ids.toNat % 2 ^ 32
  let oov := s.pkg.ineligible a
  let m := bnat (!oov && a == y && y != 0xFFFFFFFF)
  let e := s.seqEntry j
  ((s.putSeq j { e with oov := e.oov || oov }).seqSet j (2 * bnat oov)).farReply t d (bnat oov * 4 + m * 2 + m)

/-- KVCOMMIT at the table. -/
def State.seqCommit (s : State) (t : Nat) (w : W64) (d : Reg) : State :=
  let v := w.toNat
  let j := v % 256
  let e := s.seqEntry j
  let n := bits v 31 16
  let st := if bits v 15 8 ≠ 0 then 3
    else if s.disp.aborts.contains (w.extractLsb' 32 32) then 1
    else if 2 ^ 32 ≤ e.committed.toNat + n then 2
    else 0
  let e1 := if st = 0 then { e with committed := e.committed + BitVec.ofNat 32 n } else e
  (s.putSeq j e1).farReply t d (e1.committed.toNat * 2 ^ 32 + st)

/-- GENABORT at the list: the oldest of 16 numbers leaves. -/
def abortPut (l : List (BitVec 32)) (x : BitVec 32) : List (BitVec 32) :=
  if l.contains x then l else if l.length < 16 then l ++ [x] else l.drop 1 ++ [x]

def execSequenceTableOperation (t : Nat) (op : SeqOp) (s : State) : Out :=
  .next (if (s.thr t).wait ≠ .reply then s
    else match op with
      | .draw j d => s.seqDraw t j d
      | .accept j ids d => s.seqAccept t j ids d
      | .commit w d => s.seqCommit t w d
      | .abort n => { s with disp := { s.disp with aborts := abortPut s.disp.aborts (BitVec.ofNat 32 n) } }.classZero 30 (colOf t) (.memReply t (.done [] [])))

/-! ### What a unit holds (R408, R335, R382) -/

/-- Whether a thread sets HOLD by its state. -/
def Thread.holds (x : Thread) : Bool :=
  match x.st with
  | .ready => true
  | .halted => true
  | .parked .mem => true
  | .parked .bank => true
  | .parked .range => true
  | .parked .gang => true
  | .parked .tile => true
  | _ => false

/-- Tokens in the channel registers of a thread. -/
def Thread.tokens (x : Thread) : Bool := x.chans.toList.any (fun c => c.head.isSome || !c.landing.isEmpty)

/-- The threads of a column with their numbers. -/
def State.threadsOf (s : State) (c : Nat) : List (Nat × Thread) := s.threads.filter (fun x => decide (colOf x.1 = c))

/-- Whether a message on its way counts for a column. -/
def movesFor (c : Nat) (e : Event) : Bool :=
  match e with
  | .transitCredit p _ _ _ _ _ => p == c
  | .transitFoldApply p _ _ _ => p == c
  | .transitFlushApply p _ _ => p == c
  | .qwaitLimit _ => false
  | .dealerOperation _ _ => false
  | .sequenceTableOperation _ _ => false
  | .gateAck _ => false
  | .gateArrive _ _ _ => false
  | e => (match addressee e with
    | some t => colOf t == c
    | none => false)

/-- The columns that an engine's command moves data of. -/
def State.engineColumns (s : State) : List Nat :=
  let col := fun (g : Nat) => if gaSpace g < 2 then [gaOwner g] else []
  ((s.eng.swaps.map (fun (w : SwapCmd) => match w.st with
    | .running _ => col w.stacked
    | _ => [])) ++ s.eng.fetches.map (fun (f : Fetch) => [f.col]) ++
   (s.eng.comps.map (fun (w : CompCmd) => match w.st with
    | .move _ => col w.src ++ col w.dst
    | _ => [])) ++
   (s.eng.invals.map (fun (w : Inval) => match w.thr with
    | some t => [colOf t]
    | none => []))).flatten

/-- HOLD of a column from tokens, operations in flight and moving items. -/
def State.tokHold (s : State) (c : Nat) : Bool :=
  let x := s.col c
  (s.threadsOf c).any (fun t => t.2.tokens) || !x.gangs.isEmpty || (List.range 4).any (fun q => !(s.core (4 * c + q)).copies.isEmpty) ||
    !x.sendQ.isEmpty || !x.flushes.isEmpty || !x.arriving.isEmpty ||
    s.flights.any (fun a => decide (s.source a.agent = c) && !a.waiting && a.joined.isNone) ||
    s.sched.agenda.any (fun e => movesFor c e.2) || s.engineColumns.contains c

/-- HOLD of an island. -/
def State.islHold (s : State) (k : Nat) : Bool :=
  let i := s.isl k
  !i.queue.isEmpty || !i.waiting.isEmpty || i.reconf.isSome || s.islBusy k ||
    i.nodes.any (fun n => n.2.ins.toList.any (fun l => !l.isEmpty) || !n.2.outA.isEmpty || !n.2.outB.isEmpty || !n.2.mesh.isEmpty ||
      !n.2.conds.isEmpty || !n.2.condOut.isEmpty) ||
    i.banks.toList.any (fun b => b.st == .installing || b.reloading)

/-- The last HOLDs of two different threads, with those that hold now. -/
def Hist.noteThreads (h : Hist) (now : Nat) : List Nat → Hist
  | [] => h
  | [a] => if h.by1.1 = a then { h with by1 := (a, now + 1) } else { h with by1 := (a, now + 1), by2 := h.by1 }
  | a :: b :: _ => { h with by1 := (a, now + 1), by2 := (b, now + 1) }

/-- The bits of one cycle enter. -/
def Hist.note (h : Hist) (now : Nat) (tok : Bool) (holders : List Nat) : Hist :=
  let push := fun (b : BitVec 32) (v : Bool) => (b <<< 1) ||| BitVec.ofNat 32 (bnat v)
  let h := if tok then { h with lastTok := now + 1 } else h
  { h.noteThreads now holders with
    all := push h.all (tok || !holders.isEmpty)
    tok := push h.tok tok
    solo := push h.solo (!tok && holders.length == 1) }

/-- The units' bits of this cycle. -/
def State.noteHold (s : State) : State :=
  let s := (List.range 20).foldl (fun s c =>
    let l := ((s.threadsOf c).filter (fun t => t.2.holds)).map (·.1)
    s.modCol c (fun x => { x with hist := x.hist.note s.sched.cycle (s.tokHold c) l })) s
  (List.range 10).foldl (fun s k => s.modIsl k (fun i => { i with hist := i.hist.note s.sched.cycle (s.islHold k) [] })) s

/-- Cycles that the bits of unit `u` take to the root: columns 0 to 19, islands 20 to 29. -/
def treeDelay (u : Nat) : Nat := 1 + Config.treeDelay u % 32

/-- The last cycle, plus 1, in which a unit set HOLD for a QWAIT of thread `t`. -/
def Hist.last (h : Hist) (t : Nat) (tokens : Bool) : Nat :=
  if tokens then h.lastTok else max h.lastTok (if h.by1.1 = t then h.by2.2 else h.by1.2)

/-- Whether the root has seen no HOLD of a unit in 64 consecutive cycles. -/
def State.unitQuiet (s : State) (u t : Nat) (h : Hist) (tokens : Bool) : Bool := decide (h.last t tokens + treeDelay u + 63 ≤ s.sched.cycle)

/-- Units of a mask. -/
def maskUnits (n m : Nat) : List Nat := (List.range n).filter (fun i => bit m i)

/-- Whether a placement is quiet for a thread. -/
def State.quietFor (s : State) (t cols isls : Nat) (tokens : Bool) : Bool :=
  (maskUnits 20 cols).all (fun c => s.unitQuiet c t (s.col c).hist tokens) &&
    (maskUnits 10 isls).all (fun k => s.unitQuiet (20 + k) t (s.isl k).hist tokens)

/-- A unit's HOLD as the root sees it now, for a thread. -/
def Hist.seen (h : Hist) (u t : Nat) (tokens : Bool) : Bool :=
  let d := treeDelay u - 1
  if tokens then h.tok.getLsbD d else h.all.getLsbD d && !(h.by1.1 == t && h.solo.getLsbD d)

/-- QSTAT (R409). -/
def State.qstat (s : State) : Nat :=
  (List.range 20).foldl (fun v c => v + bnat ((s.col c).hist.all.getLsbD (treeDelay c - 1)) * 2 ^ c) 0 +
    (List.range 10).foldl (fun v k => v + bnat ((s.isl k).hist.all.getLsbD (treeDelay (20 + k) - 1)) * 2 ^ (20 + k)) 0

/-! ### QWAIT (R439) -/

/-- The trap of a malformed descriptor, placement or selector (R437). -/
def ctxTrap : TrapInfo := { cause := 0x15, sub := 0x40 }

def execQwait (d a : Reg) (s : State) : Out :=
  .next (s.supervisor (fun s =>
    let p := (s.rd a).toNat
    let n := (s.rd d).toNat
    if 2 ^ 31 ≤ p then s.trapMe ctxTrap
    else
      let s := if n = 0 then s else s.after (16 * n) (.qwaitLimit s.me)
      s.parkMe .mem (.quiet (p % 2 ^ 20) (bits p 29 20) (bit p 30) d)))

/-- The thread's QWAIT is over. -/
def State.endQwait (s : State) (t : Nat) (d : Reg) (v : Nat) : State :=
  ({ s with sched := { s.sched with agenda := s.sched.agenda.filter (fun e => decide (e.2 ≠ Event.qwaitLimit t)) } }).completeParked t
    (fun x => x.putS d (BitVec.ofNat 64 v))

def execQuiescenceReport (t : Nat) (s : State) : Out :=
  .next (match (s.thr t).wait with
    | .quiet cols isls tokens d => if s.quietFor t cols isls tokens then s.endQwait t d 0 else s
    | _ => s)

def execQwaitLimit (t : Nat) (s : State) : Out :=
  .next (match (s.thr t).wait with
    | .quiet cols isls tokens d =>
      let cb := (maskUnits 20 cols).foldl (fun v c => v + bnat ((s.col c).hist.seen c t tokens) * 2 ^ c) 0
      let ib := (maskUnits 10 isls).foldl (fun v k => v + bnat ((s.isl k).hist.seen (20 + k) t tokens) * 2 ^ (20 + k)) 0
      s.endQwait t d (2 ^ 63 + cb + ib)
    | _ => s)

/-! ### DEADLOCK (R410, R435) -/

/-- The slots of a column that are parked CHAN, with the registers on which they wait. -/
def State.blockedSlots (s : State) (c : Nat) : List (Nat × Chan) :=
  (s.threadsOf c).filterMap (fun t => match t.2.st, t.2.wait with
    | .parked .chan, .chan n => some (t.1 % 64, t.2.chan (BitVec.ofNat 3 n))
    | _, _ => none)

/-- The islands to which channel registers of a column's threads are bound. -/
def State.boundIslands (s : State) (c : Nat) : List Nat :=
  (List.range 10).filter (fun k => (s.threadsOf c).any (fun t => t.2.chans.toList.any (fun ch => ch.st != .unbound && ch.isl == k)))

/-- Whether an island has not moved in 4,096 of its cycles; those in which it is frozen do not count (R43). -/
def State.islStill (s : State) (k : Nat) : Bool :=
  decide ((s.isl k).moved + 4095 ≤ if (s.isl k).frozen then (s.isl k).gatedAt else s.sched.cycle)

/-- Whether no unit that counts has moved in 4,096 cycles. -/
def State.deadlockDue (s : State) (c : Nat) : Bool :=
  !(s.col c).frozen && !(s.blockedSlots c).isEmpty && !(s.threadsOf c).any (fun t => t.2.st == .ready) &&
    decide ((s.col c).moved + 4095 ≤ s.sched.cycle) && (s.boundIslands c).all s.islStill

/-- Whether a slot of an island holds a token. -/
def Node.holdsToken (x : Node) : Bool :=
  x.ins.toList.any (fun l => !l.isEmpty) || !x.outA.isEmpty || !x.outB.isEmpty || !x.mesh.isEmpty

/-- The sites of an island that hold a token. -/
def Isl.blockedSites (i : Isl) : W64 :=
  BitVec.ofNat 64 ((List.range 64).foldl (fun v n => if (i.node n).holdsToken || (i.node (64 + n)).holdsToken then v + 2 ^ n else v) 0)

def popcount (v : W64) : Nat := ((List.range 64).filter (fun i => v.getLsbD i)).length

/-- The lowest blocked slot traps; the islands to which blocked registers are bound latch their sites; the interval starts again. -/
def execDeadlock (c : Nat) (s : State) : Out :=
  .next (if !s.deadlockDue c then s
    else
      let l := s.blockedSlots c
      let isls := (List.range 10).filter (fun k => l.any (fun b => b.2.st != .unbound && b.2.isl == k))
      let mask := l.foldl (fun v b => v + 2 ^ b.1) 0
      let detail := match isls with
        | k :: _ => 2 ^ 15 + k * 256 + popcount (s.isl k).blockedSites
        | [] => 0
      let s := isls.foldl (fun s k => s.modIsl k (fun i => { i with islblk := i.blockedSites })) s
      let s := s.modCol c (fun x => { x with moved := s.sched.cycle + 1 })
      match l with
      | b :: _ => s.trap (64 * c + b.1) { cause := 0x17, detail := detail, w2 := BitVec.ofNat 64 mask }
      | [] => s)

end Sys2Proof.Machine
end

