-- ==== Sys2Proof/Machine/Images.lean ====
section
/-! DEFINITION. Context images (R442, R443, R445) as words of 8 bytes by number: what each holds of a thread, a column and an invocation,
and what a word of an image puts back. -/
namespace Sys2Proof.Machine

def w64 (n : Nat) : W64 := BitVec.ofNat 64 n

/-- The invocation of a channel register that an image has restored and no invocation image has claimed yet. -/
def noInv : Nat := 2 ^ 64

/-! ### Threads (R442) -/

/-- State codes of R177. -/
def slotCode (st : SlotSt) : Nat :=
  match st with
  | .empty => 0
  | .ready => 1
  | .parked _ => 2
  | .halted => 3
  | .trapped => 4

def chanCode (st : ChanSt) : Nat :=
  match st with
  | .unbound => 0
  | .outb => 1
  | .inb => 2

/-- Kind and aux of a token in word 1 of an entry of the channel layout. -/
def tokLow (t : Tok) : Nat := tkKind t * 16 + tkAux t

/-- A token as word 1 of an entry of the channel layout has it. -/
def tokBits (t : Option Tok) : Nat :=
  match t with
  | some x => 256 + tokLow x
  | none => 0

def tokPay (t : Option Tok) : W64 :=
  match t with
  | some x => w64 (tkPay x)
  | none => 0

/-- A token from an entry of the channel layout. -/
def tokOf (w0 w1 : W64) : Tok := mkTok (bits w1.toNat 7 4) (bits w1.toNat 3 0) w0.toNat

/-- Word 1 of a channel register. An EMPTY one shows the token bits that it keeps (log 46). -/
def Chan.word1 (c : Chan) : Nat :=
  c.depth % 16 * 2 ^ 19 + c.port % 8 * 2 ^ 16 + c.isl % 16 * 2 ^ 12 + bnat c.active * 2 ^ 11 + chanCode c.st * 2 ^ 9 + bnat c.full * 2 ^ 8 +
    tokLow c.tok

/-- A channel register from its two words; what word 1 does not hold stays. -/
def Chan.put (c : Chan) (w0 w1 : W64) : Chan :=
  let v := w1.toNat
  { c with
    depth := bits v 22 19, port := bits v 18 16, isl := bits v 15 12, active := bit v 11
    st := if bits v 10 9 = 1 then .outb else if bits v 10 9 = 2 then .inb else .unbound
    full := bit v 8, tok := tokOf w0 w1 }

def segWord (x : Thread) : W64 := w64 (x.seg.toNat * 2 ^ 12)

/-- The state word of an image, for the state code given. -/
def Thread.stateWord (x : Thread) (t code : Nat) : W64 :=
  w64 (code * 2 ^ 60 + slotOf t * 2 ^ 52 + quarterOf t * 2 ^ 50 + colOf t * 2 ^ 45 + bnat x.resume * 2 ^ 44 + x.ctag.toNat * 2 ^ 16 +
    (x.preds ||| 1).toNat)

/-- Word `i` of the image of a thread in slot `t`, with the state code and the record given; the word of magic and CRC reads zero. -/
def Thread.imageWord (x : Thread) (t code : Nat) (r : TrapRec) (i : Nat) : W64 :=
  if i < 32 then x.sreg (BitVec.ofNat 5 i)
  else if i < 160 then w64 (lane 64 (x.vreg (BitVec.ofNat 4 ((i - 32) / 8))) ((i - 32) % 8))
  else if i < 176 then
    (let c := x.chan (BitVec.ofNat 3 ((i - 160) / 2))
     if i % 2 = 0 then w64 (tkPay c.tok) else w64 c.word1)
  else
    [x.pc, segWord x, x.hand, w64 x.fpm.toNat, x.stateWord t code, 0, 0, 0, r.w0, r.w1, r.w2, r.w3].getD (i - 176) 0

/-- Lane `j` of 64 bits of a vector register replaced. -/
def putLane64 (v : Vec) (j : Nat) (x : W64) : Vec :=
  ofLanes 64 ((List.range 8).map (fun k => if k = j then x.toNat else lane 64 v k))

/-- A thread in which word `i` of an image replaces what it holds, but for the state code and the record. -/
def Thread.putImageWord (x : Thread) (i : Nat) (v : W64) : Thread :=
  if i < 32 then x.putS (BitVec.ofNat 5 i) v
  else if i < 160 then
    let n : VReg := BitVec.ofNat 4 ((i - 32) / 8)
    x.putV n (putLane64 (x.vreg n) ((i - 32) % 8) v)
  else if i < 176 then
    let n : PReg := BitVec.ofNat 3 ((i - 160) / 2)
    let c := x.chan n
    if i % 2 = 1 then x.putChan n (c.put (w64 (tkPay c.tok)) v)
    else x.putChan n { c with tok := mkTok (tkKind c.tok) (tkAux c.tok) v.toNat }
  else if i = 176 then { x with pc := v }
  else if i = 177 then { x with seg := v.extractLsb' 12 10 }
  else if i = 178 then { x with hand := v }
  else if i = 179 then { x with fpm := v.setWidth 7 }
  else if i = 180 then { x with resume := v.getLsbD 44, ctag := v.extractLsb' 16 12, preds := v.setWidth 8 ||| 1 }
  else x

/-- A thread loaded from an image: its registers, and channel registers whose invocation is still to be loaded. -/
def loadThread (w : Nat → W64) : Thread :=
  let x := (List.range 181).foldl (fun (x : Thread) i => if 160 ≤ i ∧ i < 176 then x else x.putImageWord i (w i)) {}
  (List.range 8).foldl (fun (x : Thread) n =>
    x.putChan (BitVec.ofNat 3 n) (({ inv := noInv } : Chan).put (w (160 + 2 * n)) (w (161 + 2 * n)))) x

/-! ### Columns (R443) -/

def winCode (st : WinSt) : Nat :=
  match st with
  | .free => 0 | .inflight => 1 | .filled => 2 | .claimed => 3 | .returning => 4

def winOf (n : Nat) : WinSt :=
  match n with
  | 1 => .inflight | 2 => .filled | 3 => .claimed | 4 => .returning | _ => .free

/-- Word `j` of an outbound channel. -/
def OutChan.imageWord (x : OutChan) (j : Nat) : W64 :=
  if j = 0 then w64 (x.floor.toNat * 2 ^ 32 + bnat x.bound * 2 ^ 31 + x.branches.length * 2 ^ 28)
  else if h : j - 1 < x.branches.length then
    let b := x.branches[j - 1]
    w64 (b.credits % 128 * 2 ^ 32 + (b.w - 1) % 64 * 2 ^ 16 + b.inc % 8 * 2 ^ 8 + b.col % 32)
  else 0

/-- A list of `n` items, filled up with `d`. -/
def resize {α : Type} (d : α) (l : List α) (n : Nat) : List α := (l ++ List.replicate n d).take n

def noBranch : Branch := { col := 0, inc := 0, w := 1, credits := 0 }

def OutChan.putImageWord (x : OutChan) (j : Nat) (v : W64) : OutChan :=
  let n := v.toNat
  if j = 0 then { x with floor := v.extractLsb' 32 32, bound := bit n 31, branches := resize noBranch x.branches (min 4 (bits n 30 28)) }
  else if j ≤ 4 then
    let f := fun (b : Branch) => { b with credits := bits n 38 32, w := bits n 21 16 + 1, inc := bits n 10 8, col := bits n 4 0 }
    { x with branches := x.branches.modify (j - 1) f }
  else x

/-- Word `j` of an inbound channel. -/
def InChan.imageWord (x : InChan) (j : Nat) : W64 :=
  if j = 0 then w64 (x.lastFold.toNat * 2 ^ 32 + bnat x.bound * 2 ^ 31 + x.fill % 64 * 2 ^ 16 + x.recv % 64 * 2 ^ 8 + x.head % 64)
  else if j = 1 then w64 (x.folds.toNat * 2 ^ 16 + x.out % 8 * 2 ^ 8 + x.prod % 32)
  else if j < 8 ∨ 72 ≤ j then 0
  else
    let s := x.slots.getD (j - 8) {}
    w64 (s.tag % 2 ^ 32 * 2 ^ 32 + bnat s.err * 2 ^ 31 + winCode s.st * 2 ^ 28 + s.len % 2 ^ 13)

def InChan.putImageWord (x : InChan) (j : Nat) (v : W64) : InChan :=
  let n := v.toNat
  if j = 0 then { x with lastFold := v.extractLsb' 32 32, bound := bit n 31, fill := bits n 21 16, recv := bits n 13 8, head := bits n 5 0 }
  else if j = 1 then { x with folds := v.extractLsb' 16 3, out := bits n 10 8, prod := bits n 4 0 }
  else if j < 8 ∨ 72 ≤ j then x
  else
    let y : WinSlot := { tag := bits n 63 32, err := bit n 31, st := winOf (bits n 30 28), len := bits n 12 0 }
    { x with slots := (resize {} x.slots (max x.slots.length (j - 7))).set (j - 8) y }

def Col.out (x : Col) (o : Nat) : OutChan := x.outs.getD o {}
def Col.inc (x : Col) (i : Nat) : InChan := x.ins.getD i {}

/-- Word `j` of the mask block in the layout of R165. -/
def Col.maskWord (x : Col) (j : Nat) : W64 :=
  if j < 256 then w64 ((sget maskOnes x.mask (j / 2)).toNat / 2 ^ (64 * (j % 2)))
  else w64 ((List.range 4).foldl (fun v n => v + (sget 0 x.maskOff (4 * (j - 256) + n)).toNat * 2 ^ (16 * n)) 0)

def Col.putMaskWord (x : Col) (j : Nat) (v : W64) : Col :=
  if j < 256 then
    let old := (sget maskOnes x.mask (j / 2)).toNat
    let new := if j % 2 = 0 then old / 2 ^ 64 * 2 ^ 64 + v.toNat else v.toNat * 2 ^ 64 + old % 2 ^ 64
    { x with mask := sset maskOnes x.mask (j / 2) (BitVec.ofNat 128 new) }
  else
    { x with maskOff := (List.range 4).foldl (fun m n => sset 0 m (4 * (j - 256) + n) (v.extractLsb' (16 * n) 16)) x.maskOff }

/-- A shape register after a write: RSV bits stay 0, and a reserved format code leaves the field as it was (R9, R45, R141). -/
def putShape (old new : BitVec 32) : BitVec 32 :=
  let v := new &&& 0xF7F03FFF
  if (decFmt (v.extractLsb' 28 4)).isSome then v else (old &&& 0xF0000000) ||| (v &&& 0x0FFFFFFF)

/-- Word `i` of the image of column `c`; magic and CRC read zero. -/
def Col.imageWord (x : Col) (c i : Nat) : W64 :=
  if i = 0 then w64 c
  else if i = 1 then w64 (x.accPoison.toNat * 16 + x.accFull.toNat)
  else if i < 8 then 0
  else if i < 24 then (x.tshape.getD (2 * (i - 8) + 1) 0) ++ (x.tshape.getD (2 * (i - 8)) 0)
  else if i < 40 then (x.barc.getD (i - 24) 0).setWidth 64
  else if i < 56 then x.evc.getD (i - 40) 0
  else if i < 120 then (x.out ((i - 56) / 8)).imageWord ((i - 56) % 8)
  else if i < 128 then 0
  else if i < 1152 then (x.inc ((i - 128) / 128)).imageWord ((i - 128) % 128)
  else if i < 1440 then x.maskWord (i - 1152)
  else if i < 2048 then 0
  else if i < 10240 then
    (if x.accFull.getLsbD ((i - 2048) / 2048) then (sget 0 x.acc (2 * (i - 2048) + 1)) ++ (sget 0 x.acc (2 * (i - 2048))) else 0)
  else 0

/-- A column in which word `i` of an image replaces what it holds. -/
def Col.putImageWord (x : Col) (i : Nat) (v : W64) : Col :=
  if i = 0 then x
  else if i = 1 then { x with accPoison := v.extractLsb' 4 4, accFull := v.extractLsb' 0 4 }
  else if i < 8 then x
  else if i < 24 then
    let t := fun n => x.tshape.getD n 0
    let lo := putShape (t (2 * (i - 8))) (v.setWidth 32)
    let hi := putShape (t (2 * (i - 8) + 1)) (v.extractLsb' 32 32)
    { x with tshape := (x.tshape.setIfInBounds (2 * (i - 8)) lo).setIfInBounds (2 * (i - 8) + 1) hi }
  else if i < 40 then { x with barc := x.barc.setIfInBounds (i - 24) (v.setWidth 33) }
  else if i < 56 then { x with evc := x.evc.setIfInBounds (i - 40) v }
  else if i < 120 then { x with outs := x.outs.setIfInBounds ((i - 56) / 8) ((x.out ((i - 56) / 8)).putImageWord ((i - 56) % 8) v) }
  else if i < 128 then x
  else if i < 1152 then { x with ins := x.ins.setIfInBounds ((i - 128) / 128) ((x.inc ((i - 128) / 128)).putImageWord ((i - 128) % 128) v) }
  else if i < 1440 then { x.putMaskWord (i - 1152) v with maskMarks := sset .clean x.maskMarks (i - 1152) .clean }
  else if i < 2048 then x
  else if i < 10240 then
    { x with
      acc := sset 0 (sset 0 x.acc (2 * (i - 2048)) (v.setWidth 32)) (2 * (i - 2048) + 1) (v.extractLsb' 32 32)
      accMarks := sset .clean x.accMarks (i - 2048) .clean }
  else x

/-- A column after a column CTXSAVE, but for its channels (R440). -/
def Col.cleared (x : Col) : Col :=
  let z : Col := {}
  { x with
    acc := [], accMarks := [], accFull := 0, accPoison := 0, plane0 := {}, plane1 := {}, mask := [], maskOff := [], maskMarks := []
    tshape := z.tshape, barc := z.barc, evc := z.evc, perf := z.perf }

/-- All 16 channels UNBOUND; gates stay (R438). -/
def Col.unboundAll (x : Col) : Col :=
  { x with outs := x.outs.map (fun (o : OutChan) => ({ gate := o.gate, holds := o.holds } : OutChan)), ins := Vector.replicate 8 {} }

/-! ### Invocations (R445) -/

/-- The channel register of an invocation's edge port, if the port is one of its own. -/
def Inv.regOf (v : Inv) (p : Nat) : Option PReg :=
  if v.port ≤ p ∧ p < v.port + v.n then some (BitVec.ofNat 3 (v.ch + (p - v.port))) else none

/-- The register of edge port `p` as the invocation's image describes it: bound to it, and if so, the register. -/
def State.portChan (s : State) (k : Nat) (v : Inv) (p : Nat) : Option Chan :=
  match v.regOf p with
  | some r =>
    let c := (s.thr v.thr).chan r
    if c.st != .unbound ∧ c.isl = k ∧ c.inv = v.id then some c else none
  | none => none

/-- Word `j` of a port of the image: a port whose stream is over has DONE as its last kind. -/
def State.portWord (s : State) (k : Nat) (v : Inv) (p j : Nat) : W64 :=
  match v.regOf p, s.portChan k v p with
  | none, _ => 0
  | some _, none => if j = 0 then w64 (kDONE * 256) else 0
  | some _, some c =>
    if j = 0 then
      (if c.st = .outb then w64 (c.gram.coord.getD 0 % 2 ^ 32 * 2 ^ 32 + c.gram.lastKind * 256 + c.gram.lastRank) else 0)
    else if j = 1 then w64 c.landing.length
    else (let t := c.landing[(j - 2) / 2]?
          if j % 2 = 0 then tokPay t else w64 (tokBits t))

/-- The invocation that an image is of: the running one, or the head of the queue, and whether it has started. -/
def Isl.savable (i : Isl) : Option (Inv × Bool) :=
  match i.run, i.queue with
  | some r, _ => some (r, true)
  | none, v :: _ => some (v, false)
  | none, [] => none

/-- The bank of an invocation. -/
def Isl.bankOfInv (i : Isl) (v : Inv) (started : Bool) : Bank :=
  if started then i.bank v.bank
  else match i.bankFor v.graph with
    | some b => i.bank b
    | none => {}

/-- Word `j` of the image of an invocation; magic and CRC read zero. -/
def State.invWord (s : State) (k : Nat) (v : Inv) (started : Bool) (j : Nat) : W64 :=
  let i := s.isl k
  let b := i.bankOfInv v started
  if j = 0 then w64 (bnat (started || !v.states.isEmpty) * 16 + k)
  else if j = 1 then w64 (b.nslots * 2 ^ 32 + v.graph)
  else if j = 2 then
    w64 (v.port * 2 ^ 24 + v.n * 2 ^ 20 + v.ch * 2 ^ 16 + colOf v.thr * 2 ^ 8 + quarterOf v.thr * 2 ^ 4 + slotOf v.thr)
  else if j < 8 then 0
  else if j < 136 then sget 0 (if started then b.args else v.startArgs b) (j - 8)
  else if j < 264 then s.portWord k v ((j - 136) / 16) ((j - 136) % 16)
  else if j < 520 then
    (let n := (j - 264) / 2
     let w := if started then (i.node n).imageWords (nodeAt b.nodes n)
       else (match v.states.find? (fun e => e.1 == n) with
         | some e => e.2
         | none => (0, 0))
     if j % 2 = 0 then w.1 else w.2)
  else 0

/-- A debug write of word `j` of the running invocation. -/
def State.putInvWord (s : State) (k : Nat) (v : Inv) (j : Nat) (x : W64) : State :=
  let i := s.isl k
  if j < 8 ∨ 520 ≤ j then s
  else if j < 136 then s.putIsl k (i.putBank v.bank { i.bank v.bank with args := sset 0 (i.bank v.bank).args (j - 8) x })
  else if j < 264 then
    let p := (j - 136) / 16
    let q := (j - 136) % 16
    (match v.regOf p, s.portChan k v p with
     | some r, some c =>
       let n := x.toNat
       let c1 : Chan :=
         if q = 0 then (if c.st = .outb then { c with gram := mkGram (bits n 63 32) (bits n 11 8) (bits n 3 0) } else c)
         else if q = 1 then { c with landing := resize tokEmpty c.landing (min 7 (n % 8)) }
         else { c with landing := c.landing.modify ((q - 2) / 2) (fun t =>
           if q % 2 = 0 then mkTok (tkKind t) (tkAux t) n else mkTok (bits n 7 4) (bits n 3 0) (tkPay t)) }
       s.modThr v.thr (fun t => t.putChan r c1)
     | _, _ => s)
  else
    let n := (j - 264) / 2
    let w := nodeAt (i.bank v.bank).nodes n
    if nwOp w = 0 then s
    else
      let old := (i.node n).imageWords w
      let y := i.node n
      let z := restoreNode w i.cyc (if j % 2 = 0 then x else old.1) (if j % 2 = 0 then old.2 else x)
      let op := nwOp w
      -- the links and what is outstanding stay
      let y := { y with grams := y.grams.set 0 (z.gram 0) }
      s.putIsl k (i.putNode n (
        if op = 0x01 ∨ op = 0x02 then { y with held := z.held, phase := z.phase, r0 := z.r0, r1 := z.r1, r2 := z.r2 }
        else if op = 0x06 then { y with acc := z.acc, r1 := z.r1 }
        else if op = 0x05 ∨ op = 0x35 ∨ op = 0x36 then { y with ins := z.ins }
        else if op = 0x32 then { y with phase := z.phase }
        else y))

/-! ### CRC-32C of words (R92) -/

def w64Bytes (w : W64) : List Byte := (List.range 8).map (fun i => w.extractLsb' (8 * i) 8)

/-- The CRC-32C of words `a` to `b - 1` of a function. -/
def crcWords (w : Nat → W64) (a b : Nat) : Nat := crc32c (((upFrom a (b - a)).map (fun i => w64Bytes (w i))).flatten)

end Sys2Proof.Machine
end

