-- ==== Sys2Proof/Machine/Registers.lean ====
section
/-! DEFINITION. Control and status registers (R168 to R185, R498, and the maps of the other chapters): what each reads as, what a write does
under the access codes of R8 and R9, the plate window (R433, R434), and replay capture of host writes (R471). -/
namespace Sys2Proof.Machine

/-! ### Where a register is (R169, R170) -/

/-- A register: of a thread, of a core or column by its number, of an island by its offset, of the package by its number; a word of the
launch queue or of the sequence table; the plate window's selection, or a word of its data. -/
inductive RegLoc where
  | thread (t n : Nat)
  | core (q n : Nat)
  | col (c n : Nat)
  | isl (k off : Nat)
  | pkg (n : Nat)
  | lq (e w : Nat)
  | seq (j w : Nat)
  | plsel
  | plate (i : Nat)
  | nothing
deriving DecidableEq, Repr

/-- The register at an offset of control register space. -/
def regAt (off : Nat) : RegLoc :=
  let r := off % 0x10000
  if off < 0x140000 then
    if r < 0x800 then (if crAssigned (0x200 + r / 8) then .col (off / 0x10000) (0x200 + r / 8) else .nothing)
    else if 0x8000 ≤ r ∧ r < 0xA000 then
      (let n := 0x100 + (r - 0x8000) % 0x800 / 8
       if crAssigned n then .core (4 * (off / 0x10000) + (r - 0x8000) / 0x800) n else .nothing)
    else .nothing
  else if off < 0x1E0000 then .isl ((off - 0x140000) / 0x10000) (r / 8 * 8)
  else if 0x200000 ≤ off ∧ off < 0x200800 then (let n := 0x1000 + (off - 0x200000) / 8; if crAssigned n then .pkg n else .nothing)
  else if 0x220000 ≤ off ∧ off < 0x221000 then .lq ((off - 0x220000) / 64) ((off - 0x220000) % 64 / 8)
  else if 0x230000 ≤ off ∧ off < 0x231000 then .seq ((off - 0x230000) / 16) ((off - 0x230000) % 16 / 8)
  else if 0x300000 ≤ off ∧ off < 0x300008 then .plsel
  else if 0x310000 ≤ off ∧ off < 0x330000 then .plate ((off - 0x310000) / 8)
  else .nothing

/-- The register that a number names for a thread. -/
def regNamed (t n : Nat) : RegLoc :=
  if n < 0x100 then .thread t n else if n < 0x200 then .core (coreOf t) n else if n < 0x1000 then .col (colOf t) n else .pkg n

/-! ### Writable bits -/

/-- RW bits. -/
def rwMask (l : RegLoc) : Nat :=
  match l with
  | .thread _ n => if n = 0 then 0x7F else if n = 1 then 0x3FF000 else 0
  | .core _ n =>
    if n = 0x100 then 0x0000FFFF0FFF000F
    else if n = 0x101 ∨ n = 0x104 then 0xFFFF
    else if 0x108 ≤ n ∧ n ≤ 0x10B then 0x8000FFFF00000FFF
    else if 0x110 ≤ n ∧ n ≤ 0x117 then (if n % 2 = 0 then 2 ^ 64 - 1 else 0xE000003F0000FFFF)
    else 0
  | .col _ n =>
    if n < 0x220 then 0xF7F03FFF
    else if 0x240 ≤ n ∧ n ≤ 0x24F then 0xFFFF
    else if 0x250 ≤ n ∧ n ≤ 0x29F then 2 ^ 64 - 1
    else if n = 0x2A0 then 0xFFFFFFFF
    else 0
  | .isl _ _ => 0
  | .pkg n =>
    if n = 0x1010 then 0x7FFFFF
    else if 0x1011 ≤ n ∧ n ≤ 0x1013 then 0xFFFFFFFF
    else if n = 0x1020 then 0x3F
    else if n = 0x1030 then 0xFE0000000
    else if n = 0x1031 then 0xFFFFC0000
    else if n = 0x1040 then 2 ^ 64 - 1
    else if n = 0x1060 then 0x33FFFFFFF
    else if n = 0x1061 then 0x3FF
    else if n = 0x1070 then 0xFFFFFFFFFFFFF000
    else if n = 0x1071 then 0xFFFFC0000000
    else if n = 0x1073 then 0xFF
    else if n = 0x1080 ∨ n = 0x1082 then 0xFFFFFFF001
    else if n = 0x1081 ∨ n = 0x1083 then 0xFFFFFF000000
    else if n = 0x1090 then 0xFFFFF00000
    else if n = 0x1091 then 3
    else 0
  | .lq _ w => if w < 5 then 2 ^ 64 - 1 else if w = 5 then 0xFF else 0
  | .seq _ w => if w = 0 then 0xFFFFFFFF0000FFFF else 0xFFFFFFFFFFFF0000
  | .plsel => 0xFF071FBF
  | .plate _ => 0
  | .nothing => 0

/-- W1C bits. -/
def w1cMask (l : RegLoc) : Nat :=
  match l with
  | .col _ n => if n = 0x221 then 0x1F else 0
  | .isl _ off => if 0x4000 ≤ off ∧ off < 0x4400 then 0x1F0000000000000 else 0
  | .pkg n => if n = 0x1021 then 0x100 else if n = 0x1072 then 0xFF else if n = 0x1074 then 0xF else if n = 0x1091 then 8 else 0
  | .seq _ w => if w = 1 then 3 else 0
  | .thread _ _ => 0 | .core _ _ => 0 | .lq _ _ => 0 | .plsel => 0 | .plate _ => 0 | .nothing => 0

/-- RC bits. -/
def rcMask (l : RegLoc) : Nat :=
  match l with
  | .pkg n => if n = 0x1081 ∨ n = 0x1083 then 0xFFFF000000000000 else 0
  | .thread _ _ => 0 | .core _ _ => 0 | .col _ _ => 0 | .isl _ _ => 0 | .lq _ _ => 0 | .seq _ _ => 0 | .plsel => 0 | .plate _ => 0
  | .nothing => 0

/-- Registers that CRWR, CRSET and CRCLR change at SUPERVISOR only (R169, R400, R451). -/
def writeSuper (n : Nat) : Bool :=
  n == 0x001 || n == 0x100 || n == 0x101 || n == 0x104 || decide (0x108 ≤ n ∧ n ≤ 0x117) || n == 0x221 || decide (0x240 ≤ n ∧ n ≤ 0x24F) ||
  decide (0x260 ≤ n ∧ n ≤ 0x2A0) || decide (0x1010 ≤ n ∧ n ≤ 0x1013) || n == 0x1020 || n == 0x1021 || n == 0x1030 || n == 0x1031 ||
  n == 0x1040 || n == 0x1060 || n == 0x1061 || decide (0x1070 ≤ n ∧ n ≤ 0x1074) || decide (0x1080 ≤ n ∧ n ≤ 0x1083) || n == 0x1090 || n == 0x1091

/-- Registers that CRRD reads at SUPERVISOR only. -/
def readSuper (n : Nat) : Bool := n == 0x1040

/-! ### What registers read as -/

/-- TSTAT of a thread, as its CRRD reads it (R173). -/
def State.tstat (s : State) (t : Nat) : Nat :=
  bnat (s.isSuper t) * 2 ^ 15 + s.pkg.pkgNo.toNat * 2 ^ 11 + colOf t * 2 ^ 6 + quarterOf t * 16 + slotOf t

def State.readThreadReg (s : State) (t n : Nat) : W64 :=
  let x := s.thr t
  if n = 0 then w64 x.fpm.toNat else if n = 1 then segWord x else if n = 2 then w64 (s.tstat t) else 0

def State.slotst (s : State) (q : Nat) : Nat := (List.range 16).foldl (fun v n => v + slotCode (s.thr (16 * q + n)).st * 2 ^ (4 * n)) 0

def State.readCoreReg (s : State) (q n : Nat) : W64 :=
  let c := s.core q
  if n = 0x100 then c.hctl
  else if n = 0x101 then w64 c.ssmask.toNat
  else if n = 0x102 then w64 (bnat c.dbl * 2 ^ 16 + c.waiting.length * 2 ^ 8 + c.tq.length)
  else if n = 0x103 then w64 (s.slotst q)
  else if n = 0x104 then w64 c.hmask.toNat
  else if 0x108 ≤ n ∧ n ≤ 0x10B then c.bps.getD (n - 0x108) 0
  else if 0x110 ≤ n ∧ n ≤ 0x117 then (if n % 2 = 0 then c.wpa.getD ((n - 0x110) / 2) 0 else c.wpc.getD ((n - 0x110) / 2) 0)
  else if n = 0x120 then c.dtrec.w0
  else if n = 0x121 then c.dtrec.w1
  else if n = 0x122 then c.dtrec.w2
  else if n = 0x123 then c.dtrec.w3
  else 0

def State.readColReg (s : State) (c n : Nat) : W64 :=
  let x := s.col c
  if n < 0x220 then (x.tshape.getD (n - 0x200) 0).setWidth 64
  else if n = 0x220 then w64 (s.pkg.pkgNo.toNat * 32 + c)
  else if n = 0x221 then w64 x.cevent.toNat
  else if n = 0x222 then x.fcyc
  else if n = 0x223 then w64 x.fskid.toNat
  else if 0x240 ≤ n ∧ n ≤ 0x24F then (x.barc.getD (n - 0x240) 0).setWidth 64
  else if 0x250 ≤ n ∧ n ≤ 0x25F then x.evc.getD (n - 0x250) 0
  else if 0x260 ≤ n ∧ n ≤ 0x29F then x.perf.getD (n - 0x260) 0
  else if n = 0x2A0 then x.wdlimit.setWidth 64
  else 0

/-- The state code of a bank (R387). -/
def Bank.code (b : Bank) : Nat :=
  if b.reloading then 5
  else match b.st with
    | .free => 0
    | .installing => 1
    | .installed => 2
    | .active => 3
    | .draining => 4

def Isl.istat (i : Isl) : Nat :=
  i.queue.length * 2 ^ 32 + (List.range 4).foldl (fun v b => v + (i.bank b).code * 2 ^ (16 + 4 * b)) 0 + bnat i.reconf.isSome * 4 +
    bnat i.heldReconf.isSome * 2 + bnat i.run.isSome

/-- The node words of the configuration whose bank is ACTIVE. -/
def Isl.activeWords (i : Isl) : List NodeWord :=
  match i.activeBank with
  | some b => if (i.bank b).st = .active then (i.bank b).nodes else []
  | none => []

/-- SITEs of a slot. -/
def siteWord (w : NodeWord) : Nat :=
  if nwOp w = 0 then 0 else nwOp w * 256 + bnat (nwRep w) * 64 + nwPlane w * 16 + (nwFmtCode w).toNat

/-- The registers of an island (R387, R388, R311, R431, R435). -/
def State.readIslReg (s : State) (k off : Nat) : W64 :=
  let i := s.isl k
  if off = 0 then w64 i.istat
  else if off = 0x10 then i.islblk
  else if off = 0x18 then i.ifcyc
  else if 0x100 ≤ off ∧ off < 0x120 then
    (let b := i.bank ((off - 0x100) / 8)
     if b.st = .free then 0 else w64 (b.tiles * 2 ^ 40 + b.nslots * 2 ^ 32 + b.graph))
  else if 0x1000 ≤ off ∧ off < 0x1400 then w64 (siteWord (nodeAt i.activeWords ((off - 0x1000) / 8)))
  else if 0x2000 ≤ off ∧ off < 0x3000 then (routeEntries i.activeWords ((off - 0x2000) / 64)).getD ((off - 0x2000) % 64 / 8) 0
  else if 0x4000 ≤ off ∧ off < 0x4400 then i.faultReg ((off - 0x4000) / 8)
  else 0

def State.frzstat (s : State) : Nat :=
  bnat s.pkg.pin * 2 ^ 63 + (List.range 10).foldl (fun v k => v + bnat (s.isl k).frozen * 2 ^ (20 + k)) 0 +
    (List.range 20).foldl (fun v c => v + bnat (s.col c).frozen * 2 ^ c) 0

def State.clkstat (s : State) : Nat :=
  s.pkg.loops.toNat * 2 ^ 28 + bnat s.pkg.vhalf * 2 ^ 27 + s.pkg.cap % 2 ^ 12 * 2 ^ 12 + s.pkg.mhz % 2 ^ 12

def State.chaincfg (s : State) : Nat :=
  bnat s.pkg.eastUp * 2 ^ 9 + bnat s.pkg.westUp * 2 ^ 8 + s.pkg.pkgCount.toNat * 16 + s.pkg.pkgNo.toNat

def State.readPkgReg (s : State) (n : Nat) : W64 :=
  let p := s.pkg
  if n = 0x1000 then w64 (p.pkgNo.toNat * 2 ^ 24 + 0x5A20)
  else if n = 0x1001 then s.time
  else if n = 0x1010 then p.tbudget.setWidth 64
  else if n = 0x1011 then p.vocabLimit.setWidth 64
  else if n = 0x1012 then p.padlo.setWidth 64
  else if n = 0x1013 then p.padhi.setWidth 64
  else if n = 0x1020 then p.lqtail.setWidth 64
  else if n = 0x1021 then w64 (bnat p.lqskip * 256 + bnat s.disp.loading.isSome * 128 + p.lqhead.toNat)
  else if n = 0x1022 then p.iter.setWidth 64
  else if n = 0x1030 then w64 (p.homebase.toNat * 2 ^ 29)
  else if n = 0x1031 then p.icfgbase
  else if n = 0x1040 then p.rngkey
  else if n = 0x1050 then w64 s.qstat
  else if n = 0x1060 then p.frzctl.setWidth 64
  else if n = 0x1061 then p.frztrig.setWidth 64
  else if n = 0x1062 then w64 s.frzstat
  else if n = 0x1070 then p.hwbase
  else if n = 0x1071 then p.bar2win
  else if n = 0x1072 then p.intstat
  else if n = 0x1073 then p.inten
  else if n = 0x1074 then p.hperr
  else if n = 0x1075 then p.bootstat
  else if n = 0x1076 then w64 s.chaincfg
  else if n = 0x1077 then w64 s.clkstat
  else if n = 0x1080 then p.thring
  else if n = 0x1081 then p.thptr
  else if n = 0x1082 then p.erring
  else if n = 0x1083 then p.errptr
  else if n = 0x1090 then p.rcbase
  else if n = 0x1091 then p.rcctl
  else 0

/-- Words A and B of an entry of the sequence table (R411). -/
def SeqEntry.word (e : SeqEntry) (w : Nat) : W64 :=
  if w = 0 then e.committed ++ (0#16 ++ e.req) else e.pos ++ (e.draw ++ BitVec.ofNat 16 (bnat e.oov * 2 + bnat e.wrap))

/-! ### The plate window (R433, R434) -/

def plView (p : BitVec 32) : Nat := bits p.toNat 18 16
def plUnit (p : BitVec 32) : Nat := bits p.toNat 12 8
def plIsl (p : BitVec 32) : Bool := plView p == 2 || (plView p == 3 && bit p.toNat 7)

/-- VALID: the selected partition is frozen. -/
def State.plateValid (s : State) : Bool :=
  let u := plUnit s.pkg.plsel
  if plIsl s.pkg.plsel then decide (u < 10) && (s.isl u).frozen else decide (u < 20) && (s.col u).frozen

/-- The thread of view 0. -/
def plThread (p : BitVec 32) : Nat := thrNo (plUnit p) (bits p.toNat 5 4) (bits p.toNat 3 0)

/-- The place of a word of a raw scan chain (view 3). -/
def scanKey (p : BitVec 32) (i : Nat) : Nat := ((plUnit p + if plIsl p then 32 else 0) * 256 + bits p.toNat 31 24) * 16384 + i

/-- What the scan map puts at a word of the chain of a column: 8 bytes of a tile, by tile and offset, or of the scratch (R147, R221). -/
def scanAt (p : BitVec 32) (i : Nat) : Option (Bool × Nat) :=
  if plIsl p then none else (Config.scanItem (bits p.toNat 31 24 * 16384 + i)).map (fun x => (x.1, 8 * (x.2 % if x.1 then 524288 else 65536)))

/-- The tile and the offset of byte `o` of the tiles. -/
def State.scanTile (s : State) (c o : Nat) : Nat := (List.range 8).foldr (fun i x => (s.tileByte c (o / 16384) (o % 16384 + i)).toNat + 256 * x) 0

/-- A word of a raw scan chain: of a tile or of the scratch, what a debug write has put there, or free values of this freeze (log 9). -/
def State.scanWord (s : State) (p : BitVec 32) (i : Nat) : W64 :=
  let u := plUnit p
  let at_ := if plIsl p then (s.isl u).gatedAt else (s.col u).gatedAt
  match scanAt p i, sget none s.pkg.scan (scanKey p i) with
  | some (false, o), _ => w64 (s.scanTile u o)
  | some (true, o), _ => w64 (s.readN (s.ga 1 u o) 8)
  | none, some v => v
  | none, none => w64 ((List.range 64).foldl (fun v b => v + bnat (Config.scanBit (scanKey p 0) (2 ^ 24 * at_ + 64 * i + b)) * 2 ^ b) 0)

def State.plateWord (s : State) (i : Nat) : W64 :=
  let p := s.pkg.plsel
  let u := plUnit p
  if !s.plateValid then 0
  else if plView p = 0 then
    (let t := plThread p
     if i < 192 then (s.thr t).imageWord t (slotCode (s.thr t).st) (if (s.thr t).st = .trapped then (s.thr t).trapRec else {}) i else 0)
  else if plView p = 1 then (s.col u).imageWord u i
  else if plView p = 2 then
    (match (s.isl u).run with
     | some r => s.invWord u r true i
     | none => 0)
  else s.scanWord p i

/-- The state code of a slot is replaced: PARKED names no wait, so that it changes nothing. -/
def State.putSlotCode (s : State) (t code : Nat) : State :=
  if code = slotCode (s.thr t).st then s
  else if code = 0 then s.emptySlot t
  else if code = 1 then s.modThr t (fun x => { x with st := .ready, wait := .none, readyFrom := s.cycOf t })
  else if code = 3 then s.modThr t (fun x => { x with st := .halted, wait := .none })
  else if code = 4 then s.modThr t (fun x => { x with st := .trapped, wait := .none })
  else s

/-- Word `j` of the record of a TRAPPED thread is replaced, and so it is where the record stands in the queue. -/
def State.putRecordWord (s : State) (t j : Nat) (v : W64) : State :=
  let g := fun (r : TrapRec) =>
    if j = 0 then { r with w0 := v } else if j = 1 then { r with w1 := v } else if j = 2 then { r with w2 := v } else { r with w3 := v }
  let f := fun (r : TrapRec) => if r.slot = slotOf t then g r else r
  (s.modCore (coreOf t) (fun c => { c with tq := c.tq.map f, waiting := c.waiting.map f })).modThr t (fun x => { x with trapRec := g x.trapRec })

/-- A debug write of word `i` of a raw scan chain: 8 bytes of a tile or of the scratch, or other latches. -/
def State.putScan (s : State) (p : BitVec 32) (i : Nat) (v : W64) : State :=
  match scanAt p i with
  | some (false, o) =>
    ((List.range 8).foldl (fun (s : State) j => s.putTileByte (plUnit p) (o / 16384) (o % 16384 + j) (v.extractLsb' (8 * j) 8)) s).modCol (plUnit p)
      (fun x => { x with tileMarks := sset .clean x.tileMarks (o / 8) .clean })
  | some (true, o) => s.writeClean (s.ga 1 (plUnit p) o) v.toNat
  | none => { s with pkg := { s.pkg with scan := sset none s.pkg.scan (scanKey p i) (some v) } }

/-- A debug write of word `i` of the selected view (R433). -/
def State.debugPut (s : State) (i : Nat) (v : W64) : State :=
  let p := s.pkg.plsel
  let u := plUnit p
  if !s.plateValid then s
  else if plView p = 0 then
    (let t := plThread p
     if i = 180 then (s.modThr t (fun x => x.putImageWord i v)).putSlotCode t (bits v.toNat 63 60)
     else if 184 ≤ i ∧ i < 188 then s.putRecordWord t (i - 184) v
     else s.modThr t (fun x => x.putImageWord i v))
  else if plView p = 1 then s.modCol u (fun x => x.putImageWord i v)
  else if plView p = 2 then
    (match (s.isl u).run with
     | some r => s.putInvWord u r i v
     | none => s)
  else s.putScan p i v

/-! ### Reading -/

/-- The value of a register, RSV and WO bits zero. -/
def State.readReg (s : State) (l : RegLoc) : W64 :=
  match l with
  | .thread t n => s.readThreadReg t n
  | .core q n => s.readCoreReg q n
  | .col c n => s.readColReg c n
  | .isl k off => s.readIslReg k off
  | .pkg n => s.readPkgReg n
  | .lq e w => sget 0 s.disp.lq (8 * e + w)
  | .seq j w => (s.seqEntry j).word w
  | .plsel => w64 (bnat s.plateValid * 2 ^ 63 + s.pkg.plsel.toNat)
  | .plate i => s.plateWord i
  | .nothing => 0

/-- What the present cycle has counted in the RC bits of a register (R8). -/
def State.countedNow (s : State) (l : RegLoc) : Nat :=
  match l with
  | .pkg n => if n = 0x1081 then s.pkg.thDropNow * 2 ^ 48 else 0
  | _ => 0

/-- What a read returns: the RO bits as they stood before the events of the cycle, and the RC bits without what it has counted (R8). The
plate of a frozen partition has no events. -/
def State.shownReg (s : State) (l : RegLoc) : W64 :=
  let now := s.readReg l
  let m := w64 (rwMask l ||| w1cMask l ||| rcMask l)
  match l with
  | .plate _ => now
  | _ => ((now - w64 (s.countedNow l)) &&& m) ||| (s.before.readReg l &&& ~~~m)

/-- A read clears the RC bits of the mask that it has returned; what the cycle has counted stays for the next read (R8, R454). -/
def State.clearRead (s : State) (l : RegLoc) (m : Nat) : State :=
  let z : W64 := ~~~(w64 (rcMask l &&& m))
  let v : W64 := w64 (s.countedNow l &&& rcMask l &&& m)
  match l with
  | .pkg n =>
    if n = 0x1081 then { s with pkg := { s.pkg with thptr := (s.pkg.thptr &&& z) ||| v } }
    else if n = 0x1083 then { s with pkg := { s.pkg with errptr := s.pkg.errptr &&& z } }
    else s
  | _ => s

/-! ### Writing -/

/-- Field [hi:lo] of a value replaced by that of another. -/
def keepField (old new hi lo : Nat) : Nat := new - bits new hi lo * 2 ^ lo + bits old hi lo * 2 ^ lo

/-- The new value with reserved encodings of RW fields left at the old ones (R9). -/
def State.heldFields (s : State) (l : RegLoc) (old new : Nat) : Nat :=
  match l with
  | .col _ n => if n < 0x220 ∧ (decFmt (BitVec.ofNat 4 (bits new 31 28))).isNone then keepField old new 31 28 else new
  | .core _ n =>
    if 0x110 ≤ n ∧ n ≤ 0x117 ∧ n % 2 = 1 ∧ (bits new 37 32 < 3 ∨ 48 < bits new 37 32) then keepField old new 37 32 else new
  | .pkg n =>
    if n = 0x1090 ∧ 12 < bits new 39 36 then keepField old new 39 36
    else if n = 0x1081 ∧ 128 * 2 ^ bits s.pkg.thring.toNat 39 36 ≤ bits new 47 24 then keepField old new 47 24
    else if n = 0x1083 ∧ 128 * 2 ^ bits s.pkg.erring.toNat 39 36 ≤ bits new 47 24 then keepField old new 47 24
    else new
  | .plsel => if 3 < bits new 18 16 then keepField old new 18 16 else new
  | _ => new

def State.putThreadReg (s : State) (t n : Nat) (v : W64) : State :=
  if n = 0 then s.modThr t (fun x => { x with fpm := v.setWidth 7 })
  else if n = 1 then s.modThr t (fun x => { x with seg := v.extractLsb' 12 10 })
  else s

/-- A write of HCTL leaves the old handler slot in force for this cycle (R168). -/
def Core.putHctl (c : Core) (now : Nat) (v : W64) : Core :=
  { c with hctl := v, hctlOld := if c.hctlAt = now + 1 then c.hctlOld else c.hctl, hctlAt := now + 1 }

def State.putCoreReg (s : State) (q n : Nat) (v : W64) : State :=
  if n = 0x100 then s.modCore q (fun c => c.putHctl s.sched.cycle v)
  else if n = 0x101 then s.modCore q (fun c => { c with ssmask := v.setWidth 16 })
  else if n = 0x104 then s.modCore q (fun c => { c with hmask := v.setWidth 16 })
  else if 0x108 ≤ n ∧ n ≤ 0x10B then s.modCore q (fun c => { c with bps := c.bps.setIfInBounds (n - 0x108) v })
  else if 0x110 ≤ n ∧ n ≤ 0x117 then
    (if n % 2 = 0 then s.modCore q (fun c => { c with wpa := c.wpa.setIfInBounds ((n - 0x110) / 2) v })
     else s.modCore q (fun c => { c with wpc := c.wpc.setIfInBounds ((n - 0x110) / 2) v }))
  else s

/-- A write that changes the TARGET of a barrier sets its COUNT to 0 (R401). -/
def putTarget (b : BitVec 33) (target : Nat) : BitVec 33 := if bcTarget b = target then b else mkBarc (bcPhase b) 0 target

def State.putColReg (s : State) (c n : Nat) (v : W64) (clr : Nat) : State :=
  s.modCol c (fun x =>
    if n < 0x220 then { x with tshape := x.tshape.setIfInBounds (n - 0x200) (v.setWidth 32) }
    else if n = 0x221 then { x with cevent := x.cevent &&& (~~~(BitVec.ofNat 5 clr) ||| x.cevNow) }
    else if 0x240 ≤ n ∧ n ≤ 0x24F then { x with barc := x.barc.setIfInBounds (n - 0x240) (putTarget (x.bar (n - 0x240)) (v.toNat % 2 ^ 16)) }
    else if 0x250 ≤ n ∧ n ≤ 0x25F then { x with evc := x.evc.setIfInBounds (n - 0x250) v }
    else if 0x260 ≤ n ∧ n ≤ 0x29F then { x with perf := x.perf.setIfInBounds (n - 0x260) v, perfHeld := (n - 0x260) :: x.perfHeld }
    else if n = 0x2A0 then { x with wdlimit := v.setWidth 32 }
    else x)

/-- W1C bits of a node fault register (R311). -/
def State.putIslReg (s : State) (k off clr : Nat) : State :=
  if 0x4000 ≤ off ∧ off < 0x4400 then
    let n := (off - 0x4000) / 8
    s.modIsl k (fun i => { i with nfault := sset 0 i.nfault n (i.faultReg n &&& (~~~(w64 clr) ||| sget 0 i.flagNow n)) })
  else s

/-- A message for each bit of INTSTAT AND INTEN that is 1 (R457). -/
def State.resend (s : State) : State :=
  (List.range 8).foldl (fun s n => if s.pkg.intstat.getLsbD n && s.pkg.inten.getLsbD n then s.tell (.msix n) else s) s

/-- The command of a write of FRZCTL: a trigger of this cycle, or what begins with the next one (R429, R430). -/
def State.freezeCmd (s : State) (cmd : Nat) : State :=
  let f := s.pkg.frzctl.toNat
  let cols := f % 2 ^ 20
  let isls := bits f 29 20
  if cmd = 1 then s.after 0 (.freeze cols isls)
  else if cmd = 2 then s.after 0 (.stopTheColumn cols isls)
  else if cmd = 3 then s.after 1 (.release cols isls)
  else if cmd = 4 then s.after 1 (.step cols (bits f 33 32))
  else s

/-- A base register of a ring is written: WR and RD are 0, DROP stays (R458). -/
def keepDrop (p : W64) : W64 := p &&& 0xFFFF000000000000

/-- A write of RCCTL: setting HOST or UCIE while both are 0 starts USED at 0 (R471). -/
def State.putRcctl (s : State) (v : W64) (clr : Nat) : State :=
  let old := s.pkg.rcctl.toNat
  let en := v.toNat % 4
  let used := if old % 4 = 0 ∧ en ≠ 0 then 0 else old / 2 ^ 32
  let ovf := if bit clr 3 && !s.pkg.ovfNow then 0 else bits old 3 3
  { s with pkg := { s.pkg with rcctl := w64 (used * 2 ^ 32 + ovf * 8 + bits old 2 2 * 4 + en) } }

def State.putPkgReg (s : State) (n : Nat) (v : W64) (clr cmd : Nat) : State :=
  let p := s.pkg
  if n = 0x1010 then { s with pkg := { p with tbudget := v.setWidth 23 } }
  else if n = 0x1011 then { s with pkg := { p with vocabLimit := v.setWidth 32 } }
  else if n = 0x1012 then { s with pkg := { p with padlo := v.setWidth 32 } }
  else if n = 0x1013 then { s with pkg := { p with padhi := v.setWidth 32 } }
  else if n = 0x1020 then { s with pkg := { p with lqtail := v.setWidth 6 } }
  else if n = 0x1021 then { s with pkg := { p with lqskip := p.lqskip && (!bit clr 8 || p.skipNow) } }
  else if n = 0x1030 then { s with pkg := { p with homebase := v.extractLsb' 29 7 } }
  else if n = 0x1031 then { s with pkg := { p with icfgbase := v } }
  else if n = 0x1040 then { s with pkg := { p with rngkey := v } }
  else if n = 0x1060 then { s with pkg := { p with frzctl := v.setWidth 34 } }.freezeCmd cmd
  else if n = 0x1061 then { s with pkg := { p with frztrig := v.setWidth 10 } }
  else if n = 0x1070 then { s with pkg := { p with hwbase := v } }
  else if n = 0x1071 then { s with pkg := { p with bar2win := v } }
  else if n = 0x1072 then { s with pkg := { p with intstat := p.intstat &&& (~~~(w64 clr) ||| p.intNow) } }.resend
  else if n = 0x1073 then { s with pkg := { p with inten := v } }.resend
  else if n = 0x1074 then { s with pkg := { p with hperr := p.hperr &&& (~~~(w64 clr) ||| p.hperrNow) } }
  else if n = 0x1080 then { s with pkg := { p with thring := v, thptr := keepDrop p.thptr } }
  else if n = 0x1081 then { s with pkg := { p with thptr := v } }
  else if n = 0x1082 then { s with pkg := { p with erring := v, errptr := keepDrop p.errptr } }
  else if n = 0x1083 then { s with pkg := { p with errptr := v } }
  else if n = 0x1090 then { s with pkg := { p with rcbase := v } }
  else if n = 0x1091 then s.putRcctl v clr
  else s

def State.putSeqReg (s : State) (j w : Nat) (v : W64) (clr : Nat) : State :=
  let e := s.seqEntry j
  let now := sget 0 s.disp.seqNow j
  s.putSeq j (if w = 0 then { e with committed := v.extractLsb' 32 32, req := v.setWidth 16 }
    else { e with pos := v.extractLsb' 32 32, draw := v.extractLsb' 16 16, oov := e.oov && (!bit clr 1 || bit now 1), wrap := e.wrap && (!bit clr 0 || bit now 0) })

/-- A register takes new RW bits; `clr` are the W1C bits written 1, and `cmd` the WO field of FRZCTL. -/
def State.putReg (s : State) (l : RegLoc) (v : W64) (clr cmd : Nat) : State :=
  match l with
  | .thread t n => s.putThreadReg t n v
  | .core q n => s.putCoreReg q n v
  | .col c n => s.putColReg c n v clr
  | .isl k off => s.putIslReg k off clr
  | .pkg n => s.putPkgReg n v clr cmd
  | .lq e w => { s with disp := { s.disp with lq := sset 0 s.disp.lq (8 * e + w) v } }
  | .seq j w => s.putSeqReg j w v clr
  | .plsel => { s with pkg := { s.pkg with plsel := v.setWidth 32 } }
  | .plate i => s.debugPut i v
  | .nothing => s

/-- A write of the bits of mask `m` (R185, R454); a window of fewer than 8 bytes into the plate is discarded (R434). -/
def State.writeReg (s : State) (l : RegLoc) (v : W64) (m : Nat) : State :=
  let old := (s.readReg l).toNat
  let rw := rwMask l &&& m
  let new := (old &&& (2 ^ 64 - 1 - rw)) + (v.toNat &&& rw)
  match l with
  | .plate i => if m = 2 ^ 64 - 1 then s.debugPut i v else s
  | _ => s.putReg l (w64 (s.heldFields l old new)) (v.toNat &&& m &&& w1cMask l) (if bits m 63 61 = 7 then bits v.toNat 63 61 else 0)

/-- CRSET and CRCLR change RW bits alone (R185). -/
def State.changeReg (s : State) (l : RegLoc) (v : W64) (on : Bool) : State :=
  let old := (s.readReg l).toNat
  let b := v.toNat &&& rwMask l
  let new := if on then old ||| b else old &&& (2 ^ 64 - 1 - b)
  if rwMask l = 0 then s else s.putReg l (w64 (s.heldFields l old new)) 0 0

/-! ### Major 0x22 (R185) -/

/-- PRIVILEGE at USER for a register whose privilege is SUPERVISOR. -/
def State.crChecked (s : State) (sup : Bool) (go : State → State) : State := if sup then s.supervisor go else go s

def execCrrd (d : Reg) (n : BitVec 14) (s : State) : Out :=
  .next (s.crChecked (readSuper n.toNat) (fun s =>
    let l := regNamed s.me n.toNat
    ((s.clearRead l (2 ^ 64 - 1)).wr d (s.shownReg l)).finish))

def execCrwr (a : Reg) (n : BitVec 14) (s : State) : Out :=
  .next (s.crChecked (writeSuper n.toNat) (fun s => (s.writeReg (regNamed s.me n.toNat) (s.rd a) (2 ^ 64 - 1)).finish))

def execCrset (a : Reg) (n : BitVec 14) (s : State) : Out :=
  .next (s.crChecked (writeSuper n.toNat) (fun s => (s.changeReg (regNamed s.me n.toNat) (s.rd a) true).finish))

def execCrclr (a : Reg) (n : BitVec 14) (s : State) : Out :=
  .next (s.crChecked (writeSuper n.toNat) (fun s => (s.changeReg (regNamed s.me n.toNat) (s.rd a) false).finish))

/-! ### Accesses of space 0x5 (R170, R498) -/

/-- The register at a global address of this package. -/
def regOfGa (g : Nat) : RegLoc := if gaOwner g = 0 then regAt (gaOff g) else .nothing

/-- An access is performed at its owner: of memory, or of a register at its station. -/
def execOwnerAccess (seq : Nat) (s : State) : Out :=
  .next (match s.flight seq with
    | some a =>
      (match a.op with
       | .regLoad d =>
         if s.standing a then
           let l := regOfGa a.ga
           let v := s.shownReg l
           ((s.clearRead l (2 ^ 64 - 1)).dropFlight seq).answer a false v.toNat 0 (.done [(d, v)] [])
         else s
       | .regStore v =>
         if s.standing a then ((s.writeReg (regOfGa a.ga) v (2 ^ 64 - 1)).dropFlight seq).answer a false 0 0 (.done [] []) else s
       | _ => s.ownerAccess seq)
    | none => s)

/-! ### Replay capture (R471) -/

/-- A record of a host write or of an inbound flit enters the buffer, or stops the capture. -/
def State.capture (s : State) (src off : Nat) (data : List Byte) : State :=
  let c := s.pkg.rcctl.toNat
  let n := (data.length + 15) / 16
  let used := c / 2 ^ 32
  let base := bits s.pkg.rcbase.toNat 35 20 * 2 ^ 20
  let size := 2 ^ bits s.pkg.rcbase.toNat 39 36 * 2 ^ 20
  let at_ := base + 16 * used
  if !(if src < 2 then bit c 0 else bit c 1) || bit c 3 then s
  else if size < 16 * (used + 1 + n) ∨ 2 ^ 36 < at_ + 16 * (1 + n) then
    { s with pkg := { s.pkg with rcctl := w64 (c ||| 8), ovfNow := true } }.interrupt 7
  else
    let put := fun (s : State) (o v : Nat) => s.ringWord (s.ga 3 0 (at_ + o)) v
    let s := put (put s 0 s.time.toNat) 8 (src * 2 ^ 60 + (n - 1) * 2 ^ 54 + off % 2 ^ 52)
    let word := fun (i : Nat) => (List.range 8).foldr (fun j x => (data.getD (8 * i + j) 0).toNat + 256 * x) 0
    let s := (List.range (2 * n)).foldl (fun (s : State) i => put s (16 + 8 * i) (word i)) s
    { s with pkg := { s.pkg with rcctl := w64 (c + (1 + n) * 2 ^ 32) } }

/-! ### Host accesses through BAR0 (R453, R454) -/

/-- A bit of HPERR is set. -/
def State.hostError (s : State) (n : Nat) : State :=
  { s with pkg := { s.pkg with hperr := s.pkg.hperr ||| (1#64 <<< n), hperrNow := s.pkg.hperrNow ||| (1#64 <<< n) } }.interrupt 5

/-- Whether BAR0 accepts a request. -/
def bar0Ok (off size : Nat) : Bool := (size == 4 || size == 8) && off % size == 0 && decide (off + size ≤ 2 ^ 26)

/-- The bits of a register that an access reaches. -/
def halfMask (off size : Nat) : Nat := if size = 8 then 2 ^ 64 - 1 else if off % 8 = 0 then 2 ^ 32 - 1 else 2 ^ 64 - 2 ^ 32

/-- A host write through BAR0. -/
def State.bar0Write (s : State) (off size : Nat) (v : W64) : State :=
  if bar0Ok off size then
    s.writeReg (regAt (off / 8 * 8)) (if size = 8 ∨ off % 8 = 0 then v else v <<< 32) (halfMask off size)
  else s.hostError 2

/-- A host read through BAR0. -/
def State.bar0Read (s : State) (off size : Nat) : State :=
  if bar0Ok off size then
    let l := regAt (off / 8 * 8)
    let v := s.shownReg l
    (s.clearRead l (halfMask off size)).tell (.bar0Data (if size = 8 then v else if off % 8 = 0 then v.setWidth 32 |>.setWidth 64 else v >>> 32))
  else (s.tell .unsupported).hostError 3

/-- A host request: a write is discarded in replay mode (R472); behind requests that wait for their words, each keeps its place (R234). -/
def State.hostRequest (s : State) (e : Event) (wr : Bool) (go : State → State) : State :=
  if wr && bit s.pkg.rcctl.toNat 2 then s
  else if s.host.held.isEmpty && s.host.busy.isNone then go s
  else { s with host := { s.host with held := s.host.held ++ [e] } }

/-- A host write through BAR0, which replay capture records. -/
def State.hostWrite0 (s : State) (e : Event) (off size : Nat) (v : W64) : State :=
  s.hostRequest e true (fun s => ((if bar0Ok off size then s.capture 0 off (bytesOf v.toNat size) else s).bar0Write off size v))

def execRegisterWrite (off size : Nat) (v : W64) (s : State) : Out := .next (s.hostWrite0 (.registerWrite off size v) off size v)

/-- A read of any register through BAR0; THPTR and ERRPTR lose their drop count by it. -/
def execPointerDropRead (off size : Nat) (s : State) : Out :=
  .next (s.hostRequest (.pointerDropRead off size) false (fun s => s.bar0Read off size))

def execRingBaseWrite (err : Bool) (v : W64) (s : State) : Out :=
  .next (s.hostWrite0 (.ringBaseWrite err v) (if err then 0x200410 else 0x200400) 8 v)
def execIntstatWrite (en : Bool) (v : W64) (s : State) : Out :=
  .next (s.hostWrite0 (.intstatWrite en v) (if en then 0x200398 else 0x200390) 8 v)
def execRcctlWrite (v : W64) (s : State) : Out := .next (s.hostWrite0 (.rcctlWrite v) 0x200488 8 v)

/-- An aligned word written into the plate window, at window byte `off` (R434). -/
def execDebugWrite (off : Nat) (v : W64) (s : State) : Out :=
  .next (s.hostWrite0 (.debugWrite off v) (0x310000 + off % 2 ^ 17 / 8 * 8) 8 v)

end Sys2Proof.Machine
end

