-- ==== Sys2Proof/Machine/Context.lean ====
section
/-! DEFINITION. GATE (R438) and its messages, CTXSAVE and CTXLOAD (R440 to R447). -/
namespace Sys2Proof.Machine

/-! ### GATE -/

/-- The units that a descriptor names. -/
def gateUnits (v : Nat) : List GateUnit :=
  (if bit v 32 then [.dealer] else []) ++ (if bit v 33 then [.launch] else []) ++
    (if v % 256 = 0 then [] else [.chans (bits v 12 8) (v % 256)])

def gateStation : GateUnit → Nat
  | .dealer => 30
  | .launch => 31
  | .chans c _ => c

def execGate (a : Reg) (opn : Bool) (s : State) : Out :=
  .next (s.supervisor (fun s =>
    let v := (s.rd a).toNat
    let us := gateUnits v
    if 2 ^ 34 ≤ v ∨ bits v 31 13 ≠ 0 ∨ bits v 12 8 > 19 then s.trapMe ctxTrap
    else if us.isEmpty then s.finish
    else
      let id := s.fresh.1
      let s := { s.fresh.2 with disp := { s.disp with gateWaits := s.disp.gateWaits ++ [(id, s.me, us.length)] } }
      (us.foldl (fun s u => s.classZero s.cur.col (gateStation u) (.gateArrive id u opn)) s).parkMe .mem .reply))

/-- A gate takes effect at its unit, and its acknowledgement leaves. -/
def execGateArrive (id : Nat) (u : GateUnit) (opn : Bool) (s : State) : Out :=
  let s := match u with
    | .dealer => { s with disp := { s.disp with dealerGate := !opn } }
    | .launch => { s with disp := { s.disp with launchGate := !opn } }
    | .chans c m => (List.range 8).foldl (fun s o => if bit m o then s.putOut c o { (s.out c o) with gate := !opn } else s) s
  .next (match s.disp.gateWaits.find? (fun g => g.1 == id) with
    | some g => s.classZero (gateStation u) (colOf g.2.1) (.gateAck id)
    | none => s)

/-- The last acknowledgement completes GATE. -/
def execGateAck (id : Nat) (s : State) : Out :=
  .next (match s.disp.gateWaits.find? (fun g => g.1 == id) with
    | some g =>
      let rest := s.disp.gateWaits.filter (fun x => x.1 != id)
      if g.2.2 ≤ 1 then { s with disp := { s.disp with gateWaits := rest } }.completeParked g.2.1 (fun x => x)
      else { s with disp := { s.disp with gateWaits := (id, g.2.1, g.2.2 - 1) :: rest } }
    | none => s)

/-! ### Selectors (R440) -/

def selKind (v : Nat) : Nat := bits v 63 61
def selWords (v : Nat) : Nat := bits v 39 28 + 1
def selBase (v : Nat) : Nat := bits v 27 16
def selCol (v : Nat) : Nat := bits v 12 8
def selCore (v : Nat) : Nat := 4 * selCol v + bits v 5 4
def selThread (v : Nat) : Nat := 16 * selCore v + v % 16

def selBad (v : Nat) : Bool :=
  decide (3 < selKind v) || bits v 60 40 != 0 || bits v 15 13 != 0 || bits v 7 6 != 0 ||
    decide ((if selKind v = 3 then 9 else 19) < selCol v) || (selKind v == 1 && decide (4096 < selBase v + selWords v))

/-- The size of an image. -/
def selSize (v : Nat) : Nat :=
  match selKind v with
  | 0 => 1536
  | 1 => 16 + 4 * selWords v
  | 2 => 81920
  | _ => 4160

/-- The checks before the target's: alignment, selector, watchpoints, translation and map. CTXSAVE (`wr`) reports a deferred store fault
after them and before a park (R205, log 48). -/
def State.ctxChecked (s : State) (d a : Reg) (wr : Bool) (go : Nat → List Via → State → State) : State :=
  let va := (s.rd a).toNat
  let v := (s.rd d).toNat
  let report := fun (s : State) (k : State → State) => if wr then s.reportDeferred k else k s
  if va % 64 ≠ 0 ∧ (s.thr s.me).retrans = false then s.trapMe (misaligned va)
  else if selBad v then s.trapMe ctxTrap
  else s.preChecked va (selSize v) 64 (!wr) wr (fun s =>
    match s.translate s.me va (selSize v) (if wr then permW else permR) with
    | .ok g via => s.mapChecked g (selSize v) .bulk va (fun s => report s (go g via))
    | .fault i => s.trapMe i
    | r => report s (fun s => s.noAccess va r))

/-! ### The target's state -/

/-- Whether a slot of a core, or of a column, is not EMPTY. -/
def State.coreUsed (s : State) (q : Nat) : Bool := (List.range 16).any (fun n => (s.thr (16 * q + n)).st != .empty)
def State.colUsed (s : State) (c : Nat) : Bool := (List.range 4).any (fun q => s.coreUsed (4 * c + q))

/-- Whether an invocation of thread `t` with a bound channel register is still in an island. -/
def State.boundInv (s : State) (t : Nat) : Bool :=
  (s.thr t).chans.toList.any (fun c => c.st != .unbound &&
    ((s.isl c.isl).queue.any (fun v => v.id == c.inv) || (match (s.isl c.isl).run with
      | some r => r.id == c.inv
      | none => false)))

/-- Whether a step of the schedule is a transit message to or from column `c`. -/
def transitOf (c : Nat) : Event → Bool
  | .transitPacket p => p.prod == c || p.cons == c
  | .transitCredit p _ _ _ _ _ => p == c
  | .transitFoldApply p _ _ _ => p == c
  | .transitFlushApply p _ _ => p == c
  | _ => false

/-- Whether an outbound channel has sends or credits on their way. -/
def State.outBusy (s : State) (c o : Nat) : Bool :=
  let x := s.out c o
  x.bound && ((List.range x.branches.length).zip x.branches).any (fun b =>
    let i := s.inc b.2.col b.2.inc
    !x.half.contains b.1 && i.bound && i.prod == c && i.out == o && !i.half &&
      decide (b.2.credits + i.number .filled + i.number .claimed ≠ b.2.w))

/-- Whether transit packets, credits, folds or flushes of a column are in flight. -/
def State.transitBusy (s : State) (c : Nat) : Bool :=
  let x := s.col c
  !x.sendQ.isEmpty || !x.flushes.isEmpty || !x.arriving.isEmpty || s.sched.agenda.any (fun e => transitOf c e.2) ||
    (List.range 8).any (fun i => decide (0 < (s.inc c i).number .inflight + (s.inc c i).number .returning)) ||
    (List.range 8).any (fun o => s.outBusy c o)

/-- Whether an array operation or a copy of a column is in flight. -/
def State.colBusy (s : State) (c : Nat) : Bool :=
  !(s.col c).gangs.isEmpty || (List.range 4).any (fun q => !(s.core (4 * c + q)).copies.isEmpty) || s.transitBusy c

/-- Whether the running invocation of an island cannot be captured: a token in a link or stored, an access outstanding. -/
def State.invBusy (s : State) (k : Nat) : Bool :=
  let i := s.isl k
  i.reconf.isSome || s.islBusy k ||
    (match i.run with
     | some r =>
       i.nodes.any (fun n => !n.2.quiet (nodeAt i.words n.1)) ||
         s.sched.agenda.any (fun e => match e.2 with
           | .channelTokenArrive t _ v _ => t == r.thr && v == r.id
           | .activeNotice t v => t == r.thr && v == r.id
           | _ => false)
     | none => false)

/-- The status of a CTXSAVE of this selector by the issuing thread; 0 when the target can be saved. -/
def State.saveStatus (s : State) (v : Nat) : Nat :=
  match selKind v with
  | 0 =>
    let t := selThread v
    if (s.thr t).st = .empty ∨ t = s.me ∨ s.boundInv t then 2 else 0
  | 1 => if s.coreUsed (selCore v) then 2 else 0
  | 2 => if s.colUsed (selCol v) then 2 else if s.colBusy (selCol v) then 4 else 0
  | _ => if (s.isl (selCol v)).savable.isNone then 2 else if s.invBusy (selCol v) then 4 else 0

/-! ### Settling (R220, R441) -/

/-- Whether thread `t` stands between two instructions: its stores are performed, no reply, invalidation or gang operation of it is
awaited, and it waits in no list. -/
def State.settled (s : State) (t : Nat) : Bool :=
  (s.outstanding t).isEmpty && !s.inStarted t &&
    (match (s.thr t).wait with
     | .reply => false
     | .inval _ => false
     | .feList _ => false
     | .exit => false
     | .dying => false
     | _ => true)

/-- The trap that is pending for a thread beside its present state: a deferred store fault, or an asynchronous trap. -/
def Thread.pendingTrap (x : Thread) : Option TrapInfo :=
  match x.asyncTraps, x.deferred with
  | i :: _, _ => some i
  | [], d :: _ => some d.trap
  | [], [] => none

/-- The record of the image of a thread, with which it counts as TRAPPED, if there is one. -/
def State.imageRecord (s : State) (t : Nat) : Option TrapRec :=
  let x := s.thr t
  if x.st = .trapped ∨ x.wait = .trapRoom then some (s.thr t).trapRec
  else x.pendingTrap.map (s.record t)

/-! ### CTXSAVE -/

/-- Words as a table of bytes. -/
def tableOf (n : Nat) (w : Nat → W64) : Sparse Byte :=
  (List.range n).foldl (fun m i => (List.range 8).foldl (fun m j => sset 0 m (8 * i + j) ((w i).extractLsb' (8 * j) 8)) m) []

/-- The bytes of an image, and the state in which the target is left. -/
def magicWord (n crc : Nat) : W64 := w64 ((0x5A1C0000 + n) * 2 ^ 32 + crc)

def State.saveThread (s : State) (t : Nat) : Sparse Byte × State :=
  let s := s.withdraw t
  let r := s.imageRecord t
  let x := s.thr t
  let w := fun (i : Nat) => x.imageWord t (if r.isSome then 4 else 1) (r.getD {}) i
  let w1 := fun (i : Nat) => if i = 191 then magicWord 1 (crcWords w 0 191) else w i
  let s := s.modCore (coreOf t) (fun c => { c with waiting := c.waiting.filter (fun r => r.slot != slotOf t) })
  (tableOf 192 w1, (s.dropRecord (coreOf t) (slotOf t)).endThread t)

def State.codeWords (s : State) (v : Nat) : List Word := (List.range (selWords v)).map (fun i => sget 0 (s.core (selCore v)).code (selBase v + i))
def codeBytes (l : List Word) : List Byte := (l.map (fun w => (List.range 4).map (fun i => w.extractLsb' (8 * i) 8))).flatten

def State.saveCode (s : State) (v : Nat) : Sparse Byte :=
  let b := codeBytes (s.codeWords v)
  let l := w64Bytes (magicWord 2 (selWords v % 4096)) ++ w64Bytes (w64 (crc32c b)) ++ b
  ((List.range l.length).zip l).foldl (fun m p => sset 0 m p.1 p.2) []

def State.saveColumn (s : State) (c : Nat) : Sparse Byte × State :=
  let x := s.col c
  let w := fun (i : Nat) => if i = 0 then magicWord 3 c else x.imageWord c i
  let w1 := fun (i : Nat) => if i = 7 then w64 (crcWords w 8 10240) else w i
  (tableOf 10240 w1, s.putCol c x.cleared.unboundAll)

/-- The registers of an invocation that leaves its island: their landing tokens stand in the image. -/
def State.releaseRegs (s : State) (k : Nat) (v : Inv) : State :=
  s.modThr v.thr (fun x => x.mapBound k v.id (fun c => { c with landing := [], active := false, inv := noInv, gram := {} }))

def State.saveInv (s : State) (k : Nat) (v : Inv) (started : Bool) : Sparse Byte × State :=
  let w := fun (i : Nat) => if i = 0 then w64 ((s.invWord k v started 0).toNat + 0x5A1C0004 * 2 ^ 32) else s.invWord k v started i
  let w1 := fun (i : Nat) => if i = 7 then w64 (crcWords w 8 520) else w i
  let s1 := s.releaseRegs k v
  (tableOf 520 w1, if started then s1.closeInv k else (s1.modIsl k (fun i => { i with queue := i.queue.drop 1 })).admitInvs k)

/-- The image of a target that can be saved, and the state without it. -/
def State.captureImage (s : State) (v : Nat) : Sparse Byte × State :=
  match selKind v with
  | 0 => s.saveThread (selThread v)
  | 1 => (s.saveCode v, s)
  | 2 => s.saveColumn (selCol v)
  | _ =>
    (match (s.isl (selCol v)).savable with
     | some (i, started) => s.saveInv (selCol v) i started
     | none => ([], s))

/-- The target of a kind 0 issues nothing more while it settles. -/
def State.markSaved (s : State) (t : Nat) (by_ : Option Nat) : State := s.modThr t (fun x => { x with savedBy := by_ })

def execCtxsave (d a : Reg) (s : State) : Out :=
  .next (s.supervisor (fun s => s.ctxChecked d a true (fun g via s =>
    let v := (s.rd d).toNat
    let va := (s.rd a).toNat
    let t := selThread v
    let st := s.saveStatus v
    if st ≠ 0 then (s.wr d (w64 st)).finish
    else if !(s.outstanding s.me).isEmpty then s.parkMe .mem .drain
    else if selKind v = 0 ∧ !s.settled t then (s.markSaved t (some s.me)).parkMe .mem (.settle t)
    else
      let r := s.captureImage v
      let ps := s.pieces (inWindow va) g va 0 (selSize v)
      r.2.launchAccess { bulkAccess s.me ps va (selSize v) (.scatter ps r.1 false (.done [(d, 0)] [])) with via := via })))

/-! ### CTXLOAD -/

/-- Word `i` of the bytes read. -/
def gotWord (got : Sparse Byte) (i : Nat) : W64 := w64 (descWord got i)

/-- Whether an image has its magic and its CRC, and a thread image one of the two states. -/
def imageOk (v : Nat) (got : Sparse Byte) : Bool :=
  let w := gotWord got
  let top := fun (i : Nat) => (w i).toNat / 2 ^ 32
  match selKind v with
  | 0 => top 191 == 0x5A1C0001 && (w 191).toNat % 2 ^ 32 == crcWords w 0 191 && (bits (w 180).toNat 63 60 == 1 || bits (w 180).toNat 63 60 == 4)
  | 1 => top 0 == 0x5A1C0002 && (w 1).toNat % 2 ^ 32 == crc32c ((List.range (4 * selWords v)).map (fun i => sget 0 got (16 + i)))
  | 2 => top 0 == 0x5A1C0003 && (w 7).toNat % 2 ^ 32 == crcWords w 8 10240
  | _ => top 0 == 0x5A1C0004 && (w 7).toNat % 2 ^ 32 == crcWords w 8 520

/-- The invocation that an image describes: graph, first register, number of registers, first port and invoker. -/
def imageInv (w : Nat → W64) : Inv :=
  let v := (w 2).toNat
  { id := 0, thr := thrNo (bits v 12 8) (bits v 5 4) (bits v 3 0), graph := (w 1).toNat % 2 ^ 32, ops := [], port := bits v 26 24, ch := bits v 18 16
    n := bits v 23 20, table := some ((List.range 128).map (fun j => w (8 + j)))
    states := if bit (w 0).toNat 4 then (List.range 128).map (fun n => (n, w (264 + 2 * n), w (265 + 2 * n))) else [] }

/-- Whether the stream of a port was over when the image was made. -/
def portOver (w : Nat → W64) (p : Nat) : Bool := bits (w (136 + 16 * p)).toNat 11 8 == kDONE

/-- Whether the bound registers of a loaded invocation hold OUT or IN with the island and port. -/
def State.regsHeld (s : State) (k : Nat) (ws : List NodeWord) (w : Nat → W64) (v : Inv) : Bool :=
  (blockPorts ws).all (fun p =>
    match v.regOf p.1 with
    | none => true
    | some r =>
      let c := (s.thr v.thr).chan r
      portOver w p.1 || (c.st == (if p.2.1 then .outb else .inb) && c.isl == k && c.port == p.1))

/-- The status of a CTXLOAD of this selector, after the image's own checks; 0 when it may load. -/
def State.loadStatus (s : State) (v : Nat) (w : Nat → W64) : Nat :=
  match selKind v with
  | 0 => if (s.thr (selThread v)).st ≠ .empty then 2 else 0
  | 1 => if s.coreUsed (selCore v) then 2 else 0
  | 2 => if s.colUsed (selCol v) then 2 else if s.colBusy (selCol v) then 4 else 0
  | _ =>
    let i := s.isl (selCol v)
    let r := imageInv w
    (match i.liveBank r.graph with
     | none => 2
     | some b => if !s.regsHeld (selCol v) (i.bank b).nodes w r then 2 else if s.invBusy (selCol v) then 4 else 0)

/-- A restored thread: READY, or TRAPPED with its record in the new core's queue (R447). -/
def State.restoreThread (s : State) (t : Nat) (w : Nat → W64) : State :=
  let s := s.putThr t { loadThread w with readyFrom := s.cycOf t + 1 }
  if bits (w 180).toNat 63 60 = 1 then s.modThr t (fun x => { x with st := s.readySt t })
  else
    let r : TrapRec := { w0 := w64 (bits (w 184).toNat 63 56 * 2 ^ 56 + slotOf t * 2 ^ 52 + quarterOf t * 2 ^ 50 + colOf t * 2 ^ 45 +
                           (w 184).toNat % 2 ^ 45)
                         w1 := w 185, w2 := w 186, w3 := w 187 }
    s.enterRecord (coreOf t) r

/-- The words of a code image written from WBASE on. -/
def State.restoreCode (s : State) (v : Nat) (got : Sparse Byte) : State :=
  let word := fun (i : Nat) => BitVec.ofNat 32 ((List.range 4).foldr (fun j x => (sget 0 got (16 + 4 * i + j)).toNat + 256 * x) 0)
  s.modCore (selCore v) (fun c => { c with
    code := (List.range (selWords v)).foldl (fun m i => sset 0 m (selBase v + i) (word i)) c.code
    codeMarks := (List.range (selWords v)).foldl (fun m i => sset .clean m (selBase v + i) .clean) c.codeMarks })

/-! ### Bindings of a restored column (R444) -/

/-- The two ends of a binding fit: branch `b` of channel `o` of column `c`, and inbound channel `i` of column `d`. -/
def endsFit (c o : Nat) (b : Branch) (d i : Nat) (x : InChan) : Bool :=
  x.bound && x.prod == c && x.out == o && b.col == d && b.inc == i && decide (b.credits + x.number .filled + x.number .claimed = b.w)

/-- The branch of an outbound channel that names an inbound one. -/
def OutChan.branchTo (x : OutChan) (d i : Nat) : Option Nat :=
  if x.bound then (List.range x.branches.length).find? (fun n => match x.branches[n]? with
    | some b => b.col == d && b.inc == i
    | none => false)
  else none

/-- Whether every end that is the second of its binding passes its checks; the columns are as they will be. -/
def State.restoreFits (s : State) (c : Nat) : Bool :=
  (List.range 8).all (fun o =>
    let x := s.out c o
    !x.bound || x.branches.all (fun b =>
      let y := s.inc b.col b.inc
      !y.bound || endsFit c o b b.col b.inc y)) &&
  (List.range 8).all (fun i =>
    let y := s.inc c i
    let x := s.out y.prod y.out
    !y.bound || !x.bound || (match x.branchTo c i with
      | some n => (match x.branches[n]? with
        | some b => endsFit y.prod y.out b c i y
        | none => false)
      | none => false))

/-- The ends of column `c` joined to their counterparts, or half bound. -/
def State.joinEnds (s : State) (c : Nat) : State :=
  let s := (List.range 8).foldl (fun s o =>
    let x := s.out c o
    if !x.bound then s
    else
      let idx := (List.range x.branches.length).zip x.branches
      let s := s.putOut c o { x with half := (idx.filter (fun b => !(s.inc b.2.col b.2.inc).bound)).map (·.1) }
      idx.foldl (fun s b =>
        let y := s.inc b.2.col b.2.inc
        if y.bound then s.putIn b.2.col b.2.inc { y with half := false, branch := b.1, w := b.2.w } else s) s) s
  (List.range 8).foldl (fun s i =>
    let y := s.inc c i
    if !y.bound then s
    else match (s.out y.prod y.out).branchTo c i with
      | some n =>
        let x := s.out y.prod y.out
        let w := match x.branches[n]? with
          | some b => b.w
          | none => 0
        (s.putOut y.prod y.out { x with half := x.half.filter (· != n) }).putIn c i { y with half := false, branch := n, w := w }
      | none => s.putIn c i { y with half := true }) s

/-- The column as its image has it: TSHAPE, counters, banks, mask block and channels; planes EMPTY. Gates and holds stay. -/
def Col.restored (x : Col) (w : Nat → W64) : Col :=
  (List.range 10240).foldl (fun (x : Col) i => x.putImageWord i (w i)) { x.cleared.unboundAll with perf := x.perf, tshape := x.tshape }

/-- A restored column, or none when a check of R444 fails. -/
def State.restoreColumn (s : State) (c : Nat) (w : Nat → W64) : Option State :=
  let s1 := s.putCol c ((s.col c).restored w)
  if s1.restoreFits c then some (s1.joinEnds c) else none

/-- A restored invocation takes the tail of the queue; the check states and landing tokens of its registers come back. -/
def State.restoreInv (s : State) (k : Nat) (w : Nat → W64) : State :=
  let r := { imageInv w with id := s.fresh.1 }
  let s := s.fresh.2
  let s := (List.range 8).foldl (fun s p =>
    match r.regOf p with
    | some n =>
      let g := (w (136 + 16 * p)).toNat
      let cnt := (w (137 + 16 * p)).toNat % 8
      s.modThr r.thr (fun x =>
        let c := x.chan n
        if c.st = .unbound ∨ c.isl ≠ k ∨ c.port ≠ p then x
        else x.putChan n { c with
          inv := r.id
          gram := if c.st = .outb then mkGram (bits g 63 32) (bits g 11 8) (bits g 3 0) else {}
          landing := (List.range cnt).map (fun j => tokOf (w (138 + 16 * p + 2 * j)) (w (139 + 16 * p + 2 * j))) })
    | none => s) s
  s.modIsl k (fun i => { i with queue := i.queue ++ [r] })

/-- CTXLOAD goes on with the image that it has read, once the thread's earlier stores have been performed (R231, R440). -/
def State.contextRead (s : State) (got : Sparse Byte) (d : Reg) (sel : W64) : State :=
  let v := sel.toNat
  let w := gotWord got
  let status := fun (n : Nat) (s : State) => (s.wr d (w64 n)).finish
  if !imageOk v got then status 3 s
  else
    let st := s.loadStatus v w
    if st ≠ 0 then status st s
    else if !(s.outstanding s.me).isEmpty then s.parkMe .mem .drain
    else match selKind v with
      | 0 => status 0 (s.restoreThread (selThread v) w)
      | 1 => status 0 (s.restoreCode v got)
      | 2 => (match s.restoreColumn (selCol v) w with
        | some s1 => status 0 s1
        | none => status 3 s)
      | _ => if (s.isl (selCol v)).queue.length < 16 then status 0 (s.restoreInv (selCol v) w) else s.parkMe .mem .retry

def execCtxload (d a : Reg) (s : State) : Out :=
  .next (s.supervisor (fun s => s.ctxChecked d a false (fun g via s =>
    let v := s.rd d
    let va := (s.rd a).toNat
    let ps := s.pieces (inWindow va) g va 0 (selSize v.toNat)
    s.launchAccess { bulkAccess s.me ps va (selSize v.toNat) (.gather ps [] (.context d v)) with via := via })))

end Sys2Proof.Machine
end

