-- ==== Sys2Proof/Machine/Freeze.lean ====
section
/-! DEFINITION. Freezes, stops, steps and releases of partitions (R425, R427, R430 to R432). -/
namespace Sys2Proof.Machine

/-! ### Triggers -/

/-- A trigger reaches a partition that runs and has none pending. -/
def State.triggerCol (s : State) (c : Nat) (stop byTrap : Bool) : State :=
  s.modCol c (fun x => if x.frozen || x.gateDue.isSome then x else { x with gateDue := some (x.cyc, stop, byTrap) })

def State.triggerIsl (s : State) (k : Nat) : State :=
  s.modIsl k (fun i => if i.frozen || i.gateDue.isSome then i else { i with gateDue := some i.cyc })

def State.trigger (s : State) (cols isls : Nat) (stop : Bool) : State :=
  (maskUnits 10 isls).foldl (fun s k => s.triggerIsl k) ((maskUnits 20 cols).foldl (fun s c => s.triggerCol c stop false) s)

def execFreeze (cols isls : Nat) (s : State) : Out := .next (s.trigger cols isls false)
def execStopTheColumn (cols isls : Nat) (s : State) : Out := .next (s.trigger cols isls true)

/-- The first cycle of a column that does not run. -/
def gateCycle (t : Nat) (stop : Bool) : Nat := if stop then (t + 24 + 15) / 16 * 16 else t + 24

/-- The partitions whose gating is due now. -/
def State.gatesDue (s : State) : List Event :=
  (List.range 20).filterMap (fun c => match (s.col c).gateDue with
    | some (t, stop, _) => if gateCycle t stop ≤ (s.col c).cyc ∧ !(s.col c).frozen then some (.partitionGate (.column c)) else none
    | none => none) ++
  (List.range 10).filterMap (fun k => match (s.isl k).gateDue with
    | some t => if t + 24 ≤ (s.isl k).cyc ∧ !(s.isl k).frozen then some (.partitionGate (.island k)) else none
    | none => none) ++
  (List.range 20).filterMap (fun c => if (s.col c).stepCore.isSome ∧ (s.col c).fcyc.toNat + 16 ≤ (s.col c).cyc then some (.stepEnd c) else none)

/-- A partition is gated, and records where it stopped (R431). -/
def execPartitionGate (p : Partition) (s : State) : Out :=
  .next (match p with
    | .column c =>
      let x := s.col c
      (match x.gateDue with
       | some (t, stop, byTrap) =>
         if x.frozen ∨ x.cyc < gateCycle t stop then s
         else
           let s := s.putCol c { x with
             frozen := true, gatedAt := s.sched.cycle, gateDue := none, stepCore := none, fcyc := w64 x.cyc
             fskid := BitVec.ofNat 5 (bnat stop * 16 + (x.cyc - (t + 24))) }
           if byTrap then s.interrupt 4 else s
       | none => s)
    | .island k =>
      let i := s.isl k
      (match i.gateDue with
       | some t =>
         if i.frozen ∨ i.cyc < t + 24 then s
         else s.putIsl k { i with frozen := true, gatedAt := s.sched.cycle, gateDue := none, ifcyc := w64 i.cyc }
       | none => s))

/-! ### Resuming: what counts the cycles of a partition goes on where it stood -/

/-- Steps of the schedule whose delays are cycles of the column that they are for. Replies from its own memories are under way for at most
twelve. -/
def countsColumn (c gated due : Nat) (e : Event) : Bool :=
  match e with
  | .gangCompare d => d == c
  | .gangStart d _ => d == c
  | .gangComplete d _ => d == c
  | .gangAbort d _ => d == c
  | .memReply t _ => colOf t == c && decide (due ≤ gated + 12)
  | .feWaitResend t => colOf t == c
  | .qwaitLimit t => colOf t == c
  | _ => false

def countsIsland (k : Nat) (e : Event) : Bool :=
  match e with
  | .reconfigurationDone j _ => j == k
  | .islandInstallDone j _ => j == k
  | _ => false

def shiftAgenda (n : Nat) (f : Nat → Event → Bool) (l : List (Nat × Event)) : List (Nat × Event) :=
  l.map (fun e => if f e.1 e.2 then (e.1 + n, e.2) else e)

def shiftAll (n : Nat) (m : Sparse Nat) : Sparse Nat := m.map (fun e => (e.1, e.2 + n))

/-- A part of a move that stands at an owner of the partition, or in its pipeline, keeps the time that it has waited. -/
def State.shiftPiece (s : State) (p : Partition) (gated n : Nat) (x : Piece) : Piece :=
  if (s.owner x.ga).unit = some p ∧ x.due ≤ gated + 2 then { x with due := x.due + n } else x

/-- Accesses that stand at an owner of the partition keep the time that they have waited, and the words of a move that are on their way back
to it from its own memories take as long as before. -/
def State.shiftFlights (s : State) (p : Partition) (gated n : Nat) : State :=
  { s with flights := s.flights.map (fun a =>
      let a := { a with op := a.op.withTodo (a.op.todo.map (s.shiftPiece p gated n)) }
      if a.op.inPieces && a.waiting && a.op.todo.isEmpty then
        (if p = .column (s.source a.agent) ∧ gated < a.due ∧ a.due ≤ gated + 12 then { a with due := a.due + n, back := a.back + n } else a)
      else if (s.owner a.ga).unit = some p ∧ a.due ≤ gated + 1 then { a with due := a.due + n, joined := a.joined.map (· + n) }
      else a) }

/-- The parts of copies and sends that are in the pipeline of a tile of the island stay in it (R301). -/
def State.shiftPipes (s : State) (k gated n : Nat) : State :=
  let at_ := fun (g : Nat) => decide ((s.owner g).unit = some (.island k))
  let f := fun (pipe : Nat) (on : Bool) => if on && decide (gated < pipe) then pipe + n else pipe
  { s with
    cores := s.cores.map (fun q => (q.1, { q.2 with copies := q.2.copies.map (fun (w : CopyCmd) => { w with pipe := f w.pipe (at_ w.src || at_ w.dst) }) }))
    cols := s.cols.map (fun c => (c.1, { c.2 with sendQ := c.2.sendQ.map (fun (i : SendItem) => { i with pipe := f i.pipe (at_ i.src) }) })) }

/-- A column resumes in this cycle. -/
def State.resumeCol (s : State) (c : Nat) : State :=
  let x := s.col c
  let n := s.sched.cycle - x.gatedAt
  let s := s.shiftFlights (.column c) x.gatedAt n
  let s := s.putCol c { x with
    frozen := false, moved := x.moved + n, bankBusy := shiftAll n x.bankBusy, portBusy := shiftAll n x.portBusy
    segUsed := shiftAll n x.segUsed }
  let s := (List.range 4).foldl (fun s q => s.modCore (4 * c + q) (fun k => { k with
    copies := k.copies.map (fun (w : CopyCmd) => { w with since := w.since + n }) })) s
  { s with
    sched := { s.sched with agenda := shiftAgenda n (countsColumn c x.gatedAt) s.sched.agenda }
    pkg := { s.pkg with scan := s.pkg.scan.filter (fun e => decide (e.1 / 2 ^ 22 ≠ c)) }
    eng := { s.eng with bursts := s.eng.bursts.map (fun (b : Burst) => if b.col = c then { b with till := b.till + n } else b) } }

/-- An island resumes in this cycle. -/
def State.resumeIsl (s : State) (k : Nat) : State :=
  let i := s.isl k
  let n := s.sched.cycle - i.gatedAt
  let s := (s.shiftFlights (.island k) i.gatedAt n).shiftPipes k i.gatedAt n
  let s := s.putIsl k { i with
    frozen := false, moved := i.moved + n, tileNext := shiftAll n i.tileNext, tileWrites := i.tileWrites.map (fun w => (w.1, w.2 + n)) }
  { s with
    sched := { s.sched with agenda := shiftAgenda n (fun _ e => countsIsland k e) s.sched.agenda }
    pkg := { s.pkg with scan := s.pkg.scan.filter (fun e => decide (e.1 / 2 ^ 22 ≠ 32 + k)) } }

/-- A core leaves a double trap: the handler thread is killed, and the handler slot starts again when a record is queued (R425). -/
def State.leaveDouble (s : State) (q : Nat) : State :=
  if (s.core q).dbl then
    let h := 16 * q + s.handlerSlot q
    let s := (s.finishKill h).modCore q (fun c => { c with dbl := false })
    if (s.core q).tq.isEmpty then s else s.startThread h (s.hvec q) id
  else s

def execRelease (cols isls : Nat) (s : State) : Out :=
  let s := (maskUnits 20 cols).foldl (fun s c =>
    let s := if (s.col c).frozen then s.resumeCol c else s
    (List.range 4).foldl (fun s q => s.leaveDouble (4 * c + q)) s) s
  .next ((maskUnits 10 isls).foldl (fun s k => if (s.isl k).frozen then s.resumeIsl k else s) s)

/-- A frozen column runs for 16 cycles on one core. -/
def execStep (cols core : Nat) (s : State) : Out :=
  .next ((maskUnits 20 cols).foldl (fun s c =>
    if (s.col c).frozen then (s.resumeCol c).modCol c (fun x => { x with stepCore := some (core % 4) }) else s) s)

/-- The end of a step: the column is gated again, and FCYC has advanced by 16. -/
def execStepEnd (c : Nat) (s : State) : Out :=
  .next (s.modCol c (fun x =>
    if x.stepCore.isSome && !x.frozen && decide (x.fcyc.toNat + 16 ≤ x.cyc) then
      { x with frozen := true, gatedAt := s.sched.cycle, stepCore := none, fcyc := w64 x.cyc, gateDue := none }
    else x))

/-! ### The freeze pin (R432) -/

/-- FRZ_N is sampled low: the device is gated 24 cycles later. -/
def execFreezePinAssert (s : State) : Out :=
  .next { s with sched := { s.sched with pinDue := if s.sched.stopped then none else some (s.sched.cycle + 24) } }

/-- FRZ_N is sampled high: the device resumes. -/
def execFreezePinRelease (s : State) : Out :=
  .next { s with sched := { s.sched with stopped := s.mgmt.off, pinDue := none }, pkg := { s.pkg with pin := false } }

end Sys2Proof.Machine
end

