-- ==== Sys2Proof/Machine/Launch.lean ====
section
/-! DEFINITION. The launch queue and launches (R28, R99 to R102, R337 to R340). -/
namespace Sys2Proof.Machine

/-! ### Entries -/

def State.lqWord (s : State) (e w : Nat) : W64 := sget 0 s.disp.lq (8 * e + w)
def State.putLq (s : State) (e w : Nat) (v : Nat) : State := { s with disp := { s.disp with lq := sset 0 s.disp.lq (8 * e + w) (w64 v) } }

/-- STATE of an entry, with a refusal's code, detail and virtual column. -/
def State.putLqState (s : State) (e st code detail vc : Nat) : State := s.putLq e 5 (vc % 32 * 2 ^ 24 + detail % 256 * 2 ^ 16 + code * 2 ^ 8 + st)

/-- An entry is DONE or REFUSED, which the host learns of (R457). -/
def State.endEntry (s : State) (e st code detail vc : Nat) : State :=
  ((s.putLqState e st code detail vc).putLq e 7 s.time.toNat).interrupt 0

/-! ### Images -/

/-- The bytes of an image that have been read, by place. -/
abbrev Image := Sparse Byte

def imgByte (g : Image) (o : Nat) : Nat := (sget 0 g o).toNat
def imgLe (g : Image) (o n : Nat) : Nat := (upFrom o n).foldr (fun i x => imgByte g i + 256 * x) 0
def imgBytes (g : Image) (o n : Nat) : List Byte := (upFrom o n).map (fun i => sget 0 g i)

/-- ASCII, padded with zero bytes. -/
def asciiPadded (l : List Byte) : Bool := l.all (fun b => decide (b.toNat < 128)) && (l.dropWhile (fun b => b != 0)).all (fun b => b == 0)

/-- The header's own fields (R99). -/
def headerOk (g : Image) : Bool :=
  imgLe g 0 4 == 0x5A711A6E && imgLe g 4 2 == 1 && imgLe g 6 2 == 0 && decide (1 ≤ imgByte g 8 ∧ imgByte g 8 ≤ 20) && imgByte g 9 == 0 &&
    imgLe g 0x14 4 == 0 && asciiPadded (imgBytes g 0x18 24) && imgLe g 0x30 16 == 0 &&
    decide (64 + 32 * imgLe g 10 2 ≤ imgLe g 12 4)

/-- A section of an image (R100). -/
structure Section where
  ty : Nat
  vc : Nat
  core : Nat
  size : Nat
  off : Nat
  load : Nat
deriving DecidableEq, Repr

def sectionAt (g : Image) (j : Nat) : Section :=
  let o := 64 + 32 * j
  { ty := imgByte g o, vc := imgByte g (o + 1), core := imgByte g (o + 2), size := imgLe g (o + 4) 4, off := imgLe g (o + 8) 8
    load := imgLe g (o + 16) 8 }

def sections (g : Image) : List Section := (List.range (imgLe g 10 2)).map (sectionAt g)

def Section.key (x : Section) : Nat := x.ty * 2 ^ 16 + x.vc * 2 ^ 8 + x.core

/-- The table is sorted, and only blocks and data may stand more than once at one place. -/
def sortedSections : List Section → Bool
  | [] => true
  | [_] => true
  | x :: y :: l => (decide (x.key < y.key) || (x.key == y.key && (x.ty == 5 || x.ty == 6))) && sortedSections (y :: l)

def perCore (ty : Nat) : Bool := ty == 1 || ty == 2 || ty == 6 || ty == 7

/-- The five words of entry `j` of a range image. -/
def imgEntry (g : Image) (x : Section) (j : Nat) : List W64 := (List.range 5).map (fun i => w64 (imgLe g (x.off + 40 * j + 8 * i) 8))

def allZero (l : List W64) : Bool := l.all (· == 0)

def State.entryOk (s : State) (l : List W64) : Bool :=
  allZero l || s.wellFormedEntry (l.getD 0 0) (l.getD 1 0) (l.getD 2 0) (l.getD 3 0) (l.getD 4 0)

/-- A binding of a type 0x04 section: the channel, and per branch virtual column, inbound channel and window. -/
def imgBinding (g : Image) (x : Section) (j : Nat) : Nat × List (Nat × Nat × Nat) :=
  let o := x.off + 16 * j
  (imgByte g o, (List.range (imgByte g (o + 1))).map (fun b => (imgByte g (o + 3 + 3 * b), imgByte g (o + 4 + 3 * b), imgByte g (o + 5 + 3 * b))))

def bindingOk (g : Image) (x : Section) (j : Nat) : Bool :=
  let o := x.off + 16 * j
  let n := imgByte g (o + 1)
  decide (imgByte g o < 8 ∧ 1 ≤ n ∧ n ≤ 4) && imgByte g (o + 2) == 0 &&
    (imgBinding g x j).2.all (fun b => decide (b.2.1 < 8 ∧ 1 ≤ b.2.2 ∧ b.2.2 ≤ 64)) && (imgBytes g (o + 3 + 3 * n) (13 - 3 * n)).all (fun b => b == 0)

/-- The content of a section keeps the limits of R101. -/
def State.contentOk (s : State) (g : Image) (x : Section) : Bool :=
  match x.ty with
  | 1 => decide (4 ≤ x.size ∧ x.size ≤ 16384) && x.size % 4 == 0
  | 2 => x.size % 40 == 0 && decide (1 ≤ x.size / 40 ∧ x.size / 40 ≤ 32) && (List.range (x.size / 40)).all (fun j => s.entryOk (imgEntry g x j))
  | 3 => x.size == 128 && (List.range 32).all (fun i =>
      let w := imgLe g (x.off + 4 * i) 4
      decide (w / 2 ^ 28 ≤ 8) && (w &&& 0x080FC000) == 0)
  | 4 => x.size % 16 == 0 && decide (1 ≤ x.size / 16 ∧ x.size / 16 ≤ 8) && (List.range (x.size / 16)).all (bindingOk g x)
  | 5 => decide (32 ≤ x.size) && x.size == 16 * (imgByte g (x.off + 13) + 2)
  | 7 => x.size == 64 && (List.range 16).all (fun i => (imgLe g (x.off + 4 * i) 4 &&& 0x7FFFF000) == 0)
  | _ => true

/-- An entry of the table keeps R100 and R101. -/
def State.sectionOk (s : State) (g : Image) (n total j : Nat) : Bool :=
  let x := sectionAt g j
  let o := 64 + 32 * j
  decide (1 ≤ x.ty ∧ x.ty ≤ 7) && imgByte g (o + 3) == 0 && imgLe g (o + 24) 8 == 0 && decide (x.core ≤ if perCore x.ty then 3 else 0) &&
    x.off % 16 == 0 && decide (64 + 32 * n ≤ x.off ∧ x.off + x.size ≤ total) && (x.ty == 6 || x.load == 0) && s.contentOk g x

/-- The section table of an image. -/
def State.tableOk (s : State) (g : Image) : Bool :=
  let n := imgLe g 10 2
  sortedSections (sections g) && (List.range n).all (s.sectionOk g n (imgLe g 12 4))

/-! ### The checks of a launch, in the order of R340 -/

/-- Byte `n` of the column list. -/
def State.lqColumn (s : State) (e n : Nat) : Nat := bits (s.lqWord e (1 + n / 8)).toNat (8 * (n % 8) + 7) (8 * (n % 8))

/-- The first place at which the column list, or a virtual column that the image names, is wrong. -/
def State.columnsBad (s : State) (e : Nat) (g : Image) : Option Nat :=
  let v := imgByte g 8
  let cols := (List.range v).map (s.lqColumn e)
  let named := (sections g).flatMap (fun x =>
    x.vc :: (if x.ty = 4 then (List.range (x.size / 16)).flatMap (fun j => (imgBinding g x j).2.map (·.1)) else []))
  ((List.range 24).find? (fun n =>
    if n < v then decide (19 < s.lqColumn e n) || (cols.take n).contains (s.lqColumn e n) else s.lqColumn e n != 0xFF)).orElse
    (fun _ => named.find? (fun n => decide (v ≤ n)))

/-- The words of a block. -/
def blockWords (g : Image) (x : Section) : List (BitVec 128) :=
  (List.range (x.size / 16)).map (fun i => BitVec.ofNat 128 (imgLe g (x.off + 16 * i) 16))

/-- A refusal: code, detail and virtual column. -/
structure LaunchRefusal where
  code : Nat
  detail : Nat := 0
  vc : Nat := 0
deriving DecidableEq, Repr

/-- The blocks of the image installed in the islands of their placed columns (R102). -/
def State.launchBlocks (s : State) (e : Nat) (g : Image) : List Section → Except LaunchRefusal State
  | [] => .ok s
  | x :: xs =>
    if x.ty ≠ 5 then s.launchBlocks e g xs
    else
      let k := s.lqColumn e x.vc / 2
      let ws := blockWords g x
      let c := (s.isl k).installCause ws
      match (s.isl k).freeBank with
      | some b => if c = 0 then (s.installNow k b ws).launchBlocks e g xs else .error { code := 5, detail := c, vc := x.vc }
      | none => .error { code := 5, detail := c, vc := x.vc }

/-- The checks of an image that has been read, before anything is written. -/
def State.launchRefused (s : State) (e : Nat) (g : Image) : Option LaunchRefusal :=
  if !s.tableOk g then some { code := 1 }
  else if crc32c (imgBytes g 64 (imgLe g 12 4 - 64)) ≠ imgLe g 16 4 then some { code := 2 }
  else match s.columnsBad e g with
    | some n => some { code := 3, vc := n }
    | none => (match s.launchBlocks e g (sections g) with
      | .error r => some r
      | .ok _ => (((List.range (imgByte g 8)).find? (fun n => s.colUsed (s.lqColumn e n))).map (fun n => { code := 6, vc := n })))

/-! ### Installation (R28, R102) -/

/-- A placed column before its sections are installed. -/
def Col.launched (x : Col) : Col :=
  let z : Col := {}
  { x with tiles := [], tileMarks := [], plane0 := {}, plane1 := {}, mask := [], maskOff := [], maskMarks := [], tshape := z.tshape }

/-- A core of a placed column before its sections are installed: an empty table (R364), CTAG 0, and no code. -/
def State.clearCore (s : State) (q : Nat) : State :=
  let s := (s.clearTable q).modCore q (fun c => { c with code := [], codeMarks := [] })
  (List.range 16).foldl (fun s n => s.modThr (16 * q + n) (fun x => { x with ctag := 0 })) s

def State.installCode (s : State) (q : Nat) (g : Image) (x : Section) : State :=
  s.modCore q (fun c => { c with code := (List.range (x.size / 4)).foldl (fun m i => sset 0 m i (BitVec.ofNat 32 (imgLe g (x.off + 4 * i) 4))) c.code })

/-- A range image: entry j loads table entry j, and the TAG of entry 0 is the CTAG of the core's slots (R355, R357). -/
def State.installRanges (s : State) (q : Nat) (g : Image) (x : Section) : State :=
  let s1 := (List.range (x.size / 40)).foldl (fun (t : State) j =>
    let l := imgEntry g x j
    if allZero l then t else t.putEntry q j (entryOf (l.getD 0 0) (l.getD 1 0) (l.getD 2 0) (l.getD 3 0) (l.getD 4 0))) s
  (List.range 16).foldl (fun t n => t.modThr (16 * q + n) (fun y => { y with ctag := (s1.entry q 0).tag })) s1

def State.installShapes (s : State) (c : Nat) (g : Image) (x : Section) : State :=
  s.modCol c (fun y => { y with tshape := (List.range 32).foldl (fun v i => v.setIfInBounds i (BitVec.ofNat 32 (imgLe g (x.off + 4 * i) 4))) y.tshape })

/-- One section but for bindings, blocks and data. -/
def State.installSection (s : State) (e : Nat) (g : Image) (x : Section) : State :=
  let c := s.lqColumn e x.vc
  match x.ty with
  | 1 => s.installCode (4 * c + x.core) g x
  | 2 => s.installRanges (4 * c + x.core) g x
  | 3 => s.installShapes c g x
  | _ => s

/-- The descriptor of XBIND for a binding of placed columns. -/
def State.bindingDesc (s : State) (e : Nat) (l : List (Nat × Nat × Nat)) : W64 :=
  w64 (((List.range l.length).zip l).foldl (fun v b => v + (s.lqColumn e b.2.1 * 2 ^ 11 + b.2.2.1 * 2 ^ 8 + (b.2.2.2 - 1)) * 2 ^ (16 * b.1)) 0)

/-- The bindings of the image, each as an XBIND (R314); those made before a refusal stay. -/
def State.launchBindings (s : State) (e : Nat) (g : Image) : List (Section × Nat) → State × Option LaunchRefusal
  | [] => (s, none)
  | (x, j) :: rest =>
    let c := s.lqColumn e x.vc
    let b := imgBinding g x j
    let n := b.2.length
    let d := s.bindingDesc e b.2
    if (s.bindRefusal c b.1 n d).isSome ∨ s.bindTaken c b.1 n d then (s, some { code := 7, vc := x.vc })
    else (s.bind c b.1 (branchFields d n)).launchBindings e g rest

/-- The slots that the image names, with their start addresses. -/
def State.launchStarts (s : State) (e : Nat) (g : Image) : List (Nat × Nat) :=
  (sections g).flatMap (fun x =>
    if x.ty ≠ 7 then []
    else (List.range 16).filterMap (fun n =>
      let w := imgLe g (x.off + 4 * n) 4
      if bit w 31 then some (16 * (4 * s.lqColumn e x.vc + x.core) + n, w % 4096) else none))

/-! ### Data sections -/

/-- The data sections of an image. One of size 0 holds nothing to write and is passed over: its address is not translated, so that it
refuses no launch (DESIGN CHOICE, log 60). -/
def State.launchData (s : State) (e : Nat) (g : Image) : List DataSection :=
  (sections g).filterMap (fun x =>
    if x.ty = 6 ∧ x.size ≠ 0 then some { core := 4 * s.lqColumn e x.vc + x.core, va := x.load, bytes := imgBytes g x.off x.size, vc := x.vc } else none)

/-- The translation of a data section through its core's table, with SEG 0. -/
def State.dataGa (s : State) (d : DataSection) : Trans :=
  let n := d.bytes.length
  if d.va + n ≤ 2 ^ 20 then .ok (s.ga 1 (d.core / 4) ((d.core % 4 * 0x100000 + d.va) % 0x400000)) []
  else if d.va < 2 ^ 20 then tfault 0x04 1 0 d.va
  else s.lookup d.core (s.thr (16 * d.core)).ctag d.va n permE

/-- Whether the fetch that a translation asks for would fail (R362). -/
def State.fetchBad (s : State) (tbl i newLo newHi : Nat) : Bool :=
  let e := s.entry tbl i
  let a := e.target newLo
  decide (2 ^ 36 < s.homeOff (gaOwner a) (gaOff a + (newHi - newLo)))

/-- One data section leaves for its owners, as a write with this number; or it waits for a fetch, or refuses the launch. -/
inductive DataStep where
  | sent (seq : Nat) (s : State)
  | waits (s : State)
  | refused

/-- The bytes of a list as a table. -/
def listTable (l : List Byte) : Sparse Byte := ((upFrom 0 l.length).zip l).foldl (fun m p => sset 0 m p.1 p.2) []

def State.dataStep (s : State) (d : DataSection) : DataStep :=
  let n := d.bytes.length
  match s.dataGa d with
  | .ok g via =>
    if (s.mapCheck g n .bulk 0).isSome then .refused
    else
      let ps := s.pieces (inWindow d.va) g d.va 0 n
      .sent s.fresh.1 ((s.fresh.2).present {
        seq := s.fresh.1, agent := .launch, op := .scatter ps (listTable d.bytes) true (.done [] []), ga := g, va := d.va, size := n, via := via })
  | .fault _ => .refused
  | .wait _ _ _ => .waits s
  | .fetch tbl i lo hi a b g =>
    if (s.mapCheck g n .bulk 0).isSome || s.fetchBad tbl i a b then .refused else .waits (s.startFetch tbl i lo hi a b)

/-! ### The steps of an entry -/

/-- The boot ROM's SHAKE256 digest step of a measurement register (R466). -/
def State.measure (s : State) (i : Nat) (digest : List Byte) : State :=
  let m := s.mgmt.meas.toList.getD i 0
  let v := Config.shake256 ((List.range 64).map (fun j => m.extractLsb' (8 * j) 8) ++ digest)
  { s with mgmt := { s.mgmt with meas := s.mgmt.meas.setIfInBounds i v } }

def digestOf (l : List Byte) : List Byte :=
  let d := Config.shake256 l
  (List.range 64).map (fun j => d.extractLsb' (8 * j) 8)

/-- The launch queue takes an entry: not while one is LOADING or the gate is set, and not before READY (R339, R438, R465). -/
def State.launchTakeable (s : State) : Bool :=
  s.pkg.lqhead != s.pkg.lqtail && s.disp.loading.isNone && !s.disp.launchGate && s.pkg.bootstat.getLsbD 7

def execLaunchTakeEntry (s : State) : Out :=
  .next (if !s.launchTakeable then s
    else
      let e := s.pkg.lqhead.toNat
      let s := { s with pkg := { s.pkg with lqhead := s.pkg.lqhead + 1 } }
      if (s.lqWord e 5).toNat % 256 = 1 then
        let s := (s.putLqState e 2 0 0 0).putLq e 6 s.time.toNat
        { s with disp := { s.disp with loading := some e, reading := none, data := none } }.later 1 .launchInstallDone
      else { s with pkg := { s.pkg with lqskip := true, skipNow := true } })

/-- A launch is refused; the image is measured where it has been read. -/
def State.refuseLaunch (s : State) (e : Nat) (digest : List Byte) (r : LaunchRefusal) : State :=
  let s := if digest.isEmpty then s else s.measure 3 digest
  { s with disp := { s.disp with loading := none, reading := none, data := none } }.endEntry e 5 r.code r.detail r.vc

/-- Every named slot starts in this cycle (R28). -/
def State.startLaunch (s : State) (e : Nat) (starts : List (Nat × Nat)) (cols : List Nat) : State :=
  let s := starts.foldl (fun s t => s.startThread t.1 (w64 t.2) id) s
  { s with disp := { s.disp with loading := none, data := none, running := s.disp.running ++ [(e, cols)] } }.putLqState e 3 0 0 0

/-- The image has been read: it is checked and installed, up to its data sections. Of a refusal at codes 1 to 4 it is not measured. -/
def State.installImage (s : State) (e : Nat) (g : Image) : State :=
  let digest := digestOf (imgBytes g 0 (imgLe g 12 4))
  match s.launchRefused e g with
  | some r => s.refuseLaunch e (if r.code < 5 then [] else digest) r
  | none =>
    let secs := sections g
    let cols := (List.range (imgByte g 8)).map (s.lqColumn e)
    let load : LaunchLoad := { todo := s.launchData e g, starts := s.launchStarts e g, cols := cols, digest := digest }
    match s.launchBlocks e g secs with
    | .error r => s.refuseLaunch e digest r
    | .ok s =>
      let s := cols.foldl (fun s c => (List.range 4).foldl (fun s q => s.clearCore (4 * c + q)) (s.modCol c Col.launched)) s
      let s := secs.foldl (fun s x => s.installSection e g x) s
      let b := s.launchBindings e g (secs.flatMap (fun x => if x.ty = 4 then (List.range (x.size / 16)).map (fun j => (x, j)) else []))
      match b.2 with
      | some r => b.1.refuseLaunch e digest r
      | none => { b.1 with disp := { b.1.disp with reading := none, data := some load } }.after 1 .launchInstallDone

/-- The data sections are written one after another, and then the slots start. -/
def State.installData (s : State) (e : Nat) (l : LaunchLoad) : State :=
  if l.flight.any (fun n => (s.flight n).isSome) then s
  else match l.todo with
  | [] => (s.measure 3 l.digest).startLaunch e l.starts l.cols
  | d :: ds => (match s.dataStep d with
    | .sent n s => { s with disp := { s.disp with data := some { l with todo := ds, flight := some n } } }
    | .waits s => s.after 1 .launchInstallDone
    | .refused => s.refuseLaunch e l.digest { code := 8, vc := d.vc })

/-- The read of a part of the image leaves: its header, or the rest of it beside what has been read. -/
def State.readImage (s : State) (g o n : Nat) (got : Image) : State :=
  let ps := s.pieces false (g + o) (g + o) o n
  { (s.fresh.2).present { seq := s.fresh.1, agent := .launch, op := .gather ps got .image, ga := g + o, va := g + o, size := n } with
    disp := { s.disp with reading := some (s.fresh.1, decide (o ≠ 0)) } }

/-- Word 0 of the entry is checked, and the read of the header begins (R340). -/
def State.beginImage (s : State) (e : Nat) : State :=
  let g := (s.lqWord e 0).toNat
  if 2 ^ 52 ≤ g ∨ g % 64 ≠ 0 ∨ 4 < gaSpace g ∨ (s.mapCheck g 64 .bulk 0).isSome then s.refuseLaunch e [] { code := 4 } else s.readImage g 0 64 []

/-- A part of the image has been read: after the header the rest of it is, and then the image is installed. -/
def State.imageRead (s : State) (e : Nat) (got : Image) (bad whole : Bool) : State :=
  let g := (s.lqWord e 0).toNat
  let n := imgLe got 12 4
  if bad then s.refuseLaunch e [] { code := 4 }
  else if whole then s.installImage e got
  else if !headerOk got then s.refuseLaunch e [] { code := 1 }
  else if (s.mapCheck g n .bulk 0).isSome then s.refuseLaunch e [] { code := 4 }
  else if n = 64 then s.installImage e got
  else s.readImage g 64 (n - 64) got

/-- The bytes that a read has brought, and whether words among them were bad, once all are there. -/
def State.readDone (s : State) (n : Nat) : Option (Sparse Byte × Bool) :=
  match s.flight n with
  | some a => (match a.op with
    | .gather [] got _ => if a.waiting ∧ a.due ≤ s.sched.cycle then some (got, a.bad.isSome) else none
    | _ => none)
  | none => none

/-- Whether a read or a write of the launch is over. -/
def State.launchReady (s : State) : Bool :=
  match s.disp.data, s.disp.reading with
  | some l, _ => l.flight.any (fun n => (s.flight n).isNone)
  | none, some (n, _) => (s.readDone n).isSome
  | none, none => false

def execLaunchInstallDone (s : State) : Out :=
  .next (match s.disp.loading, s.disp.data, s.disp.reading with
    | none, _, _ => s
    | some e, some l, _ => s.installData e l
    | some e, none, none => s.beginImage e
    | some e, none, some (n, whole) => (match s.readDone n with
      | some r => (s.dropFlight n).imageRead e r.1 r.2 whole
      | none => s))

/-- RUNNING entries whose columns are EMPTY are DONE (R339): looked at when a cycle has begun. -/
def State.sweepLaunches (s : State) : State :=
  s.disp.running.foldl (fun s r =>
    if r.2.any s.colUsed then s
    else { s with disp := { s.disp with running := s.disp.running.filter (fun x => x.1 != r.1) } }.endEntry r.1 4 0 0 0) s

end Sys2Proof.Machine
end

