-- ==== Sys2Proof/Machine/Host.lean ====
section
/-! DEFINITION. The host port (R452 to R456): accesses through BAR2, refused requests, failures of the host window, and the completion
timeout. -/
namespace Sys2Proof.Machine

/-! ### BAR2 (R453, R454) -/

/-- The global address of a BAR2 offset. -/
def State.bar2Ga (s : State) (off : Nat) : Nat :=
  s.pkg.pkgNo.toNat * 2 ^ 48 + (bits s.pkg.bar2win.toNat 47 30 * 2 ^ 30 + off) % 2 ^ 48

/-- A request of several words leaves for its owners; those after it wait until its words are read or written (R234). -/
def State.hostStart (s : State) (g n : Nat) (op : AccOp) : State :=
  let s1 := (s.fresh.2).present { seq := s.fresh.1, agent := .host, op := op, ga := g, va := 0, size := n }
  { s1 with host := { s1.host with busy := some s.fresh.1 } }

/-- The bytes of registers of space 0x5 that a BAR2 read returns. -/
def State.bar2Bytes (s : State) (g n : Nat) : List Byte :=
  (upFrom g n).map (fun a => (s.shownReg (regOfGa (a / 8 * 8))).extractLsb' (8 * (a % 8)) 8)

/-- The bytes of a register's word that a request reaches, as a mask of its bits. -/
def byteMask (l : List Nat) : Nat := l.foldl (fun m i => m + 0xFF * 2 ^ (8 * i)) 0

/-- The places in word `w` that bytes `[g, g + n)` take. -/
def placesIn (g n w : Nat) : List Nat := (upFrom 0 8).filter (fun i => decide (g ≤ w + i ∧ w + i < g + n))

/-- The RC bits of the registers' bytes that a BAR2 read returns are cleared. -/
def State.bar2Clear (s : State) (g n : Nat) : State :=
  (wordsOf g n).foldl (fun s w => s.clearRead (regOfGa w) (byteMask (placesIn g n w))) s

/-- A BAR2 read: of registers at once, of memory by a read of many words (R454). -/
def execHostBar2Read (off n : Nat) (s : State) : Out :=
  let g := s.bar2Ga off
  .next (if n = 0 ∨ 4096 < n then (s.tell .unsupported).hostError 3
    else s.hostRequest (.hostBar2Read off n) false (fun s =>
      if (s.mapCheck g n .plain 0).isSome then (s.tell .unsupported).hostError 3
      else if gaSpace g = 5 then (s.bar2Clear g n).tell (.bar2Data (s.bar2Bytes g n) false)
      else s.hostStart g n (.gather (s.pieces false g 0 0 n) [] .host)))

/-- The enabled bytes of one register's word. -/
def State.bar2Word (s : State) (w : Nat) (en : List (Nat × Byte)) : State :=
  if en.isEmpty then s
  else s.writeReg (regOfGa w) (w64 (en.foldl (fun v e => v + e.2.toNat * 2 ^ (8 * e.1)) 0)) (byteMask (en.map (·.1)))

/-- The enabled bytes of a write that lie in word `w`. -/
def enabledIn (g : Nat) (data : List (Option Byte)) (w : Nat) : List (Nat × Byte) :=
  (placesIn g data.length w).filterMap (fun i => (data.getD (w + i - g) none).map (fun b => (i, b)))

/-- A BAR2 write of registers, in ascending order. -/
def State.bar2Regs (s : State) (g : Nat) (data : List (Option Byte)) : State :=
  (wordsOf g data.length).foldl (fun s w => s.bar2Word w (enabledIn g data w)) s

/-- A BAR2 write: of registers at once, of memory by a write of many words (R454). -/
def execHostBar2Write (off : Nat) (data : List (Option Byte)) (s : State) : Out :=
  let g := s.bar2Ga off
  let n := data.length
  .next (if n = 0 ∨ 512 < n then s.hostError 2
    else s.hostRequest (.hostBar2Write off data) true (fun s =>
      if (s.mapCheck g n .plain 0).isSome then s.hostError 2
      else
        let s := s.capture 1 off (data.map (·.getD 0))
        if gaSpace g = 5 then s.bar2Regs g data else s.hostStart g n (.hostWrite (s.pieces false g 0 0 n) data)))

/-- A request of a kind that the host port does not support. -/
def execHostUnsupportedRequest (isRead : Bool) (s : State) : Out :=
  .next (if isRead then (s.tell .unsupported).hostError 3 else s.hostError 2)

/-! ### The host window (R199, R455, R456) -/

/-- Whether an access stands at, or is on its way to, the host port. -/
def State.atHost (s : State) (a : Access) : Bool := !a.waiting && s.owner a.ga == .hostPort

/-- A load of the window ends with an error: a read of many words reads no more. -/
def State.failLoad (s : State) (a : Access) (i : TrapInfo) : State :=
  match a.op with
  | .gather _ _ (.engine _) => s.dropFlight a.seq
  | .gather _ _ u => s.moveOver { a with op := a.op.withTodo [], bad := worseTrap u.poisonFirst a.bad (some i) }
  | _ => (s.dropFlight a.seq).answer a false 0 8 (.trap i)

/-- A window load gets no successful completion: its reader meets MEM_UNCORRECTABLE. -/
def execHostWindowTimeout (seq : Nat) (s : State) : Out :=
  .next (match s.flight seq with
    | some a =>
      if s.atHost a && !a.op.isWrite then (s.failLoad a { cause := 0x08, sub := 3, w2 := BitVec.ofNat 64 a.va }).hostError 1 else s
    | none => s)

/-- A posted window store fails: it is gone, or the part of a write of many words that was to be written next. -/
def execHostWindowStoreFail (seq : Nat) (s : State) : Out :=
  .next (match s.flight seq with
    | some a =>
      if s.atHost a && a.op.isWrite then (if a.op.inPieces then s.moveOn a (a.op.todo.drop 1) else s.dropFlight seq).hostError 0 else s
    | none => s)

/-- The completion timeout of window loads, in milliseconds. -/
def execDeviceControl2Write (v : Nat) (s : State) : Out := .next { s with host := { s.host with timeoutMs := v } }

end Sys2Proof.Machine
end

