-- ==== Sys2Proof/Machine/Chain.lean ====
section
/-! DEFINITION. The UCIe links (R459 to R462): requests from other packages, answers to this one's, relaying, link failure, training, and
the synchronisation of time bases. -/
namespace Sys2Proof.Machine

/-! ### Requests of another package -/

/-- The access that a request becomes at its owner; `seq` is its number in the package that sent it. -/
def chainAccess (src seq : Nat) : ChainOp → Option Access
  | .load ga n =>
    some { agent := .chain src, op := if gaSpace ga = 5 then .regLoad 0 else .load .d false 0, ga := ga, va := 0, size := n, pc := seq }
  | .store ga data full =>
    let v := data.foldr (fun b x => b.toNat + 256 * x) 0
    some { agent := .chain src, op := if gaSpace ga = 5 then .regStore (w64 v) else .store .d full v, ga := ga, va := 0, size := data.length, pc := seq }
  | .fe ga n empty => some { agent := .chain src, op := .fe .d empty 0, ga := ga, va := 0, size := n, pc := seq }
  | .amo ga op z x c => some { agent := .chain src, op := .amo op z 0 x c, ga := ga, va := 0, size := amoBytes z, pc := seq }
  | .vamo ga op lt x => some { agent := .chain src, op := .vamo op lt 0 x [], ga := ga, va := 0, size := 32, pc := seq }
  | .bits ga n full => some { agent := .chain src, op := .feBits full n, ga := ga, va := 0, size := 8 * n, pc := seq }
  | .tables _ _ _ _ => none | .answer _ _ => none | .feWait _ => none | .withdraw => none | .withdrawn => none

/-- An invalidation or a window update of chain scope in this package: every table, from the link's station on (R373). -/
def State.chainTables (s : State) (src seq : Nat) (win : Bool) (sel a b : W64) : State :=
  let id := s.fresh.1
  let x : Inval := {
    id := id, thr := none, origin := some (src, seq), sel := sel, fin := if win then 0 else a.toNat, res := win, rmode := win && bit a.toNat 0
    rlo := a.toNat / 256 * 256, rhi := b.toNat, nowait := true, left := List.range 90 }
  (s.fresh.2.addInval x).sendScope x 124

/-! ### Answers -/

/-- The places of the bytes of a piece that lie in the words of a mask. -/
def badPlaces (p : Piece) (mask : Nat) : List Nat :=
  (upFrom 0 p.n).filterMap (fun i => if mask.testBit ((p.ga + i) / 8 - p.ga / 8) then some (p.off + i) else none)

/-- The trap of a failed access: a link that is down (R461), or a bad word, whose place in the access the answer gives. -/
def chainTrap (va bad : Nat) : TrapInfo :=
  if bad % 16 = 4 then { cause := 0x08, sub := 4, w2 := BitVec.ofNat 64 va }
  else { cause := bad % 16, w2 := BitVec.ofNat 64 (va + bad / 16 % 64) }

/-- The register writes that the answer to an access brings. -/
def answerWrites (a : Access) (v : Nat) : Reply :=
  match a.op with
  | .load z signed d => loadWrites z signed d v
  | .fe z _ d => loadWrites z true d v
  | .amo _ z d _ _ => .done [(d, BitVec.ofInt 64 (toSigned (8 * amoBytes z) v))] []
  | .vamo _ _ d _ _ => .done [] [(d, BitVec.ofNat 512 v)]
  | .regLoad d => .done [(d, w64 v)] []
  | _ => .done [] []

/-- An answer to one part of a read of many words: the read goes on with the others. -/
def State.gatherAnswer (s : State) (a : Access) (todo : List Piece) (got : Sparse Byte) (use : GatherUse) (data : List Byte) (bad : Nat) : State :=
  match todo with
  | [] => s
  | p :: ps =>
    let got := ((List.range p.n).zip data).foldl (fun m b => sset 0 m (p.off + b.1) b.2) got
    let use := match use with
      | .engine l => GatherUse.engine (l ++ (if data.isEmpty then upFrom p.off p.n else badPlaces p (bad / 1024)))
      | u => u
    let worst := worseTrap use.poisonFirst a.bad (if bad % 1024 = 0 then none else some (chainTrap p.va bad))
    s.moveOn { a with op := .gather todo got use, bad := worst } ps

/-- A thread that waits in a list of another package is served, and waits for the value (R201, R209). -/
def State.feServed (s : State) (t seq : Nat) : State :=
  s.modThr t (fun x => if x.wait = .feList seq then { x with st := .parked .mem, wait := .reply } else x)

/-- Another package has put a full/empty access into a wait list, or serves it. -/
def State.chainWait (s : State) (seq : Nat) (served : Bool) : State :=
  match s.flight seq with
  | some a => (match a.agent with
    | .thread t =>
      if served then s.feServed t seq
      else s.modThr t (fun x => if x.wait = .reply then { x with st := .parked .fe, wait := .feList seq, parkedAt := s.cycOf t } else x)
    | _ => s)
  | none => s

/-- A request of another package that has not been served leaves its wait list (R220, R221). -/
def State.chainWithdraw (s : State) (src seq : Nat) : State :=
  match s.flights.find? (fun a => a.agent == .chain src && a.pc == seq && (match a.op with
    | .fe _ _ _ => true
    | _ => false)) with
  | some a => (s.dropFlight a.seq).tell (.chain src s.pkg.pkgNo.toNat seq .withdrawn)
  | none => s

/-- The access of a thread has been withdrawn at another package: the thread stands at it, and issues it again. -/
def State.chainWithdrawn (s : State) (seq : Nat) : State :=
  match s.flight seq with
  | some a => (match a.agent with
    | .thread t => if (s.thr t).wait = .feList seq then (s.dropFlight seq).feBack t else s
    | _ => s)
  | none => s

/-- An answer from another package ends an access of this one. -/
def State.chainAnswered (s : State) (a : Access) (data : List Byte) (bad : Nat) : State :=
  let v := data.foldr (fun b x => b.toNat + 256 * x) 0
  match a.op with
  | .gather todo got use => s.gatherAnswer a todo got use data bad
  | .scatter todo _ _ _ => s.moveOn a (todo.drop 1)
  | .hostWrite todo _ => s.moveOn a (todo.drop 1)
  | .store _ _ _ => s.dropFlight a.seq
  | _ =>
    match a.agent with
    | .thread t => ((s.dropFlight a.seq).feServed t a.seq).after 0 (.memReply t (if bad = 0 then answerWrites a v else .trap (chainTrap a.va bad)))
    | _ => (s.dropFlight a.seq).answer a false v (if bad = 0 then 0 else 8) (answerWrites a v)

/-- An answer reaches what it is for: an access, or an invalidation. -/
def State.chainReply (s : State) (src seq : Nat) (data : List Byte) (bad : Nat) : State :=
  match s.flight seq with
  | some a => (match s.owner a.ga with
    | .other p => if p = src ∧ !a.waiting then s.chainAnswered a data bad else s
    | _ => s)
  | none => s.modInval seq (fun x => { x with pkgs := x.pkgs.filter (· != src) })

/-! ### Packets (R460) -/

/-- The access of a packet leaves for its owner. -/
def State.chainStart (s : State) : Option Access → State
  | some a => (s.fresh.2).present { a with seq := s.fresh.1 }
  | none => s

/-- A packet for this package. -/
def State.chainPerform (s : State) (src seq : Nat) (op : ChainOp) : State :=
  match op with
  | .answer data bad => s.chainReply src seq data bad
  | .tables win sel a b => s.chainTables src seq win sel a b
  | .feWait served => s.chainWait seq served
  | .withdraw => s.chainWithdraw src seq
  | .withdrawn => s.chainWithdrawn seq
  | _ => s.chainStart (chainAccess src seq op)

/-- A packet performed, or relayed toward its package; beyond a link that is down it is discarded. -/
def State.chainTake (s : State) (src dst seq : Nat) (op : ChainOp) : State :=
  if dst = s.pkg.pkgNo.toNat then s.chainPerform src seq op
  else if s.linkUp dst then s.tell (.chain dst src seq op)
  else s

/-- The flits that carry a packet, as replay capture records them (R471): the model keeps the packet by the place of its record. -/
def State.captureFlit (s : State) (src dst seq : Nat) (op : ChainOp) : State :=
  let at_ := s.pkg.rcctl.toNat / 2 ^ 32
  let west := decide (src < s.pkg.pkgNo.toNat)
  let s1 := (s.fresh.2).capture (if west then 2 else 3) 0 ((List.range 256).map (Config.flitByte s.fresh.1))
  if s1.pkg.rcctl.toNat / 2 ^ 32 = at_ then s1
  else { s1 with host := { s1.host with flits := (at_, .chainPacket src dst seq op) :: s1.host.flits.filter (fun f => f.1 != at_) } }

/-- A packet that a link brings; in replay mode the links ignore it (R472). An answer that a link which is down gives of itself is no packet. -/
def execChainPacket (src dst seq : Nat) (op : ChainOp) (s : State) : Out :=
  .next (if op = .answer [] 4 then s.chainPerform src seq op
    else if bit s.pkg.rcctl.toNat 2 ∨ ¬(if src < s.pkg.pkgNo.toNat then s.pkg.westUp else s.pkg.eastUp) then s
    else (s.captureFlit src dst seq op).chainTake src dst seq op)

/-! ### Link failure and training (R459, R461) -/

/-- Whether a package lies beyond a link. -/
def State.beyond (s : State) (west : Bool) (p : Nat) : Bool :=
  if west then decide (p < s.pkg.pkgNo.toNat) else decide (s.pkg.pkgNo.toNat < p)

/-- The accesses that a failed link ends. -/
def State.lostFlights (s : State) (west : Bool) : List Access :=
  s.flights.filter (fun a => !a.waiting && (match s.owner a.ga with
    | .other p => s.beyond west p
    | _ => false))

/-- A link goes down, and nothing is awaited from beyond it. -/
def State.dropLink (s : State) (west : Bool) : State :=
  let s := { s with eng := { s.eng with
    invals := s.eng.invals.map (fun (x : Inval) => { x with pkgs := x.pkgs.filter (fun p => !s.beyond west p) }) } }
  if west then { s with pkg := { s.pkg with westUp := false }, host := { s.host with westLost := true, slew := 0 } }
  else { s with pkg := { s.pkg with eastUp := false }, host := { s.host with eastLost := true } }

def execChainLinkDown (west : Bool) (s : State) : Out :=
  .next (((s.lostFlights west).foldl (fun s a => s.chainAnswered a [] 4) (s.dropLink west)).interrupt 6)

/-- A link trains, at x16 or x8; one that went down stays down until a reset. -/
def execUcieLinkRetrain (west : Bool) (width : Nat) (s : State) : Out :=
  .next (if width ≠ 8 ∧ width ≠ 16 then s
    else if west then
      (if s.host.westLost then s else { s with host := { s.host with widthWest := width }, pkg := { s.pkg with westUp := true } })
    else if s.host.eastLost then s
    else { s with host := { s.host with widthEast := width }, pkg := { s.pkg with eastUp := true } })

/-! ### Time bases (R462) -/

/-- Package 0 sends its TIME. -/
def execTimeSyncSend (s : State) : Out := .next (if s.pkg.pkgNo = 0 ∧ s.pkg.eastUp then s.tell (.chainTime s.time.toNat) else s)

/-- Another package passes the value on, and slews toward it. -/
def execTimeSyncReceive (v : Nat) (s : State) : Out :=
  .next (if s.pkg.pkgNo = 0 ∨ s.pkg.westUp = false then s
    else
      let s := { s with host := { s.host with slew := (18 * v : Int) - s.sched.time } }
      if s.pkg.eastUp then s.tell (.chainTime v) else s)

/-- Eighteenths of a nanosecond in a cycle of a clock (R467). -/
def cycleUnits (mhz : Nat) : Nat := 18000 / mhz

/-- The time base in the next cycle: it slews by at most the rate, and never stands still or steps back. -/
def State.advanceTime (s : State) : State :=
  let r : Int := (Config.slewRate % 9 + 1 : Nat)
  let d := clampInt (-r) r s.host.slew
  { s with
    sched := { s.sched with time := (s.sched.time + (cycleUnits s.pkg.mhz : Int) + d).toNat }
    host := { s.host with slew := s.host.slew - d } }

/-- Whether a whole microsecond has begun between two times. -/
def newMicrosecond (a b : Nat) : Bool := a / 18000 != b / 18000

end Sys2Proof.Machine
end

