-- ==== Sys2Proof/Machine/Control.lean ====
section
/-! DEFINITION. Control flow and predicates, majors 0x10 to 0x13 (R119 to R122). -/
namespace Sys2Proof.Machine

/-- R119 -/
def execBra (neg : Bool) (p : PReg) (off : BitVec 21) (s : State) : Out :=
  .next (if s.rdP p != neg then s.branch off id else s.finish)

/-- R120 -/
def execCall (l : Reg) (off : BitVec 21) (s : State) : Out := .next (s.branch off (fun s => s.wr l (s.pc + 1)))

/-- R121 -/
def execLoop (c : Reg) (off : BitVec 21) (s : State) : Out :=
  let t := s.rd c - 1
  .next (if t ≠ 0 then s.branch off (fun s => s.wr c t) else (s.wr c t).finish)

/-- R122: the jump never traps itself. -/
def execJmpr (a : Reg) (s : State) : Out := .next (s.finishAt (s.rd a))

/-- R122: the target is read before the link is written. -/
def execCallr (d a : Reg) (s : State) : Out := .next ((s.wr d (s.pc + 1)).finishAt (s.rd a))

/-! R122 -/
def execPand (d a b : PReg) (s : State) : Out := .next (s.wrP d (s.rdP a && s.rdP b)).finish
def execPor (d a b : PReg) (s : State) : Out := .next (s.wrP d (s.rdP a || s.rdP b)).finish
def execPxor (d a b : PReg) (s : State) : Out := .next (s.wrP d (s.rdP a != s.rdP b)).finish
def execPnot (d a : PReg) (s : State) : Out := .next (s.wrP d (!s.rdP a)).finish
def execPmovFromScalar (d : PReg) (a : Reg) (s : State) : Out := .next (s.wrP d ((s.rd a).getLsbD 0)).finish
def execPmovToScalar (d : Reg) (a : PReg) (s : State) : Out := .next (s.wr d (BitVec.ofNat 64 (bnat (s.rdP a)))).finish

end Sys2Proof.Machine
end

