-- ==== Sys2Proof/Machine/Float.lean ====
section
/-! DEFINITION. Scalar floating point, majors 0x0C to 0x0F (R123 to R127). -/
namespace Sys2Proof.Machine

/-- An FP32 operation on two registers under FPMODE (R123). -/
def State.fpBin (s : State) (d a b : Reg) (f : Nat → Nat → Nat → Nat × FFlags) : State :=
  s.fpResult d (f s.mode (lo32 (s.rd a)) (lo32 (s.rd b)))

/-- A fused form, whose addend is the destination's old value (R125). -/
def State.fpFused (s : State) (d a b : Reg) (negProd negAdd : Bool) : State :=
  s.fpResult d (fmaGen fp32 s.mode negProd negAdd (lo32 (s.rd a)) (lo32 (s.rd b)) (lo32 (s.rd d)))

/-! R124 -/
def execFadd (d a b : Reg) (s : State) : Out := .next (s.fpBin d a b (Sys2Proof.Machine.fadd fp32))
def execFsub (d a b : Reg) (s : State) : Out := .next (s.fpBin d a b (Sys2Proof.Machine.fsub fp32))
def execFmul (d a b : Reg) (s : State) : Out := .next (s.fpBin d a b (Sys2Proof.Machine.fmul fp32))
def execFdiv (d a b : Reg) (s : State) : Out := .next (s.fpBin d a b (Sys2Proof.Machine.fdiv fp32))
def execFsqrt (d a : Reg) (s : State) : Out := .next (s.fpResult d (Sys2Proof.Machine.fsqrt fp32 s.mode (lo32 (s.rd a))))
def execFmin (d a b : Reg) (s : State) : Out := .next (s.fpBin d a b (fun _ => fminmax fp32 false))
def execFmax (d a b : Reg) (s : State) : Out := .next (s.fpBin d a b (fun _ => fminmax fp32 true))

/-! R125 -/
def execFma (d a b : Reg) (s : State) : Out := .next (s.fpFused d a b false false)
def execFms (d a b : Reg) (s : State) : Out := .next (s.fpFused d a b false true)
def execFnma (d a b : Reg) (s : State) : Out := .next (s.fpFused d a b true false)

/-! R126 -/
def execFcmp (p : PReg) (c : FCond) (a b : Reg) (s : State) : Out :=
  let r := fcompare fp32 c (lo32 (s.rd a)) (lo32 (s.rd b))
  .next ((s.raiseFlags r.2).wrP p r.1).finish
def execFclass (d a : Reg) (s : State) : Out := .next (s.una d a (fun x => BitVec.ofNat 64 (fclassBits (lo32 x))))

/-- R127: an integer result is sign-extended, a floating-point one zero-extended. -/
def execFcvt (d a : Reg) (dst src : Fmt) (s : State) : Out :=
  let r := cvtBits dst src s.mode (s.rd a).toNat
  let v := if dst.isInt then BitVec.ofInt 64 (toSigned (intWidth dst) r.1) else BitVec.ofNat 64 r.1
  .next ((s.raiseFlags r.2).wr d v).finish

end Sys2Proof.Machine
end

