-- ==== Sys2Proof/Machine/Power.lean ====
section
/-! DEFINITION. Retention of stacked segments (R244 to R246), the patrol tester (R247 to R249), clock steps, power and cooling
(R467 to R470). -/
namespace Sys2Proof.Machine

/-! ### Retention -/

def Col.retOf (x : Col) (g : Nat) : RetSt := sget .normal x.ret g
def State.putRet (s : State) (c g : Nat) (r : RetSt) : State := s.modCol c (fun x => { x with ret := sset .normal x.ret g r })

/-- Whether a segment has been idle long enough, with retention enabled, and is not held by the tester. -/
def State.retentionDue (s : State) (c g : Nat) : Bool :=
  let x := s.col c
  x.retMask.getLsbD g && x.retOf g == .normal && decide (sget 0 x.segUsed g + 1048576 ≤ s.sched.cycle) && s.eng.patrol.seg != some (.stacked c g)

def execRetentionEnter (c g : Nat) (s : State) : Out :=
  .next (if c < 20 ∧ g < 32 ∧ s.retentionDue c g then s.putRet c g (.entering (s.sched.cycle + s.retCycles) false) else s)

/-- Whether a word lies in a segment, by its number. -/
def State.inSegment (s : State) (c g w : Nat) : Bool :=
  let lo := s.ga 0 c (g * 2 ^ 24) % 2 ^ 48
  decide (lo ≤ 8 * w ∧ 8 * w < lo + 2 ^ 24)

/-- The words of a segment that its re-encoding into BCH reads: a corrected word is clean, and every error is logged (R241, R245). Words
beyond correction keep their marks (log 31). -/
def State.encodeSegment (s : State) (c g : Nat) : State :=
  (s.mem.marks.filter (fun m => s.inSegment c g m.1)).foldl (fun s m =>
    let w := s.pkg.pkgNo.toNat * 2 ^ 48 + 8 * m.1
    match m.2 with
    | .correctable => (s.logError 1 w 8 .host).setMark w .clean
    | .uncorrectable => s.logError 2 w 8 .host
    | .poison => s
    | .clean => s) s

def execRetentionEnterDone (c g : Nat) (s : State) : Out :=
  .next (match (s.col c).retOf g with
    | .entering till exit =>
      if s.sched.cycle < till then s
      else (s.encodeSegment c g).putRet c g (if exit then .leaving (s.sched.cycle + s.retCycles) else .retained)
    | _ => s)

/-- A block that BCH cannot correct is written back as eight poisoned words, with its log record. -/
def State.failBlock (s : State) (b : Nat) : State :=
  (List.range 8).foldl (fun s j => s.setMark (b + 8 * j) .poison) (s.logError 4 b 21 .host)

/-- The blocks of a segment are re-encoded into SECDED: of those with errors, one that BCH corrects is logged, and one that it cannot
correct fails (R240, R245). -/
def State.decodeSegment (s : State) (c g : Nat) : State :=
  let l := s.mem.blocks.filter (fun m => s.inSegment c g (8 * m.1))
  let s1 := l.foldl (fun s m =>
    let b := s.pkg.pkgNo.toNat * 2 ^ 48 + 64 * m.1
    match m.2 with
    | .correctable => s.logError 1 b 21 .host
    | .clean => s
    | .uncorrectable => s.failBlock b
    | .poison => s.failBlock b) s
  { s1 with mem := { s1.mem with blocks := l.foldl (fun m x => sset .clean m x.1 .clean) s1.mem.blocks } }

def execRetentionExitDone (c g : Nat) (s : State) : Out :=
  .next (match (s.col c).retOf g with
    | .leaving till =>
      if s.sched.cycle < till then s
      else
        let s := s.decodeSegment c g
        (s.putRet c g .normal).modCol c (fun x => { x with segUsed := sset 0 x.segUsed g s.sched.cycle })
    | _ => s)

/-- The steps of retention that are due in a column. -/
def State.retentionScan (s : State) (c : Nat) : List Event :=
  (s.col c).ret.filterMap (fun e => match e.2 with
    | .entering till _ => if till ≤ s.sched.cycle then some (.retentionEnterDone c e.1) else none
    | .leaving till => if till ≤ s.sched.cycle then some (.retentionExitDone c e.1) else none
    | .normal => none
    | .retained => none) ++
    (if (s.col c).retMask = 0 then [] else (List.range 32).filterMap (fun g => if s.retentionDue c g then some (.retentionEnter c g) else none))

/-! ### The patrol tester -/

/-- First address, length and chunks of a segment. -/
def State.segRange (s : State) : PatrolSeg → Nat × Nat
  | .stacked c n => (s.ga 0 c (n * 2 ^ 24), 2 ^ 24)
  | .scratch c q => (s.ga 1 c (q * 2 ^ 20), 2 ^ 20)

def segExists : PatrolSeg → Bool
  | .stacked c n => decide (c < 20 ∧ n < 32)
  | .scratch c q => decide (c < 20 ∧ q < 4)

/-- What else a claim asks for: no retention, or a column without threads and bindings, and without copies of its core windows. -/
def State.segIdle (s : State) : PatrolSeg → Bool
  | .stacked c n => (s.col c).retOf n == .normal
  | .scratch c _ => !s.colUsed c && !s.colBusy c && (s.col c).outs.all (fun o => !o.bound) && (s.col c).ins.all (fun i => !i.bound)

/-- Whether a request of the host that waits reaches a run of bytes. -/
def State.heldMeets (s : State) (g n : Nat) : Event → Bool
  | .hostBar2Read off k => meets (s.bar2Ga off) k g n
  | .hostBar2Write off data => meets (s.bar2Ga off) data.length g n
  | _ => false

/-- Whether the tester may claim a segment: no entry translates into it, and no access or command that reaches it waits or is under way. -/
def State.claimable (s : State) (p : PatrolSeg) : Bool :=
  let r := s.segRange p
  s.eng.patrol.enabled && s.eng.patrol.seg.isNone && segExists p && s.segIdle p &&
    !(s.allEntries.any (fun x => meets x.2.2.lo x.2.2.len r.1 r.2)) &&
    !(s.flights.any (fun a => a.ranges.any (fun b => meets b.1 b.2 r.1 r.2))) && !s.regionUsed r.1 r.2 && !s.swapMeets r.1 r.2 &&
    !(s.eng.comps.any (fun c => meets c.src c.len r.1 r.2 || meets c.dst c.len r.1 r.2)) && !(s.host.held.any (s.heldMeets r.1 r.2))

/-- Bytes, full/empty bits and marks of a run of words cleared. -/
def State.zeroFill (s : State) (g n : Nat) : State :=
  let a := g % 2 ^ 48
  { s with mem := { s.mem with
      bytes := s.mem.bytes.filter (fun e => !decide (a ≤ e.1 ∧ e.1 < a + n))
      fe := s.mem.fe.filter (fun e => !decide (a ≤ 8 * e.1 ∧ 8 * e.1 < a + n))
      marks := s.mem.marks.filter (fun e => !decide (a ≤ 8 * e.1 ∧ 8 * e.1 < a + n)) } }

/-- A claim: every chunk is flagged, and so reads as zero and EMPTY. -/
def execPatrolClaim (g : PatrolSeg) (s : State) : Out :=
  .next (if s.claimable g then
    let s := s.zeroFill (s.segRange g).1 (s.segRange g).2
    { s with eng := { s.eng with patrol := { s.eng.patrol with seg := some g, chunk := 0, releasing := false, releaseAt := none } } }
  else s)

/-- A chunk is tested and zero again; its failing words are logged. After the last one the segment is given back. -/
def execPatrolChunkDone (fails : List Nat) (s : State) : Out :=
  .next (match s.eng.patrol.seg with
    | some p =>
      let r := s.segRange p
      let s := (fails.filter (fun w => decide (w * 8 < 65536))).foldl (fun s w =>
        s.logError 5 (r.1 + 65536 * s.eng.patrol.chunk + 8 * w) 8 .host) s
      if (s.eng.patrol.chunk + 1) * 65536 < r.2 then
        { s with eng := { s.eng with patrol := { s.eng.patrol with chunk := s.eng.patrol.chunk + 1 } } }
      else { s with eng := { s.eng with patrol := { s.eng.patrol with seg := none, chunk := 0, releasing := false, releaseAt := none } } }
    | none => s)

/-- A demanded segment is released within 2 µs. -/
def execPatrolRelease (s : State) : Out :=
  .next (let p := s.eng.patrol
    if !p.releasing then s
    else match p.releaseAt with
      | none =>
        let n := s.sched.cycle + 1 + Config.delay s.fresh.1 % (2 * s.pkg.mhz)
        { s.fresh.2 with eng := { s.eng with patrol := { p with releaseAt := some n } } }
      | some n =>
        if s.sched.cycle < n then s
        else { s with eng := { s.eng with patrol := { p with seg := none, chunk := 0, releasing := false, releaseAt := none } } })

/-- The tester's step of a cycle. -/
def State.patrolScan (s : State) : List Event :=
  if s.eng.patrol.releasing then
    (match s.eng.patrol.releaseAt with
     | none => [.patrolRelease]
     | some n => if n ≤ s.sched.cycle then [.patrolRelease] else [])
  else []

/-! ### Thermal records (R470) -/

/-- A thermal record. -/
def State.thermal (s : State) (kind sensor temp : Nat) : State :=
  let p := ringPut s.pkg.thring s.pkg.thptr
  let drop := fun (x : W64) => bits x.toNat 63 48
  let s1 := { s with pkg := { s.pkg with thptr := p.1, thDropNow := s.pkg.thDropNow + (drop p.1 - drop s.pkg.thptr) } }
  match p.2 with
  | none => s1
  | some off =>
    (s1.write4 (s.ga 3 0 off) (kind * 2 ^ 56 + s.clkstat) (sensor % 256 * 2 ^ 16 + temp % 2 ^ 16) 0 s.time.toNat).interrupt 1

/-! ### Clock steps (R467, R468) -/

/-- The next lower and the next higher step. -/
def stepDown (mhz : Nat) : Nat := if mhz = 1800 then 1500 else if mhz = 1500 then 1200 else 900
def stepUp (mhz : Nat) : Nat := if mhz = 900 then 1200 else if mhz = 1200 then 1500 else 1800

def topWorks (s : State) : Bool := s.pkg.loops.getLsbD 1
def bottomWorks (s : State) : Bool := s.pkg.loops.getLsbD 0

/-- The cap of the cooling state. -/
def coolCap (s : State) : Nat := if !bottomWorks s then 150 else if !topWorks s then 180 else 300

/-- The effective cap. -/
def State.setCap (s : State) : State := { s with pkg := { s.pkg with cap := min s.mgmt.mgmtCap (coolCap s) } }

/-- A change to another step is asked for. -/
def State.wantStep (s : State) (mhz : Nat) : State :=
  if mhz = s.pkg.mhz ∨ s.mgmt.pendingMhz.isSome then s else s.after 1 (.clockStepChange mhz)

/-- The power that a window of 1 ms has measured. -/
def execPowerWindow (watts : Nat) (s : State) : Out :=
  .next (if !bottomWorks s then { s with mgmt := { s.mgmt with cleanWindows := 0 } }.wantStep 1200
    else if s.pkg.cap < watts then { s with mgmt := { s.mgmt with cleanWindows := 0 } }.wantStep (stepDown s.pkg.mhz)
    else if 10 * watts < 9 * s.pkg.cap then
      if 9 ≤ s.mgmt.cleanWindows then { s with mgmt := { s.mgmt with cleanWindows := 0 } }.wantStep (stepUp s.pkg.mhz)
      else { s with mgmt := { s.mgmt with cleanWindows := s.mgmt.cleanWindows + 1 } }
    else { s with mgmt := { s.mgmt with cleanWindows := 0 } })

/-- Every column and island is gated at a common cycle whose number is a multiple of 16. -/
def execClockStepChange (mhz : Nat) (s : State) : Out :=
  .next (if !(mhz = 1800 ∨ mhz = 1500 ∨ mhz = 1200 ∨ mhz = 900) ∨ mhz = s.pkg.mhz ∨ s.mgmt.pendingMhz.isSome then s
    else if s.sched.cycle % 16 ≠ 0 ∨ s.sched.pos ≠ 0 then s.post ((s.sched.cycle + 16) / 16 * 16) (.clockStepChange mhz)
    else
      let old := s.pkg.mhz
      let s := { s with pkg := { s.pkg with mhz := mhz } }.thermal 0x14 0 0
      { s with
        pkg := { s.pkg with mhz := old }
        mgmt := { s.mgmt with pendingMhz := some mhz }
        sched := { s.sched with agenda := (s.sched.cycle, .newClockRuns) :: s.sched.agenda } })

/-- The new clock runs 2 µs later; no partition has run a cycle, and TIME has kept running. -/
def execNewClockRuns (s : State) : Out :=
  .next (match s.mgmt.pendingMhz with
    | some mhz =>
      { s with
        pkg := { s.pkg with mhz := mhz }
        mgmt := { s.mgmt with pendingMhz := none }
        sched := { s.sched with time := s.sched.time + 36000 } }
    | none => s)

/-! ### Cooling (R467, R469, R470) -/

/-- A shutdown: its record, and the device gated as the freeze pin gates it; the main domain is off. -/
def State.shutdown (s : State) (sensor temp : Nat) : State :=
  let s := s.thermal 0x16 sensor temp
  { s with mgmt := { s.mgmt with off := true }, sched := { s.sched with pinDue := some (s.sched.cycle + 24) } }

/-- The state of the cooling loops, and what hangs on it. -/
def State.setLoops (s : State) (l : BitVec 2) : State :=
  { s with pkg := { s.pkg with loops := l, vhalf := !l.getLsbD 1 } }.setCap

/-- The bits of the loops with one loop's bit replaced. -/
def loopBits (l : BitVec 2) (top on : Bool) : BitVec 2 :=
  let b : BitVec 2 := if top then 2 else 1
  if on then l ||| b else l &&& ~~~b

def execCoolingLoopLost (top : Bool) (sensor temp : Nat) (s : State) : Out :=
  .next (if !(if top then topWorks s else bottomWorks s) then s
    else
      let s := s.setLoops (loopBits s.pkg.loops top false)
      let s := s.thermal (if top then 0x10 else 0x12) sensor temp
      if s.pkg.loops = 0 then s.shutdown sensor temp
      else if top then s else s.wantStep 1200)

def execCoolingLoopRestored (top : Bool) (sensor temp : Nat) (s : State) : Out :=
  .next (if (if top then topWorks s else bottomWorks s) || s.mgmt.off then s
    else (s.setLoops (loopBits s.pkg.loops top true)).thermal (if top then 0x11 else 0x13) sensor temp)

/-- A junction above 100 °C is recorded; above 110 °C the device shuts down. -/
def execJunctionHot (sensor temp : Nat) (s : State) : Out :=
  .next (if s.mgmt.off ∨ temp ≤ 1600 then s
    else if 1760 < temp then s.shutdown sensor temp
    else s.thermal 0x15 sensor temp)

end Sys2Proof.Machine
end

