-- ==== Sys2Proof/Machine/Manage.lean ====
section
/-! DEFINITION. The management side-band (R463, R464), repairs (R250, R251), resets and bring-up (R465), measurements (R466), and replay
(R472). -/
namespace Sys2Proof.Machine

/-! ### Answers of the side-band -/

/-- PLDM completion codes: success, and invalid data, and a command refused, and not ready (R463). Log 28. -/
def pldmOk : Nat := 0
def pldmRefused : Nat := 1
def pldmInvalid : Nat := 2
def pldmNotReady : Nat := 4

/-- A command that needs the main domain. -/
def State.manage (s : State) (go : State → State) : State := if s.mgmt.off then s.tell (.mgmt pldmNotReady []) else go s

/-- A command carried out. -/
def State.managed (s : State) : State := s.tell (.mgmt pldmOk [])

/-- A command whose data are out of range. -/
def State.manageIf (s : State) (ok : Bool) (go : State → State) : State :=
  s.manage (fun s => if ok then (go s).managed else s.tell (.mgmt pldmInvalid []))

/-! ### Commands (R464) -/

def execSetret (c : Nat) (mask : BitVec 32) (s : State) : Out :=
  .next (s.manageIf (decide (c < 20)) (fun s => s.modCol c (fun x => { x with retMask := mask })))

/-- The tester is enabled, or disabled: a claimed segment is then released. -/
def execPatrol (en : Bool) (s : State) : Out :=
  .next (s.manageIf true (fun s => { s with eng := { s.eng with patrol := { s.eng.patrol with
    enabled := en, releasing := s.eng.patrol.releasing || (!en && s.eng.patrol.seg.isSome) } } }))

/-- First byte of a bank of 8 MiB: banks of a column, and rows of a bank, follow one another by address (DESIGN CHOICE, log 61). -/
def State.bankGa (s : State) (c bank : Nat) : Nat := s.ga 0 c (bank * 2 ^ 23)

/-- Whether a repair takes effect at once: the tester holds the bank, or no range table maps it. -/
def State.repairNow (s : State) (c bank : Nat) : Bool :=
  s.eng.patrol.seg == some (.stacked c (bank / 2)) || !(s.allEntries.any (fun x => meets x.2.2.lo x.2.2.len (s.bankGa c bank) (2 ^ 23)))

/-- The spare rows of a bank that repairs use. -/
def State.sparesUsed (s : State) (c bank : Nat) : Nat :=
  ((s.eng.repairs ++ s.eng.repairsLater).filter (fun r => r.1 == c && r.2.1 == bank)).length

/-- A spare row for row `row` of a bank of column `c`; its contents read as zero when it takes effect at once. -/
def execRepair (c bank row : Nat) (s : State) : Out :=
  .next (s.manage (fun s =>
    if ¬(c < 20 ∧ bank < 64 ∧ row < 8192) then s.tell (.mgmt pldmInvalid [])
    else if 16 ≤ s.sparesUsed c bank then s.tell (.mgmt pldmRefused [])
    else if s.repairNow c bank then
      { (s.zeroFill (s.bankGa c bank + 1024 * row) 1024) with eng := { s.eng with repairs := s.eng.repairs ++ [(c, bank, row)] } }.managed
    else { s with eng := { s.eng with repairsLater := s.eng.repairsLater ++ [(c, bank, row)] } }.managed))

def execScanmap (off n : Nat) (s : State) : Out := .next (s.tell (.mgmt pldmOk ((upFrom off n).map Config.scanMap)))

def execPowercap (watts : Nat) (s : State) : Out :=
  .next (s.manageIf (decide (100 ≤ watts ∧ watts ≤ 300)) (fun s => { s with mgmt := { s.mgmt with mgmtCap := watts } }.setCap))

/-- PKG and COUNT, before READY. -/
def execChainnum (pkg count : BitVec 4) (s : State) : Out :=
  .next (s.manageIf (!s.pkg.bootstat.getLsbD 7 && decide (pkg.toNat ≤ count.toNat)) (fun s =>
    { s with pkg := { s.pkg with pkgNo := pkg, pkgCount := count } }))

/-- RCCTL.REPLAY; a replay starts with the first record. -/
def execReplay (on : Bool) (s : State) : Out :=
  .next (s.manageIf true (fun s => { s with
    pkg := { s.pkg with rcctl := w64 (s.pkg.rcctl.toNat / 8 * 8 + bnat on * 4 + s.pkg.rcctl.toNat % 4) }
    host := { s.host with replayAt := if on && !bit s.pkg.rcctl.toNat 2 then 0 else s.host.replayAt } }))

/-! ### Measurements (R466) -/

def measBytes (s : State) : List Byte := s.mgmt.meas.toList.flatMap (fun m => (List.range 64).map (fun j => m.extractLsb' (8 * j) 8))

def execAttest (nonce : List Byte) (s : State) : Out :=
  .next (s.manage (fun s =>
    if nonce.length = 32 then
      s.tell (.mgmt pldmOk (measBytes s ++ nonce ++ Config.signature (measBytes s ++ nonce) ++ Config.certificate))
    else s.tell (.mgmt pldmInvalid [])))

def execExtend (i : Nat) (digest : List Byte) (s : State) : Out :=
  .next (s.manageIf (decide (4 ≤ i ∧ i ≤ 7 ∧ digest.length = 64)) (fun s => s.measure i digest))

def execFirmwareUpdate (image : List Byte) (s : State) : Out :=
  .next { s with mgmt := { s.mgmt with firmware := some image } }.managed

/-- A reading of a sensor of temperature, power or loop state. -/
def execPlatformMonitoring (sensor : Nat) (s : State) : Out :=
  .next ({ s with sched := { s.sched with free := s.sched.free + 1 } }.tell
    (.mgmt pldmOk (bytesOf (Config.sensor sensor s.sched.free).toNat 4)))

def execPldmBase (cmd : Nat) (s : State) : Out := .next (s.tell (.mgmt pldmOk (Config.pldmBase cmd)))

/-! ### Resets (R29, R465) -/

/-- Inputs that are still to come, with their cycles counted from the reset. -/
def laterInputs (now : Nat) (l : List (Nat × Event)) : List (Nat × Event) := l.map (fun e => (e.1 - now, e.2))

/-- What every reset leaves: the state of R29, with every register at its reset value (R9, R468). What lies outside the main domain stays:
host memory, what has been sent, the repairs, and a firmware image that waits. -/
def State.cleared (s : State) (warm : Bool) : State :=
  let r := State.reset
  { r with
    sched := { r.sched with seq := s.sched.seq, free := s.sched.free, inputs := laterInputs s.sched.cycle s.sched.inputs }
    mem := { r.mem with host := s.mem.host }
    host := { r.host with out := s.host.out }
    eng := { r.eng with repairs := s.eng.repairs ++ s.eng.repairsLater }
    mgmt := { r.mgmt with firmware := s.mgmt.firmware, warm := warm } }

/-- A column after a warm reset: the data and marks of its memories, and the mask block at its reset values (R146). -/
def Col.warm (x : Col) : Col :=
  { tiles := x.tiles, tileMarks := x.tileMarks, acc := x.acc, accMarks := x.accMarks
    plane0 := { x.plane0 with st := .empty }, plane1 := { x.plane1 with st := .empty } }

/-- The memories after a warm reset: every full/empty bit EMPTY, and the blocks in retention that BCH cannot correct as poisoned words. -/
def Memory.warm (m : Memory) : Memory :=
  let bad := m.blocks.filter (fun b => b.2 != .correctable)
  { m with
    fe := [], blocks := []
    marks := bad.foldl (fun l b => (List.range 8).foldl (fun l j => sset .clean l (8 * b.1 + j) .poison) l) m.marks }

/-- A warm reset also keeps the data and error marks of every memory, and the measurements. -/
def State.warmReset (s : State) : State :=
  let r := s.cleared true
  State.noteStart { r with
    cols := (s.cols.map (fun e => (e.1, e.2.warm))).foldl (fun m e => sset {} m e.1 e.2) []
    cores := (s.cores.map (fun e => (e.1, ({ code := e.2.code, codeMarks := e.2.codeMarks } : Core)))).foldl (fun m e => sset {} m e.1 e.2) []
    mem := s.mem.warm
    mgmt := { r.mgmt with meas := s.mgmt.meas }
    host := { r.host with flits := s.host.flits } }

/-- The cold reset of the main domain, which also turns it on again after a shutdown. -/
def execReset (s : State) : Out := .next (((s.tell (.mgmt pldmOk [])).cleared false).noteStart)

def execConventionalReset (s : State) : Out := .next (if s.mgmt.off then s else s.warmReset)
def execHotReset (s : State) : Out := .next (if s.mgmt.off then s else s.warmReset)
def execFunctionLevelReset (s : State) : Out := .next (if s.mgmt.off then s else s.warmReset)

/-! ### Bring-up (R465, R466) -/

def State.stage (s : State) : Nat := s.pkg.bootstat.toNat % 16

/-- BOOTSTAT. -/
def State.putBoot (s : State) (err stage : Nat) : State :=
  { s with pkg := { s.pkg with bootstat := w64 (err * 256 + bnat (err == 0 && stage == 5) * 128 + stage) } }

/-- The error that the verification of a firmware image finds. -/
def firmwareError (s : State) : Nat :=
  match s.mgmt.firmware with
  | some i => if !Config.firmwareSigned i then 1 else if Config.firmwareOld i then 2 else 0
  | none => 0

/-- What a stage does: measurements of ROM and firmware, zero-fill, repairs. -/
def State.runStage (s : State) (n : Nat) : State :=
  if n = 1 then (s.measure 0 (digestOf (Config.bootObject 0))).measure 1 (digestOf (s.mgmt.firmware.getD (Config.bootObject 1)))
  else if n = 2 then { s with mem := { bytes := [], host := s.mem.host, fe := [], marks := [] } }
  else if n = 3 then s.measure 2 (digestOf (Config.bootObject 2 ++ s.eng.repairs.flatMap (fun r => bytesOf (r.1 * 2 ^ 24 + r.2.1 * 2 ^ 16 + r.2.2) 4)))
  else s

/-- The stage after the present one; a warm reset has the third one first. -/
def State.nextStage (s : State) : Nat := if s.stage = 0 ∧ s.mgmt.warm then 3 else s.stage + 1

/-- BOOTSTAT advances to the next stage, or stops at the present one with an error. -/
def execBootStage (err : BitVec 8) (s : State) : Out :=
  .next (if 5 ≤ s.stage ∨ bits s.pkg.bootstat.toNat 15 8 ≠ 0 then s
    else if err ≠ 0 then s.putBoot err.toNat s.stage
    else
      let n := s.nextStage
      if n = 1 ∧ firmwareError s ≠ 0 then s.putBoot (firmwareError s) 1
      else ((s.runStage n).putBoot 0 n))

/-! ### Replay (R472) -/

/-- Byte offset of the next record of a replay in GDDR-7. -/
def State.replayGa (s : State) : Nat := s.ga 3 0 (bits s.pkg.rcbase.toNat 35 20 * 2 ^ 20 + 16 * s.host.replayAt)

/-- Whether the next record of the buffer is due. -/
def State.replayDue (s : State) : Bool :=
  bit s.pkg.rcctl.toNat 2 && s.host.busy.isNone && decide (s.host.replayAt < s.pkg.rcctl.toNat / 2 ^ 32) && decide (s.readN s.replayGa 8 ≤ s.time.toNat)

/-- A record applied as the write or packet that it holds. -/
def State.applyRecord (s : State) : State :=
  let g := s.replayGa
  let w1 := s.readN (g + 8) 8
  let n := 16 * (bits w1 59 54 + 1)
  let off := w1 % 2 ^ 52
  let src := bits w1 63 60
  if src = 0 then
    (if off % 8 = 0 then s.bar0Write off 8 (w64 (s.readN (g + 16) 8)) else s.bar0Write off 4 (w64 (s.readN (g + 16) 4)))
  else if src = 1 then
    (let data := (upFrom 0 n).map (fun i => some (s.byte (g + 16 + i)))
     let a := s.bar2Ga off
     if (s.mapCheck a n .plain 0).isSome then s
     else if gaSpace a = 5 then s.bar2Regs a data
     else s.hostStart a n (.hostWrite (s.pieces false a 0 0 n) data))
  else match s.host.flits.find? (fun f => f.1 == s.host.replayAt) with
    | some (_, .chainPacket src dst seq op) => s.chainTake src dst seq op
    | _ => s

def execReplayApply (s : State) : Out :=
  .next (if !s.replayDue then s
    else
      let n := bits (s.readN (s.replayGa + 8) 8) 59 54 + 1
      let at_ := s.host.replayAt
      let s := s.applyRecord
      { s with host := { s.host with replayAt := at_ + 1 + n } }.after 0 .replayApply)

end Sys2Proof.Machine
end

