-- ==== Sys2Proof/Machine/Scalar.lean ====
section
/-! DEFINITION. The scalar integer instructions, majors 0x00 to 0x0B (R111 to R118), and the words that are no instruction (R83). -/
namespace Sys2Proof.Machine

/-- ILL always raises ILLEGAL_INSTR (R83). -/
def execIll (s : State) : Out := .next (s.trapMe (cause 0x01))

/-- Every word that is no instruction raises ILLEGAL_INSTR (R83). -/
def execReservedEncoding (_w : Word) (s : State) : Out := .next (s.trapMe (cause 0x01))

/-! R111 -/
def execAdd (d a b : Reg) (s : State) : Out := .next (s.bin d a b (· + ·))
def execSub (d a b : Reg) (s : State) : Out := .next (s.bin d a b (· - ·))
def execAnd (d a b : Reg) (s : State) : Out := .next (s.bin d a b (· &&& ·))
def execOr (d a b : Reg) (s : State) : Out := .next (s.bin d a b (· ||| ·))
def execXor (d a b : Reg) (s : State) : Out := .next (s.bin d a b (· ^^^ ·))
def execAndn (d a b : Reg) (s : State) : Out := .next (s.bin d a b (fun x y => x &&& ~~~y))
def execMin (d a b : Reg) (s : State) : Out := .next (s.bin d a b (fun x y => if y.slt x then y else x))
def execMax (d a b : Reg) (s : State) : Out := .next (s.bin d a b (fun x y => if x.slt y then y else x))
def execMinu (d a b : Reg) (s : State) : Out := .next (s.bin d a b (fun x y => if y.ult x then y else x))
def execMaxu (d a b : Reg) (s : State) : Out := .next (s.bin d a b (fun x y => if x.ult y then y else x))

/-! R112 -/
def execShl (d a b : Reg) (s : State) : Out := .next (s.bin d a b (fun x y => x <<< shiftAmt y))
def execShr (d a b : Reg) (s : State) : Out := .next (s.bin d a b (fun x y => x >>> shiftAmt y))
def execSra (d a b : Reg) (s : State) : Out := .next (s.bin d a b (fun x y => x.sshiftRight (shiftAmt y)))
def execRol (d a b : Reg) (s : State) : Out := .next (s.bin d a b (fun x y => x.rotateLeft (shiftAmt y)))
def execRor (d a b : Reg) (s : State) : Out := .next (s.bin d a b (fun x y => x.rotateRight (shiftAmt y)))

/-! R113 -/
def execMul (d a b : Reg) (s : State) : Out := .next (s.bin d a b (· * ·))
def execMulh (d a b : Reg) (s : State) : Out := .next (s.bin d a b mulHigh)
def execMulhu (d a b : Reg) (s : State) : Out := .next (s.bin d a b mulHighU)
def execDiv (d a b : Reg) (s : State) : Out := .next (s.bin d a b divSigned)
def execDivu (d a b : Reg) (s : State) : Out := .next (s.bin d a b divUnsigned)
def execRem (d a b : Reg) (s : State) : Out := .next (s.bin d a b remSigned)
def execRemu (d a b : Reg) (s : State) : Out := .next (s.bin d a b remUnsigned)

/-! R114 -/
def execClz (d a : Reg) (s : State) : Out := .next (s.una d a (fun x => BitVec.ofNat 64 (countLeading x)))
def execCtz (d a : Reg) (s : State) : Out := .next (s.una d a (fun x => BitVec.ofNat 64 (countTrailing x)))
def execPopc (d a : Reg) (s : State) : Out := .next (s.una d a (fun x => BitVec.ofNat 64 (countOnes x)))
def execBext (d a b : Reg) (s : State) : Out := .next (s.bin d a b (fun x y => (x >>> fieldPos y) &&& fieldMask y))
/-- BINS reads its destination too. -/
def execBins (d a b : Reg) (s : State) : Out :=
  .next (s.bin d a b (fun x y =>
    let m := fieldMask y <<< fieldPos y
    (s.rd d &&& ~~~m) ||| ((x <<< fieldPos y) &&& m)))
def execSxtB (d a : Reg) (s : State) : Out := .next (s.una d a (fun x => (x.setWidth 8).signExtend 64))
def execSxtH (d a : Reg) (s : State) : Out := .next (s.una d a (fun x => (x.setWidth 16).signExtend 64))
def execSxtW (d a : Reg) (s : State) : Out := .next (s.una d a (fun x => (x.setWidth 32).signExtend 64))

/-! R115 -/
def execCmp (p : PReg) (c : Cond) (a b : Reg) (s : State) : Out :=
  .next (s.wrP p (condHolds c (s.rd a) (s.rd b))).finish
def execCmpi (p : PReg) (c : Cond) (a : Reg) (imm : BitVec 13) (s : State) : Out :=
  .next (s.wrP p (condHolds c (s.rd a) (cmpImm c imm))).finish

/-! R116 -/
def execAddi (d a : Reg) (imm : BitVec 16) (s : State) : Out := .next (s.una d a (fun x => x + imm.signExtend 64))
def execAndi (d a : Reg) (imm : BitVec 16) (s : State) : Out := .next (s.una d a (fun x => x &&& imm.zeroExtend 64))
def execOri (d a : Reg) (imm : BitVec 16) (s : State) : Out := .next (s.una d a (fun x => x ||| imm.zeroExtend 64))
def execXori (d a : Reg) (imm : BitVec 16) (s : State) : Out := .next (s.una d a (fun x => x ^^^ imm.zeroExtend 64))

/-! R117 -/
def execShli (d a : Reg) (k : BitVec 6) (s : State) : Out := .next (s.una d a (fun x => x <<< k.toNat))
def execShri (d a : Reg) (k : BitVec 6) (s : State) : Out := .next (s.una d a (fun x => x >>> k.toNat))
def execSrai (d a : Reg) (k : BitVec 6) (s : State) : Out := .next (s.una d a (fun x => x.sshiftRight k.toNat))

/-- R118 -/
def execMovk (d : Reg) (k : BitVec 2) (imm : BitVec 16) (s : State) : Out := .next (s.una d d (fun x => movkVal x k imm))

end Sys2Proof.Machine
end

