-- ==== Sys2Proof/Machine/Vector.lean ====
section
/-! DEFINITION. Vector instructions, majors 0x14 to 0x1D (R128 to R139). -/
namespace Sys2Proof.Machine

/-! ### R130 -/

/-- A lane-wise operation on signed readings, kept in the lane. -/
def State.vecSigned (s : State) (t : LaneType) (g : PReg) (d a b : VReg) (f : Nat → Int → Int → Nat) : State :=
  s.vecInt t g d a b (fun w x y => f w (sgn w x) (sgn w y))

def execVadd (lt : LaneType) (g : PReg) (d a b : VReg) (s : State) : Out := .next (s.vecInt lt g d a b (fun _ x y => x + y))
def execVsub (lt : LaneType) (g : PReg) (d a b : VReg) (s : State) : Out :=
  .next (s.vecInt lt g d a b (fun w x y => x + (2 ^ w - y)))
def execVmul (lt : LaneType) (g : PReg) (d a b : VReg) (s : State) : Out := .next (s.vecInt lt g d a b (fun _ x y => x * y))
def execVmin (lt : LaneType) (g : PReg) (d a b : VReg) (s : State) : Out :=
  .next (s.vecSigned lt g d a b (fun w x y => wrapTo w (if y < x then y else x)))
def execVmax (lt : LaneType) (g : PReg) (d a b : VReg) (s : State) : Out :=
  .next (s.vecSigned lt g d a b (fun w x y => wrapTo w (if x < y then y else x)))
def execVabs (lt : LaneType) (g : PReg) (d a : VReg) (s : State) : Out :=
  .next (s.vecSigned lt g d a a (fun w x _ => satLane w (x.natAbs : Int)))
def execVadds (lt : LaneType) (g : PReg) (d a b : VReg) (s : State) : Out :=
  .next (s.vecSigned lt g d a b (fun w x y => satLane w (x + y)))
def execVsubs (lt : LaneType) (g : PReg) (d a b : VReg) (s : State) : Out :=
  .next (s.vecSigned lt g d a b (fun w x y => satLane w (x - y)))

/-! ### R131, R132 -/

/-- A lane-wise floating-point operation in the lane format, rounded by FPMODE. -/
def State.vecFpBin (s : State) (t : LaneType) (g : PReg) (d a b : VReg) (f : FpFmt → Nat → Nat → Nat → Nat × FFlags) : State :=
  s.vecFp t g d (fun i => f (laneFp t) s.mode (lane t.width (s.rdV a) i) (lane t.width (s.rdV b) i))

/-- A lane-wise fused form, whose addend is the old lane of the destination. -/
def State.vecFused (s : State) (t : LaneType) (g : PReg) (d a b : VReg) (negAdd : Bool) : State :=
  s.vecFp t g d (fun i => fmaGen (laneFp t) s.mode false negAdd (lane t.width (s.rdV a) i) (lane t.width (s.rdV b) i)
    (lane t.width (s.rdV d) i))

def execVfadd (lt : LaneType) (g : PReg) (d a b : VReg) (s : State) : Out :=
  .next (s.vecFpBin lt g d a b Sys2Proof.Machine.fadd)
def execVfsub (lt : LaneType) (g : PReg) (d a b : VReg) (s : State) : Out :=
  .next (s.vecFpBin lt g d a b Sys2Proof.Machine.fsub)
def execVfmul (lt : LaneType) (g : PReg) (d a b : VReg) (s : State) : Out :=
  .next (s.vecFpBin lt g d a b Sys2Proof.Machine.fmul)
def execVfdiv (lt : LaneType) (g : PReg) (d a b : VReg) (s : State) : Out :=
  .next (s.vecFpBin lt g d a b Sys2Proof.Machine.fdiv)
def execVfmin (lt : LaneType) (g : PReg) (d a b : VReg) (s : State) : Out :=
  .next (s.vecFpBin lt g d a b (fun f _ => fminmax f false))
def execVfmax (lt : LaneType) (g : PReg) (d a b : VReg) (s : State) : Out :=
  .next (s.vecFpBin lt g d a b (fun f _ => fminmax f true))
def execVfma (lt : LaneType) (g : PReg) (d a b : VReg) (s : State) : Out := .next (s.vecFused lt g d a b false)
def execVfms (lt : LaneType) (g : PReg) (d a b : VReg) (s : State) : Out := .next (s.vecFused lt g d a b true)

/-! ### R133 -/

/-- Lane results brought to one predicate; with the guard clear, `any` of no lanes is false and `all` true. -/
def reduceCond (guard all : Bool) (l : List Bool) : Bool :=
  if guard then (if all then l.all id else l.any id) else all

def execVcmp (lt : LaneType) (g : PReg) (p : PReg) (all : Bool) (c : Cond) (a b : VReg) (s : State) : Out :=
  let r := (List.range lt.lanes).map (fun i => laneCond c lt.width (lane lt.width (s.rdV a) i) (lane lt.width (s.rdV b) i))
  .next (s.wrP p (reduceCond (s.rdP g) all r)).finish

/-- VFCMP raises the flags of its lanes when the guard is set. -/
def execVfcmp (lt : LaneType) (g : PReg) (p : PReg) (all : Bool) (c : FCond) (a b : VReg) (s : State) : Out :=
  let r := (List.range lt.lanes).map (fun i => fcompare (laneFp lt) c (lane lt.width (s.rdV a) i) (lane lt.width (s.rdV b) i))
  let fl : FFlags := if s.rdP g then r.foldl (fun x y => x ||| y.2) 0 else 0
  .next (((s.count s.me 10).raiseFlags fl).wrP p (reduceCond (s.rdP g) all (r.map (·.1)))).finish

/-! ### R134 -/

def execVand (g : PReg) (d a b : VReg) (s : State) : Out := .next (s.vecResult g d (s.rdV a &&& s.rdV b))
def execVor (g : PReg) (d a b : VReg) (s : State) : Out := .next (s.vecResult g d (s.rdV a ||| s.rdV b))
def execVxor (g : PReg) (d a b : VReg) (s : State) : Out := .next (s.vecResult g d (s.rdV a ^^^ s.rdV b))
def execVshl (lt : LaneType) (g : PReg) (d a b : VReg) (s : State) : Out :=
  .next (s.vecInt lt g d a b (fun w x y => x <<< (y % w)))
def execVshr (lt : LaneType) (g : PReg) (d a b : VReg) (s : State) : Out :=
  .next (s.vecInt lt g d a b (fun w x y => x >>> (y % w)))
def execVsra (lt : LaneType) (g : PReg) (d a b : VReg) (s : State) : Out :=
  .next (s.vecInt lt g d a b (fun w x y => wrapTo w (sgn w x / (2 : Int) ^ (y % w))))
def execVsel (g : PReg) (d a b : VReg) (s : State) : Out :=
  .next (s.vecResult g d ((s.rdV d &&& s.rdV a) ||| (~~~(s.rdV d) &&& s.rdV b)))

/-! ### R135 -/

def execVbcast (lt : LaneType) (g : PReg) (d a : VReg) (l : BitVec 6) (s : State) : Out :=
  .next (s.vecResult g d (buildLanes lt (fun _ => lane lt.width (s.rdV a) l.toNat)))
def execVperm (lt : LaneType) (g : PReg) (d a b : VReg) (s : State) : Out :=
  .next (s.vecResult g d (buildLanes lt (fun i => lane lt.width (s.rdV a) (lane lt.width (s.rdV b) i % lt.lanes))))
def execVshuf (lt : LaneType) (g : PReg) (d a b : VReg) (k : ShufKind) (s : State) : Out :=
  .next (s.vecResult g d (buildLanes lt (fun i => catLane lt (s.rdV a) (s.rdV b) (shufSource k lt.lanes i))))
def execVslide (lt : LaneType) (g : PReg) (d a b : VReg) (k : BitVec 6) (s : State) : Out :=
  .next (s.vecResult g d (buildLanes lt (fun i => catLane lt (s.rdV a) (s.rdV b) (i + k.toNat))))

/-! ### R136, R70, R71 -/

/-- The identity of a floating-point reduction. -/
def redIdentity (f : FpFmt) (op : RedOp) : Nat :=
  match op with
  | .sum => f.zero true
  | .max => f.inf true
  | .min => f.inf false

/-- One node of the floating-point tree, flags gathered. -/
def redStep (f : FpFmt) (mode : Nat) (op : RedOp) (x y : Nat × FFlags) : Nat × FFlags :=
  let r := match op with
    | .sum => Sys2Proof.Machine.fadd f mode x.1 y.1
    | .max => fminmax f true x.1 y.1
    | .min => fminmax f false x.1 y.1
  (r.1, x.2 ||| y.2 ||| r.2)

/-- The exact integer reduction over the lanes, each `none` when inactive. -/
def redInt (w : Nat) (op : RedOp) (active : Bool) (l : List Nat) : Int :=
  let lo : Int := -(2 : Int) ^ (w - 1)
  let hi : Int := (2 : Int) ^ (w - 1) - 1
  let xs := if active then l.map (sgn w) else []
  match op with
  | .sum => xs.foldl (· + ·) 0
  | .max => xs.foldl max lo
  | .min => xs.foldl min hi

def execVred (lt : LaneType) (g : PReg) (d a : VReg) (op : RedOp) (s : State) : Out :=
  let l := lanes lt (s.rdV a)
  if lt.isInt then .next (s.wrV d (BitVec.ofNat 512 (wrapTo 64 (redInt lt.width op (s.rdP g) l)))).finish
  else
    let f := laneFp lt
    let xs := l.map (fun x => (if s.rdP g then x else redIdentity f op, (0 : FFlags)))
    let r := (treeReduce (redStep f s.mode op) 6 xs).headD (0, 0)
    .next (((s.count s.me 10).raiseFlags r.2).wrV d (BitVec.ofNat 512 r.1)).finish

/-! ### R137 -/

def execVcvt (src dst : LaneType) (g : PReg) (d a : VReg) (part : BitVec 2) (s : State) : Out :=
  let ns := src.lanes
  let nd := dst.lanes
  let cv := fun (i : Nat) => cvtBits (laneFmt dst) (laneFmt src) s.mode (lane src.width (s.rdV a) i)
  let first := if nd < ns then part.toNat * nd else 0
  let r := (upFrom first (min ns nd)).map cv
  let at_ := if ns < nd then part.toNat * ns else 0
  let v := buildLanes dst (fun j =>
    if at_ ≤ j ∧ j < at_ + min ns nd then (r.getD (j - at_) (0, 0)).1 else lane dst.width (s.rdV d) j)
  let s := if src.isFloat || dst.isFloat then s.count s.me 10 else s
  .next (if s.rdP g then (s.raiseFlags (flagUnion r)).wrV d v else s).finish

/-! ### R138 -/

def execVlog2 (g : PReg) (d a : VReg) (s : State) : Out := .next (s.vecFp .f32 g d (fun i => flog2 (lane 32 (s.rdV a) i)))
def execVexp2 (g : PReg) (d a : VReg) (s : State) : Out := .next (s.vecFp .f32 g d (fun i => fexp2 (lane 32 (s.rdV a) i)))

/-! ### R139 -/

def execVmovs (lt : LaneType) (g : PReg) (d : VReg) (r : Reg) (s : State) : Out :=
  .next (s.vecResult g d (buildLanes lt (fun _ => (s.rd r).toNat)))
def execVins (lt : LaneType) (g : PReg) (d : VReg) (r : Reg) (l : BitVec 6) (s : State) : Out :=
  .next (s.vecResult g d (putLane lt (s.rdV d) l.toNat (s.rd r).toNat))
def execVext (lt : LaneType) (g : PReg) (r : Reg) (d : VReg) (l : BitVec 6) (s : State) : Out :=
  let x := lane lt.width (s.rdV d) l.toNat
  let v := if lt.isInt then BitVec.ofInt 64 (sgn lt.width x) else BitVec.ofNat 64 x
  .next (if s.rdP g then s.wr r v else s).finish
def execVmovp (g : PReg) (d a : VReg) (s : State) : Out := .next (s.vecResult g d (s.rdV a))

end Sys2Proof.Machine
end

