-- ==== Sys2Proof/Machine/Issue.lean ====
section
/-! DEFINITION. Issue: which slot issues in a cycle (R36), and the checks that every issue makes (R85, R184) before the decoded
instruction takes its effect. -/
namespace Sys2Proof.Machine

/-- Whether the slot of core `q` that owns the present cycle issues in it: its thread is READY and skips nothing, the column runs,
and the core is not stopped (R36, R347, R425, R427, R430). -/
def State.issues (s : State) (q : Nat) : Bool :=
  let c := s.col (q / 4)
  let x := s.thr (16 * q + c.cyc % 16)
  !c.frozen && !(s.core q).dbl && (c.stepCore.getD (q % 4) == q % 4) && x.st == .ready && decide (x.readyFrom ≤ c.cyc) &&
    x.skips == 0 && x.savedBy.isNone

/-- The first core at position `p` or after that issues in this cycle, of `n` cores to look at. -/
def State.nextIssuer (s : State) (p : Nat) : Nat → Option Nat
  | 0 => none
  | n + 1 => if s.issues p then some p else s.nextIssuer (p + 1) n

/-- The number of the code stores' words among a column's words without a global address. -/
def codeItem (q : Nat) : Nat := 0x50000 + 4096 * (q % 4)

/-- A code word with an error is fetched by slot `n`: the error is logged, and a corrected word is clean (R241, R252). -/
def State.noteCode (s : State) (q n pc : Nat) : State :=
  let c := s.core q
  if sget .clean c.codeMarks pc = Mark.clean then s
  else
    let r := s.noteItem (q / 4) (codeItem q) c.codeMarks (.thread (16 * q + n)) [pc]
    r.1.modCore q (fun c => { c with codeMarks := r.2 })

/-- The state in which core `q` issues the word at the PC of the slot that owns the cycle. An issue is movement (R408), and from it on a new
context tag applies (R367). -/
def State.setIssuing (s : State) (q : Nat) : State :=
  let n := (s.col (q / 4)).cyc % 16
  let w := s.wordAt (16 * q + n)
  let s := (s.noteCode q n (s.thr (16 * q + n)).pc.toNat).modCol (q / 4) (fun c => { c with moved := s.sched.cycle + 1 })
  let s := s.modThr (16 * q + n) (fun x => { x with ctagWas := none })
  { s with
    cur := { col := q / 4, core := q % 4, slot := n, word := w }
    sched := { s.sched with pos := q + 1 } }

/-- An armed code breakpoint that watches the slot and holds the PC (R178, R184). -/
def bpHits (bp : W64) (slot : Nat) (pc : W64) : Bool :=
  bit bp.toNat 63 && bit bp.toNat (32 + slot) && decide (bp.toNat % 4096 = pc.toNat)

/-- The issue checks of R85, in its order; the first that holds. After a park (RANGE) the breakpoints are not repeated (R359). -/
def State.issueCheck (s : State) : Option TrapInfo :=
  let x := s.thr s.me
  let c := s.core s.myCore
  let m := sget .clean c.codeMarks x.pc.toNat
  if c.ssmask.getLsbD s.cur.slot && !(x.resume || x.retrans) then some { cause := 0x11, sub := 2 }
  else
    match (upFrom 0 4).find? (fun n => !(x.resume || x.retrans) && bpHits (c.bps.getD n 0) s.cur.slot x.pc) with
    | some n => some { cause := 0x11, sub := 1, detail := n }
    | none =>
      if 4096 ≤ x.pc.toNat then some (cause 0x01)
      else if m = .uncorrectable ∨ m = .poison then some { cause := 0x08, w2 := x.pc }
      else none

/-- The trap that an issue takes in place of the word: an asynchronous one that is due (R40, R268, R395), or one of R85. -/
def State.issueTrap (s : State) : Option TrapInfo := (s.thr s.me).asyncTraps.head?.orElse (fun _ => s.issueCheck)

/-- The instruction that issues. -/
def State.issueInstr (s : State) : Instr := decodeOrReserved s.cur.word

/-- The state in which the first asynchronous trap that is due has been taken up. -/
def State.takeAsync (s : State) : State := s.modThr s.me (fun x => { x with asyncTraps := x.asyncTraps.drop 1 })

end Sys2Proof.Machine
end

