-- ==== Sys2Proof/Machine/Wake.lean ====
section
/-! DEFINITION. The end of a park (R38, R41, R341): when a parked thread's condition holds, and what then becomes of its instruction. -/
namespace Sys2Proof.Machine

/-- The move of many words that a thread waits for, once all its bytes are there, or its last acknowledgement. -/
def State.moveEnded (s : State) (t : Nat) : Option Access :=
  s.flights.find? (fun a => a.agent == .thread t && a.op.inPieces && a.op.todo.isEmpty && a.waiting && decide (a.due ≤ s.sched.cycle))

/-- Whether the condition of a channel register's wait holds. -/
def Chan.moved (c : Chan) : Bool :=
  match c.st with
  | .unbound => true
  | .outb => !c.full
  | .inb => c.full

/-- Whether the next slot of an inbound channel is FILLED. -/
def State.recvFilled (s : State) (c i : Nat) : Bool :=
  let y := s.inc c i
  (y.slot y.recv).st == .filled && !y.half

/-- Whether the condition of a parked thread holds. A slot that has been FILLED in this cycle is seen in the next (R318). Waits that other steps end do not end here. -/
def State.waitOver (s : State) (t : Nat) : Bool :=
  let x := s.thr t
  let c := s.col (colOf t)
  match x.wait with
  | .reply => (s.moveEnded t).isSome
  | .accept n => !x.deferred.isEmpty || (match s.flight n with
    | some a => s.gateOpen t a
    | none => false)
  | .fence sc => !x.deferred.isEmpty || s.drained t sc
  | .drain => (s.outstanding t).isEmpty
  | .retry => true
  | .chan n => (x.chan (BitVec.ofNat 3 n)).moved
  | .barrier n ph => c.barPassed n ph
  | .event n v => decide (v ≤ (c.evCount n).toNat)
  | .tile n writes => !(s.writeHeld (colOf t) n || (writes && s.readHeld (colOf t) n))
  | .window o => (s.out (colOf t) o).mayGo
  | .transit i => !(s.inc (colOf t) i).bound || (s.recvFilled (colOf t) i && s.before.recvFilled (colOf t) i)
  | .hold => c.hold.isNone
  | .bankBusy a => !c.bankInFlight a
  | .masked => !c.maskInFlight
  | .entry tbl i _ _ => (s.entry tbl i).st != .fetching && (s.entry tbl i).st != .moving
  | .entryFree tbl i => (s.entry tbl i).st == .valid || (s.entry tbl i).st == .invalid
  | .patrol g => s.eng.patrol.seg != some g
  | .queue n =>
    if n = 0 then decide ((s.core (coreOf t)).copies.length < 1024)
    else if n = 1 then decide (s.eng.swaps.length < 64)
    else decide (s.eng.comps.length < 8)
  | .inval id => (match s.inval id with
    | some y => s.invalDone y
    | none => true)
  | .invalidations n => decide ((s.invalsOf t).length ≤ n)
  | .exit => (s.outstanding t).isEmpty
  | .dying => (s.outstanding t).isEmpty
  | .settle u => s.settled u || (s.thr u).st == .empty || s.canWithdraw u
  | .none => false | .quiet _ _ _ _ => false | .gang => false | .record => false | .feList _ => false | .trapRoom => false

/-- A descriptor has been read: of a copy first its four words, then all of them. -/
def State.described (s : State) (kind : Nat) (whole : Bool) (got : Sparse Byte) : State :=
  if kind = 0 then
    (match s.issueInstr with
     | .cpy a => s.copyRead a got whole
     | _ => s)
  else if kind = 1 then (s.swapDescribed got).keepWords got true
  else (s.compDescribed got).keepWords got true

/-- An instruction goes on with the words that it has read. -/
def State.continueRead (s : State) (got : Sparse Byte) (use : GatherUse) : State :=
  match use with
  | .context d sel => s.contextRead got d sel
  | .install d k whole => (match s.issueInstr with
    | .ginstall _ a _ => s.installRead got a d k whole
    | _ => s)
  | .descriptor kind whole => s.described kind whole got
  | .tile _ => s
  | .engine _ => s
  | .plane _ _ _ => s
  | .host => s
  | .image => s

/-- A move is over: a bad word traps its thread; a tile is filled; other bytes go on to their instruction; a write is acknowledged, and the
bank that a MOUT empties is EMPTY (R157, R163). -/
def State.endMove (s : State) (t : Nat) (a : Access) : State :=
  let s := s.dropFlight a.seq
  match a.op, a.bad with
  | .gather _ _ _, some i => s.trap t i
  | .gather _ got (.tile k), none => (s.fillTile (colOf t) k got a.size).completeParked t id
  | .gather _ got use, none => (s.asIssuing t).continueRead got use
  | .scatter _ _ _ r, _ => (match a.clear with
    | some k => s.emptyBank (colOf t) k
    | none => s).applyReply t r
  | _, _ => s

/-- A wait for acceptance is over: the access is accepted, or a deferred fault is reported first, by the instruction issued again. -/
def State.endAccept (s : State) (t n : Nat) : State :=
  if (s.thr t).deferred.isEmpty then
    match s.flight n with
    | some a => s.acceptWaiting t a
    | none => s
  else (s.dropFlight n).wake t

/-- A counter or barrier whose condition came to hold in the cycle of the issue: the instruction has not parked (R406). -/
def State.endLevel (s : State) (t : Nat) : State :=
  if (s.thr t).parkedAt = s.cycOf t then s.completeParked t (fun x => x) else s.wake t

/-- The end of a park. -/
def State.endPark (s : State) (t : Nat) : State :=
  match (s.thr t).wait with
  | .reply => (match s.moveEnded t with
    | some a => s.endMove t a
    | none => s)
  | .accept n => s.endAccept t n
  | .fence _ => if (s.thr t).deferred.isEmpty then s.completeParked t (fun x => x) else s.wake t
  | .barrier _ _ => s.endLevel t
  | .event _ _ => s.endLevel t
  | .inval id => s.finishInval t id
  | .exit => s.finishExit t
  | .dying => s.finishKill t
  | .settle u => if s.settled u || (s.thr u).st == .empty then s.wake t else s.withdrawFe u
  | _ => s.wake t

def execParkWake (t : Nat) (s : State) : Out := .next (if s.waitOver t then s.endPark t else s)

/-- The threads whose parks end now. -/
def State.wakeScan (s : State) : List Event :=
  s.threads.filterMap (fun e => if e.2.wait != .none && !(s.col (colOf e.1)).frozen && s.waitOver e.1 then some (.parkWake e.1) else none)

end Sys2Proof.Machine
end

