-- ==== Sys2Proof/Machine/Dispatch.lean ====
section
/-! DEFINITION. The meaning of every instruction and every step of the machine, one arm each. -/
namespace Sys2Proof.Machine

def exec (i : Instr) (s : State) : Host.Outcome State Fault Refusal :=
  match i with
  | .ill => Sys2Proof.Machine.execIll s
  | .reservedEncoding w => Sys2Proof.Machine.execReservedEncoding w s
  | .add d a b => Sys2Proof.Machine.execAdd d a b s
  | .sub d a b => Sys2Proof.Machine.execSub d a b s
  | .and d a b => Sys2Proof.Machine.execAnd d a b s
  | .or d a b => Sys2Proof.Machine.execOr d a b s
  | .xor d a b => Sys2Proof.Machine.execXor d a b s
  | .andn d a b => Sys2Proof.Machine.execAndn d a b s
  | .min d a b => Sys2Proof.Machine.execMin d a b s
  | .max d a b => Sys2Proof.Machine.execMax d a b s
  | .minu d a b => Sys2Proof.Machine.execMinu d a b s
  | .maxu d a b => Sys2Proof.Machine.execMaxu d a b s
  | .shl d a b => Sys2Proof.Machine.execShl d a b s
  | .shr d a b => Sys2Proof.Machine.execShr d a b s
  | .sra d a b => Sys2Proof.Machine.execSra d a b s
  | .rol d a b => Sys2Proof.Machine.execRol d a b s
  | .ror d a b => Sys2Proof.Machine.execRor d a b s
  | .mul d a b => Sys2Proof.Machine.execMul d a b s
  | .mulh d a b => Sys2Proof.Machine.execMulh d a b s
  | .mulhu d a b => Sys2Proof.Machine.execMulhu d a b s
  | .div d a b => Sys2Proof.Machine.execDiv d a b s
  | .divu d a b => Sys2Proof.Machine.execDivu d a b s
  | .rem d a b => Sys2Proof.Machine.execRem d a b s
  | .remu d a b => Sys2Proof.Machine.execRemu d a b s
  | .clz d a => Sys2Proof.Machine.execClz d a s
  | .ctz d a => Sys2Proof.Machine.execCtz d a s
  | .popc d a => Sys2Proof.Machine.execPopc d a s
  | .bext d a b => Sys2Proof.Machine.execBext d a b s
  | .bins d a b => Sys2Proof.Machine.execBins d a b s
  | .sxtB d a => Sys2Proof.Machine.execSxtB d a s
  | .sxtH d a => Sys2Proof.Machine.execSxtH d a s
  | .sxtW d a => Sys2Proof.Machine.execSxtW d a s
  | .cmp p c a b => Sys2Proof.Machine.execCmp p c a b s
  | .addi d a imm => Sys2Proof.Machine.execAddi d a imm s
  | .andi d a imm => Sys2Proof.Machine.execAndi d a imm s
  | .ori d a imm => Sys2Proof.Machine.execOri d a imm s
  | .xori d a imm => Sys2Proof.Machine.execXori d a imm s
  | .shli d a k => Sys2Proof.Machine.execShli d a k s
  | .shri d a k => Sys2Proof.Machine.execShri d a k s
  | .srai d a k => Sys2Proof.Machine.execSrai d a k s
  | .cmpi p c a imm => Sys2Proof.Machine.execCmpi p c a imm s
  | .movk d k imm => Sys2Proof.Machine.execMovk d k imm s
  | .fadd d a b => Sys2Proof.Machine.execFadd d a b s
  | .fsub d a b => Sys2Proof.Machine.execFsub d a b s
  | .fmul d a b => Sys2Proof.Machine.execFmul d a b s
  | .fdiv d a b => Sys2Proof.Machine.execFdiv d a b s
  | .fsqrt d a => Sys2Proof.Machine.execFsqrt d a s
  | .fmin d a b => Sys2Proof.Machine.execFmin d a b s
  | .fmax d a b => Sys2Proof.Machine.execFmax d a b s
  | .fma d a b => Sys2Proof.Machine.execFma d a b s
  | .fms d a b => Sys2Proof.Machine.execFms d a b s
  | .fnma d a b => Sys2Proof.Machine.execFnma d a b s
  | .fcmp p c a b => Sys2Proof.Machine.execFcmp p c a b s
  | .fclass d a => Sys2Proof.Machine.execFclass d a s
  | .fcvt d a dst src => Sys2Proof.Machine.execFcvt d a dst src s
  | .bra neg p off => Sys2Proof.Machine.execBra neg p off s
  | .call l off => Sys2Proof.Machine.execCall l off s
  | .loop c off => Sys2Proof.Machine.execLoop c off s
  | .jmpr a => Sys2Proof.Machine.execJmpr a s
  | .callr d a => Sys2Proof.Machine.execCallr d a s
  | .pand d a b => Sys2Proof.Machine.execPand d a b s
  | .por d a b => Sys2Proof.Machine.execPor d a b s
  | .pxor d a b => Sys2Proof.Machine.execPxor d a b s
  | .pnot d a => Sys2Proof.Machine.execPnot d a s
  | .pmovFromScalar d a => Sys2Proof.Machine.execPmovFromScalar d a s
  | .pmovToScalar d a => Sys2Proof.Machine.execPmovToScalar d a s
  | .vadd lt g d a b => Sys2Proof.Machine.execVadd lt g d a b s
  | .vsub lt g d a b => Sys2Proof.Machine.execVsub lt g d a b s
  | .vmul lt g d a b => Sys2Proof.Machine.execVmul lt g d a b s
  | .vmin lt g d a b => Sys2Proof.Machine.execVmin lt g d a b s
  | .vmax lt g d a b => Sys2Proof.Machine.execVmax lt g d a b s
  | .vabs lt g d a => Sys2Proof.Machine.execVabs lt g d a s
  | .vadds lt g d a b => Sys2Proof.Machine.execVadds lt g d a b s
  | .vsubs lt g d a b => Sys2Proof.Machine.execVsubs lt g d a b s
  | .vfadd lt g d a b => Sys2Proof.Machine.execVfadd lt g d a b s
  | .vfsub lt g d a b => Sys2Proof.Machine.execVfsub lt g d a b s
  | .vfmul lt g d a b => Sys2Proof.Machine.execVfmul lt g d a b s
  | .vfdiv lt g d a b => Sys2Proof.Machine.execVfdiv lt g d a b s
  | .vfmin lt g d a b => Sys2Proof.Machine.execVfmin lt g d a b s
  | .vfmax lt g d a b => Sys2Proof.Machine.execVfmax lt g d a b s
  | .vfma lt g d a b => Sys2Proof.Machine.execVfma lt g d a b s
  | .vfms lt g d a b => Sys2Proof.Machine.execVfms lt g d a b s
  | .vcmp lt g p all c a b => Sys2Proof.Machine.execVcmp lt g p all c a b s
  | .vfcmp lt g p all c a b => Sys2Proof.Machine.execVfcmp lt g p all c a b s
  | .vand g d a b => Sys2Proof.Machine.execVand g d a b s
  | .vor g d a b => Sys2Proof.Machine.execVor g d a b s
  | .vxor g d a b => Sys2Proof.Machine.execVxor g d a b s
  | .vshl lt g d a b => Sys2Proof.Machine.execVshl lt g d a b s
  | .vshr lt g d a b => Sys2Proof.Machine.execVshr lt g d a b s
  | .vsra lt g d a b => Sys2Proof.Machine.execVsra lt g d a b s
  | .vsel g d a b => Sys2Proof.Machine.execVsel g d a b s
  | .vbcast lt g d a l => Sys2Proof.Machine.execVbcast lt g d a l s
  | .vperm lt g d a b => Sys2Proof.Machine.execVperm lt g d a b s
  | .vshuf lt g d a b k => Sys2Proof.Machine.execVshuf lt g d a b k s
  | .vslide lt g d a b k => Sys2Proof.Machine.execVslide lt g d a b k s
  | .vred lt g d a op => Sys2Proof.Machine.execVred lt g d a op s
  | .vcvt src dst g d a part => Sys2Proof.Machine.execVcvt src dst g d a part s
  | .vlog2 g d a => Sys2Proof.Machine.execVlog2 g d a s
  | .vexp2 g d a => Sys2Proof.Machine.execVexp2 g d a s
  | .vmovs lt g d sc => Sys2Proof.Machine.execVmovs lt g d sc s
  | .vins lt g d sc l => Sys2Proof.Machine.execVins lt g d sc l s
  | .vext lt g sc d l => Sys2Proof.Machine.execVext lt g sc d l s
  | .vmovp g d a => Sys2Proof.Machine.execVmovp g d a s
  | .tld t a b => Sys2Proof.Machine.execTld t a b s
  | .tst t a b => Sys2Proof.Machine.execTst t a b s
  | .tvget d t b => Sys2Proof.Machine.execTvget d t b s
  | .tvset t a b => Sys2Proof.Machine.execTvset t a b s
  | .mwld f pl a sc tag => Sys2Proof.Machine.execMwld f pl a sc tag s
  | .mwlt f pl t sc tag => Sys2Proof.Machine.execMwlt f pl t sc tag s
  | .mgo f acc t pl tag add mask r => Sys2Proof.Machine.execMgo f acc t pl tag add mask r s
  | .moutTile f t acc emp => Sys2Proof.Machine.execMoutTile f t acc emp s
  | .moutMemory f d acc r emp => Sys2Proof.Machine.execMoutMemory f d acc r emp s
  | .mgos f acc c m pl tag add => Sys2Proof.Machine.execMgos f acc c m pl tag add s
  | .mmask t => Sys2Proof.Machine.execMmask t s
  | .mhold => Sys2Proof.Machine.execMhold s
  | .myield => Sys2Proof.Machine.execMyield s
  | .mclr acc => Sys2Proof.Machine.execMclr acc s
  | .crrd d n => Sys2Proof.Machine.execCrrd d n s
  | .crwr a n => Sys2Proof.Machine.execCrwr a n s
  | .crset a n => Sys2Proof.Machine.execCrset a n s
  | .crclr a n => Sys2Proof.Machine.execCrclr a n s
  | .trap imm => Sys2Proof.Machine.execTrap imm s
  | .bkpt imm => Sys2Proof.Machine.execBkpt imm s
  | .tqpop d nw => Sys2Proof.Machine.execTqpop d nw s
  | .tresume d a act => Sys2Proof.Machine.execTresume d a act s
  | .ld z d b off => Sys2Proof.Machine.execLd z d b off s
  | .ldAcq z sc d b off => Sys2Proof.Machine.execLdAcq z sc d b off s
  | .lds z d b off => Sys2Proof.Machine.execLds z d b off s
  | .ldu z d b off => Sys2Proof.Machine.execLdu z d b off s
  | .lduAcq z sc d b off => Sys2Proof.Machine.execLduAcq z sc d b off s
  | .st z d b off => Sys2Proof.Machine.execSt z d b off s
  | .stRel z sc d b off => Sys2Proof.Machine.execStRel z sc d b off s
  | .stf z d b off => Sys2Proof.Machine.execStf z d b off s
  | .ldse z d b off => Sys2Proof.Machine.execLdse z d b off s
  | .amoadd z o d a b => Sys2Proof.Machine.execAmoadd z o d a b s
  | .amoand z o d a b => Sys2Proof.Machine.execAmoand z o d a b s
  | .amoor z o d a b => Sys2Proof.Machine.execAmoor z o d a b s
  | .amoxor z o d a b => Sys2Proof.Machine.execAmoxor z o d a b s
  | .amomin z o d a b => Sys2Proof.Machine.execAmomin z o d a b s
  | .amomax z o d a b => Sys2Proof.Machine.execAmomax z o d a b s
  | .amominu z o d a b => Sys2Proof.Machine.execAmominu z o d a b s
  | .amomaxu z o d a b => Sys2Proof.Machine.execAmomaxu z o d a b s
  | .amoswap z o d a b => Sys2Proof.Machine.execAmoswap z o d a b s
  | .amocas z o d a b => Sys2Proof.Machine.execAmocas z o d a b s
  | .fence sc => Sys2Proof.Machine.execFence sc s
  | .feset a n => Sys2Proof.Machine.execFeset a n s
  | .feclr a n => Sys2Proof.Machine.execFeclr a n s
  | .vamo op lt d a => Sys2Proof.Machine.execVamo op lt d a s
  | .csend c k aux sc => Sys2Proof.Machine.execCsend c k aux sc s
  | .crecv d e c => Sys2Proof.Machine.execCrecv d e c s
  | .cpoll d c => Sys2Proof.Machine.execCpoll d c s
  | .invoke d k b m => Sys2Proof.Machine.execInvoke d k b m s
  | .xbind o a n => Sys2Proof.Machine.execXbind o a n s
  | .xsend o a d => Sys2Proof.Machine.execXsend o a d s
  | .xrecv d i0 => Sys2Proof.Machine.execXrecv d i0 s
  | .xfree i0 => Sys2Proof.Machine.execXfree i0 s
  | .xflush o => Sys2Proof.Machine.execXflush o s
  | .xfold o a => Sys2Proof.Machine.execXfold o a s
  | .xstat d inb c => Sys2Proof.Machine.execXstat d inb c s
  | .cpy a => Sys2Proof.Machine.execCpy a s
  | .lswap a => Sys2Proof.Machine.execLswap a s
  | .engstat d swap => Sys2Proof.Machine.execEngstat d swap s
  | .spawn d a => Sys2Proof.Machine.execSpawn d a s
  | .exit => Sys2Proof.Machine.execExit s
  | .yield n => Sys2Proof.Machine.execYield n s
  | .dpush d a => Sys2Proof.Machine.execDpush d a s
  | .dkey d a => Sys2Proof.Machine.execDkey d a s
  | .ddel d a => Sys2Proof.Machine.execDdel d a s
  | .dpop d a => Sys2Proof.Machine.execDpop d a s
  | .dealerOperation t op => Sys2Proof.Machine.execDealerOperation t op s
  | .rgset d t a => Sys2Proof.Machine.execRgset d t a s
  | .rgget d t => Sys2Proof.Machine.execRgget d t s
  | .rgprobe d a => Sys2Proof.Machine.execRgprobe d a s
  | .rgsplit d i0 j a => Sys2Proof.Machine.execRgsplit d i0 j a s
  | .rgmerge d i0 j => Sys2Proof.Machine.execRgmerge d i0 j s
  | .rgres sc d a => Sys2Proof.Machine.execRgres sc d a s
  | .rginv sc nw d a => Sys2Proof.Machine.execRginv sc nw d a s
  | .rgsync => Sys2Proof.Machine.execRgsync s
  | .rgcpt a => Sys2Proof.Machine.execRgcpt a s
  | .ginstall d a k => Sys2Proof.Machine.execGinstall d a k s
  | .garg d a j => Sys2Proof.Machine.execGarg d a j s
  | .gdrain d a => Sys2Proof.Machine.execGdrain d a s
  | .greconf d a => Sys2Proof.Machine.execGreconf d a s
  | .barj d n => Sys2Proof.Machine.execBarj d n s
  | .barw a n => Sys2Proof.Machine.execBarw a n s
  | .cntinc n a => Sys2Proof.Machine.execCntinc n a s
  | .cntwait n a => Sys2Proof.Machine.execCntwait n a s
  | .rngdraw d a => Sys2Proof.Machine.execRngdraw d a s
  | .snoise v a => Sys2Proof.Machine.execSnoise v a s
  | .smaxk d v a new => Sys2Proof.Machine.execSmaxk d v a new s
  | .accept d a => Sys2Proof.Machine.execAccept d a s
  | .kvcommit d a => Sys2Proof.Machine.execKvcommit d a s
  | .genabort a => Sys2Proof.Machine.execGenabort a s
  | .sequenceTableOperation t op => Sys2Proof.Machine.execSequenceTableOperation t op s
  | .gate a opn => Sys2Proof.Machine.execGate a opn s
  | .qwait d a => Sys2Proof.Machine.execQwait d a s
  | .ctxsave d a => Sys2Proof.Machine.execCtxsave d a s
  | .ctxload d a => Sys2Proof.Machine.execCtxload d a s
  | .parkWake t => Sys2Proof.Machine.execParkWake t s
  | .memReply t r => Sys2Proof.Machine.execMemReply t r s
  | .ownerAccess seq => Sys2Proof.Machine.execOwnerAccess seq s
  | .feWaitService seq => Sys2Proof.Machine.execFeWaitService seq s
  | .feWaitResend t => Sys2Proof.Machine.execFeWaitResend t s
  | .eccWriteback ga => Sys2Proof.Machine.execEccWriteback ga s
  | .gangCompare c => Sys2Proof.Machine.execGangCompare c s
  | .gangStart c id => Sys2Proof.Machine.execGangStart c id s
  | .gangComplete c id => Sys2Proof.Machine.execGangComplete c id s
  | .gangAbort c id => Sys2Proof.Machine.execGangAbort c id s
  | .arrayWatchdog c => Sys2Proof.Machine.execArrayWatchdog c s
  | .waitWatchdog t => Sys2Proof.Machine.execWaitWatchdog t s
  | .deadlock c => Sys2Proof.Machine.execDeadlock c s
  | .quiescenceReport t => Sys2Proof.Machine.execQuiescenceReport t s
  | .qwaitLimit t => Sys2Proof.Machine.execQwaitLimit t s
  | .retentionEnter c g => Sys2Proof.Machine.execRetentionEnter c g s
  | .retentionEnterDone c g => Sys2Proof.Machine.execRetentionEnterDone c g s
  | .retentionExitDone c g => Sys2Proof.Machine.execRetentionExitDone c g s
  | .patrolClaim g => Sys2Proof.Machine.execPatrolClaim g s
  | .patrolChunkDone fails => Sys2Proof.Machine.execPatrolChunkDone fails s
  | .patrolRelease => Sys2Proof.Machine.execPatrolRelease s
  | .channelTokenDepart t c => Sys2Proof.Machine.execChannelTokenDepart t c s
  | .channelTokenArrive t c inv tok => Sys2Proof.Machine.execChannelTokenArrive t c inv tok s
  | .invokeRequest k r => Sys2Proof.Machine.execInvokeRequest k r s
  | .invokeAnswer t r => Sys2Proof.Machine.execInvokeAnswer t r s
  | .invocationStart k => Sys2Proof.Machine.execInvocationStart k s
  | .activeNotice t inv => Sys2Proof.Machine.execActiveNotice t inv s
  | .invocationEnd k => Sys2Proof.Machine.execInvocationEnd k s
  | .nodeFaultReport k => Sys2Proof.Machine.execNodeFaultReport k s
  | .islandFaultTrap t inv i0 => Sys2Proof.Machine.execIslandFaultTrap t inv i0 s
  | .scan k n => Sys2Proof.Machine.execScan k n s
  | .scanl k n => Sys2Proof.Machine.execScanl k n s
  | .intersect k n => Sys2Proof.Machine.execIntersect k n s
  | .union k n => Sys2Proof.Machine.execUnion k n s
  | .repeatNode k n => Sys2Proof.Machine.execRepeatNode k n s
  | .reduce k n => Sys2Proof.Machine.execReduce k n s
  | .aluAdd k n => Sys2Proof.Machine.execAluAdd k n s
  | .aluSub k n => Sys2Proof.Machine.execAluSub k n s
  | .aluMul k n => Sys2Proof.Machine.execAluMul k n s
  | .aluDiv k n => Sys2Proof.Machine.execAluDiv k n s
  | .aluMin k n => Sys2Proof.Machine.execAluMin k n s
  | .aluMax k n => Sys2Proof.Machine.execAluMax k n s
  | .aluAnd k n => Sys2Proof.Machine.execAluAnd k n s
  | .aluOr k n => Sys2Proof.Machine.execAluOr k n s
  | .aluXor k n => Sys2Proof.Machine.execAluXor k n s
  | .aluShl k n => Sys2Proof.Machine.execAluShl k n s
  | .aluShr k n => Sys2Proof.Machine.execAluShr k n s
  | .aluAbs k n => Sys2Proof.Machine.execAluAbs k n s
  | .aluNeg k n => Sys2Proof.Machine.execAluNeg k n s
  | .aluPass k n => Sys2Proof.Machine.execAluPass k n s
  | .aluCmp k n => Sys2Proof.Machine.execAluCmp k n s
  | .aluFma k n => Sys2Proof.Machine.execAluFma k n s
  | .cvt k n => Sys2Proof.Machine.execCvt k n s
  | .sd2b k n => Sys2Proof.Machine.execSd2b k n s
  | .b2sd k n => Sys2Proof.Machine.execB2sd k n s
  | .wconv k n => Sys2Proof.Machine.execWconv k n s
  | .steer k n => Sys2Proof.Machine.execSteer k n s
  | .merge k n => Sys2Proof.Machine.execMerge k n s
  | .carry k n => Sys2Proof.Machine.execCarry k n s
  | .invariant k n => Sys2Proof.Machine.execInvariant k n s
  | .select k n => Sys2Proof.Machine.execSelect k n s
  | .pmenter k n => Sys2Proof.Machine.execPmenter k n s
  | .pmexit k n => Sys2Proof.Machine.execPmexit k n s
  | .mbar k n => Sys2Proof.Machine.execMbar k n s
  | .arg k n => Sys2Proof.Machine.execArg k n s
  | .sink k n => Sys2Proof.Machine.execSink k n s
  | .mtload k n => Sys2Proof.Machine.execMtload k n s
  | .mtstore k n => Sys2Proof.Machine.execMtstore k n s
  | .mtrmw k n => Sys2Proof.Machine.execMtrmw k n s
  | .array k n => Sys2Proof.Machine.execArray k n s
  | .portin k n => Sys2Proof.Machine.execPortin k n s
  | .portout k n => Sys2Proof.Machine.execPortout k n s
  | .reconfiguration k b => Sys2Proof.Machine.execReconfiguration k b s
  | .reconfigurationDone k b => Sys2Proof.Machine.execReconfigurationDone k b s
  | .islandInstall k r => Sys2Proof.Machine.execIslandInstall k r s
  | .islandInstallDone k b => Sys2Proof.Machine.execIslandInstallDone k b s
  | .islandCommand k c => Sys2Proof.Machine.execIslandCommand k c s
  | .configError k b n => Sys2Proof.Machine.execConfigError k b n s
  | .configReloadDone k b => Sys2Proof.Machine.execConfigReloadDone k b s
  | .transitPacket p => Sys2Proof.Machine.execTransitPacket p s
  | .transitCredit c o b n answer ret => Sys2Proof.Machine.execTransitCredit c o b n answer ret s
  | .transitFoldApply c i0 tag emit => Sys2Proof.Machine.execTransitFoldApply c i0 tag emit s
  | .transitFlushApply c i0 emit => Sys2Proof.Machine.execTransitFlushApply c i0 emit s
  | .copyTransfer c => Sys2Proof.Machine.execCopyTransfer c s
  | .copyComplete c q => Sys2Proof.Machine.execCopyComplete c q s
  | .swapHold id => Sys2Proof.Machine.execSwapHold id s
  | .swapHoldArrive id c => Sys2Proof.Machine.execSwapHoldArrive id c s
  | .swapHoldAck id c => Sys2Proof.Machine.execSwapHoldAck id c s
  | .swapRun id => Sys2Proof.Machine.execSwapRun id s
  | .swapBurst id => Sys2Proof.Machine.execSwapBurst id s
  | .swapDone id => Sys2Proof.Machine.execSwapDone id s
  | .swapLiftArrive id c => Sys2Proof.Machine.execSwapLiftArrive id c s
  | .residencyFetchComplete id => Sys2Proof.Machine.execResidencyFetchComplete id s
  | .residencyFetchFail id => Sys2Proof.Machine.execResidencyFetchFail id s
  | .rangeDropArrive id tbl => Sys2Proof.Machine.execRangeDropArrive id tbl s
  | .rangeDropAck id tbl => Sys2Proof.Machine.execRangeDropAck id tbl s
  | .rangeEntryInvalid tbl i0 => Sys2Proof.Machine.execRangeEntryInvalid tbl i0 s
  | .rgresUpdateArrive id tbl => Sys2Proof.Machine.execRgresUpdateArrive id tbl s
  | .compactorTake => Sys2Proof.Machine.execCompactorTake s
  | .compactorDrainDone => Sys2Proof.Machine.execCompactorDrainDone s
  | .compactorMoveDone => Sys2Proof.Machine.execCompactorMoveDone s
  | .gateArrive t u opn => Sys2Proof.Machine.execGateArrive t u opn s
  | .gateAck t => Sys2Proof.Machine.execGateAck t s
  | .launchTakeEntry => Sys2Proof.Machine.execLaunchTakeEntry s
  | .launchInstallDone => Sys2Proof.Machine.execLaunchInstallDone s
  | .freeze cols isls => Sys2Proof.Machine.execFreeze cols isls s
  | .stopTheColumn cols isls => Sys2Proof.Machine.execStopTheColumn cols isls s
  | .release cols isls => Sys2Proof.Machine.execRelease cols isls s
  | .step cols core => Sys2Proof.Machine.execStep cols core s
  | .partitionGate p => Sys2Proof.Machine.execPartitionGate p s
  | .stepEnd c => Sys2Proof.Machine.execStepEnd c s
  | .freezePinAssert => Sys2Proof.Machine.execFreezePinAssert s
  | .freezePinRelease => Sys2Proof.Machine.execFreezePinRelease s
  | .debugHalt t => Sys2Proof.Machine.execDebugHalt t s
  | .debugResume t => Sys2Proof.Machine.execDebugResume t s
  | .debugWrite off v => Sys2Proof.Machine.execDebugWrite off v s
  | .registerWrite off size v => Sys2Proof.Machine.execRegisterWrite off size v s
  | .pointerDropRead off size => Sys2Proof.Machine.execPointerDropRead off size s
  | .ringBaseWrite err v => Sys2Proof.Machine.execRingBaseWrite err v s
  | .intstatWrite en v => Sys2Proof.Machine.execIntstatWrite en v s
  | .rcctlWrite v => Sys2Proof.Machine.execRcctlWrite v s
  | .hostBar2Read off n => Sys2Proof.Machine.execHostBar2Read off n s
  | .hostBar2Write off data => Sys2Proof.Machine.execHostBar2Write off data s
  | .hostUnsupportedRequest isRead => Sys2Proof.Machine.execHostUnsupportedRequest isRead s
  | .hostWindowTimeout seq => Sys2Proof.Machine.execHostWindowTimeout seq s
  | .hostWindowStoreFail seq => Sys2Proof.Machine.execHostWindowStoreFail seq s
  | .chainPacket src dst seq op => Sys2Proof.Machine.execChainPacket src dst seq op s
  | .chainLinkDown west => Sys2Proof.Machine.execChainLinkDown west s
  | .timeSyncSend => Sys2Proof.Machine.execTimeSyncSend s
  | .timeSyncReceive v => Sys2Proof.Machine.execTimeSyncReceive v s
  | .setret c mask => Sys2Proof.Machine.execSetret c mask s
  | .patrol en => Sys2Proof.Machine.execPatrol en s
  | .repair c bank row => Sys2Proof.Machine.execRepair c bank row s
  | .scanmap off n => Sys2Proof.Machine.execScanmap off n s
  | .powercap watts => Sys2Proof.Machine.execPowercap watts s
  | .chainnum pkg count => Sys2Proof.Machine.execChainnum pkg count s
  | .reset => Sys2Proof.Machine.execReset s
  | .replay on => Sys2Proof.Machine.execReplay on s
  | .attest nonce => Sys2Proof.Machine.execAttest nonce s
  | .extend i0 digest => Sys2Proof.Machine.execExtend i0 digest s
  | .firmwareUpdate image => Sys2Proof.Machine.execFirmwareUpdate image s
  | .platformMonitoring sensor => Sys2Proof.Machine.execPlatformMonitoring sensor s
  | .pldmBase cmd => Sys2Proof.Machine.execPldmBase cmd s
  | .conventionalReset => Sys2Proof.Machine.execConventionalReset s
  | .hotReset => Sys2Proof.Machine.execHotReset s
  | .functionLevelReset => Sys2Proof.Machine.execFunctionLevelReset s
  | .bootStage err => Sys2Proof.Machine.execBootStage err s
  | .powerWindow watts => Sys2Proof.Machine.execPowerWindow watts s
  | .clockStepChange mhz => Sys2Proof.Machine.execClockStepChange mhz s
  | .coolingLoopLost top sensor temp => Sys2Proof.Machine.execCoolingLoopLost top sensor temp s
  | .coolingLoopRestored top sensor temp => Sys2Proof.Machine.execCoolingLoopRestored top sensor temp s
  | .junctionHot sensor temp => Sys2Proof.Machine.execJunctionHot sensor temp s
  | .replayApply => Sys2Proof.Machine.execReplayApply s
  | .transitSenderPacket c => Sys2Proof.Machine.execTransitSenderPacket c s
  | .arrayRequestComplete k n id => Sys2Proof.Machine.execArrayRequestComplete k n id s
  | .newClockRuns => Sys2Proof.Machine.execNewClockRuns s
  | .ucieLinkRetrain west width => Sys2Proof.Machine.execUcieLinkRetrain west width s
  | .deviceControl2Write v => Sys2Proof.Machine.execDeviceControl2Write v s

end Sys2Proof.Machine
end

