-- ==== Sys2Proof/Machine/RunEvent.lean ====
section
/-! DEFINITION. A step of the schedule runs the meaning of its row. -/
namespace Sys2Proof.Machine

def runEvent (e : Event) (s : State) : Host.Outcome State Fault Refusal :=
  match e with
  | .dealerOperation t op => Sys2Proof.Machine.execDealerOperation t op s
  | .sequenceTableOperation t op => Sys2Proof.Machine.execSequenceTableOperation t op s
  | .parkWake t => Sys2Proof.Machine.execParkWake t s
  | .memReply t r => Sys2Proof.Machine.execMemReply t r s
  | .ownerAccess seq => Sys2Proof.Machine.execOwnerAccess seq s
  | .feWaitService seq => Sys2Proof.Machine.execFeWaitService seq s
  | .feWaitResend t => Sys2Proof.Machine.execFeWaitResend t s
  | .eccWriteback ga => Sys2Proof.Machine.execEccWriteback ga s
  | .gangCompare c => Sys2Proof.Machine.execGangCompare c s
  | .gangStart c id => Sys2Proof.Machine.execGangStart c id s
  | .gangComplete c id => Sys2Proof.Machine.execGangComplete c id s
  | .gangAbort c id => Sys2Proof.Machine.execGangAbort c id s
  | .arrayWatchdog c => Sys2Proof.Machine.execArrayWatchdog c s
  | .waitWatchdog t => Sys2Proof.Machine.execWaitWatchdog t s
  | .deadlock c => Sys2Proof.Machine.execDeadlock c s
  | .quiescenceReport t => Sys2Proof.Machine.execQuiescenceReport t s
  | .qwaitLimit t => Sys2Proof.Machine.execQwaitLimit t s
  | .retentionEnter c g => Sys2Proof.Machine.execRetentionEnter c g s
  | .retentionEnterDone c g => Sys2Proof.Machine.execRetentionEnterDone c g s
  | .retentionExitDone c g => Sys2Proof.Machine.execRetentionExitDone c g s
  | .patrolClaim g => Sys2Proof.Machine.execPatrolClaim g s
  | .patrolChunkDone fails => Sys2Proof.Machine.execPatrolChunkDone fails s
  | .patrolRelease => Sys2Proof.Machine.execPatrolRelease s
  | .channelTokenDepart t c => Sys2Proof.Machine.execChannelTokenDepart t c s
  | .channelTokenArrive t c inv tok => Sys2Proof.Machine.execChannelTokenArrive t c inv tok s
  | .invokeRequest k r => Sys2Proof.Machine.execInvokeRequest k r s
  | .invokeAnswer t r => Sys2Proof.Machine.execInvokeAnswer t r s
  | .invocationStart k => Sys2Proof.Machine.execInvocationStart k s
  | .activeNotice t inv => Sys2Proof.Machine.execActiveNotice t inv s
  | .invocationEnd k => Sys2Proof.Machine.execInvocationEnd k s
  | .nodeFaultReport k => Sys2Proof.Machine.execNodeFaultReport k s
  | .islandFaultTrap t inv i0 => Sys2Proof.Machine.execIslandFaultTrap t inv i0 s
  | .scan k n => Sys2Proof.Machine.execScan k n s
  | .scanl k n => Sys2Proof.Machine.execScanl k n s
  | .intersect k n => Sys2Proof.Machine.execIntersect k n s
  | .union k n => Sys2Proof.Machine.execUnion k n s
  | .repeatNode k n => Sys2Proof.Machine.execRepeatNode k n s
  | .reduce k n => Sys2Proof.Machine.execReduce k n s
  | .aluAdd k n => Sys2Proof.Machine.execAluAdd k n s
  | .aluSub k n => Sys2Proof.Machine.execAluSub k n s
  | .aluMul k n => Sys2Proof.Machine.execAluMul k n s
  | .aluDiv k n => Sys2Proof.Machine.execAluDiv k n s
  | .aluMin k n => Sys2Proof.Machine.execAluMin k n s
  | .aluMax k n => Sys2Proof.Machine.execAluMax k n s
  | .aluAnd k n => Sys2Proof.Machine.execAluAnd k n s
  | .aluOr k n => Sys2Proof.Machine.execAluOr k n s
  | .aluXor k n => Sys2Proof.Machine.execAluXor k n s
  | .aluShl k n => Sys2Proof.Machine.execAluShl k n s
  | .aluShr k n => Sys2Proof.Machine.execAluShr k n s
  | .aluAbs k n => Sys2Proof.Machine.execAluAbs k n s
  | .aluNeg k n => Sys2Proof.Machine.execAluNeg k n s
  | .aluPass k n => Sys2Proof.Machine.execAluPass k n s
  | .aluCmp k n => Sys2Proof.Machine.execAluCmp k n s
  | .aluFma k n => Sys2Proof.Machine.execAluFma k n s
  | .cvt k n => Sys2Proof.Machine.execCvt k n s
  | .sd2b k n => Sys2Proof.Machine.execSd2b k n s
  | .b2sd k n => Sys2Proof.Machine.execB2sd k n s
  | .wconv k n => Sys2Proof.Machine.execWconv k n s
  | .steer k n => Sys2Proof.Machine.execSteer k n s
  | .merge k n => Sys2Proof.Machine.execMerge k n s
  | .carry k n => Sys2Proof.Machine.execCarry k n s
  | .invariant k n => Sys2Proof.Machine.execInvariant k n s
  | .select k n => Sys2Proof.Machine.execSelect k n s
  | .pmenter k n => Sys2Proof.Machine.execPmenter k n s
  | .pmexit k n => Sys2Proof.Machine.execPmexit k n s
  | .mbar k n => Sys2Proof.Machine.execMbar k n s
  | .arg k n => Sys2Proof.Machine.execArg k n s
  | .sink k n => Sys2Proof.Machine.execSink k n s
  | .mtload k n => Sys2Proof.Machine.execMtload k n s
  | .mtstore k n => Sys2Proof.Machine.execMtstore k n s
  | .mtrmw k n => Sys2Proof.Machine.execMtrmw k n s
  | .array k n => Sys2Proof.Machine.execArray k n s
  | .portin k n => Sys2Proof.Machine.execPortin k n s
  | .portout k n => Sys2Proof.Machine.execPortout k n s
  | .reconfiguration k b => Sys2Proof.Machine.execReconfiguration k b s
  | .reconfigurationDone k b => Sys2Proof.Machine.execReconfigurationDone k b s
  | .islandInstall k r => Sys2Proof.Machine.execIslandInstall k r s
  | .islandInstallDone k b => Sys2Proof.Machine.execIslandInstallDone k b s
  | .islandCommand k c => Sys2Proof.Machine.execIslandCommand k c s
  | .configError k b n => Sys2Proof.Machine.execConfigError k b n s
  | .configReloadDone k b => Sys2Proof.Machine.execConfigReloadDone k b s
  | .transitPacket p => Sys2Proof.Machine.execTransitPacket p s
  | .transitCredit c o b n answer ret => Sys2Proof.Machine.execTransitCredit c o b n answer ret s
  | .transitFoldApply c i0 tag emit => Sys2Proof.Machine.execTransitFoldApply c i0 tag emit s
  | .transitFlushApply c i0 emit => Sys2Proof.Machine.execTransitFlushApply c i0 emit s
  | .copyTransfer c => Sys2Proof.Machine.execCopyTransfer c s
  | .copyComplete c q => Sys2Proof.Machine.execCopyComplete c q s
  | .swapHold id => Sys2Proof.Machine.execSwapHold id s
  | .swapHoldArrive id c => Sys2Proof.Machine.execSwapHoldArrive id c s
  | .swapHoldAck id c => Sys2Proof.Machine.execSwapHoldAck id c s
  | .swapRun id => Sys2Proof.Machine.execSwapRun id s
  | .swapBurst id => Sys2Proof.Machine.execSwapBurst id s
  | .swapDone id => Sys2Proof.Machine.execSwapDone id s
  | .swapLiftArrive id c => Sys2Proof.Machine.execSwapLiftArrive id c s
  | .residencyFetchComplete id => Sys2Proof.Machine.execResidencyFetchComplete id s
  | .residencyFetchFail id => Sys2Proof.Machine.execResidencyFetchFail id s
  | .rangeDropArrive id tbl => Sys2Proof.Machine.execRangeDropArrive id tbl s
  | .rangeDropAck id tbl => Sys2Proof.Machine.execRangeDropAck id tbl s
  | .rangeEntryInvalid tbl i0 => Sys2Proof.Machine.execRangeEntryInvalid tbl i0 s
  | .rgresUpdateArrive id tbl => Sys2Proof.Machine.execRgresUpdateArrive id tbl s
  | .compactorTake => Sys2Proof.Machine.execCompactorTake s
  | .compactorDrainDone => Sys2Proof.Machine.execCompactorDrainDone s
  | .compactorMoveDone => Sys2Proof.Machine.execCompactorMoveDone s
  | .gateArrive t u opn => Sys2Proof.Machine.execGateArrive t u opn s
  | .gateAck t => Sys2Proof.Machine.execGateAck t s
  | .launchTakeEntry => Sys2Proof.Machine.execLaunchTakeEntry s
  | .launchInstallDone => Sys2Proof.Machine.execLaunchInstallDone s
  | .freeze cols isls => Sys2Proof.Machine.execFreeze cols isls s
  | .stopTheColumn cols isls => Sys2Proof.Machine.execStopTheColumn cols isls s
  | .release cols isls => Sys2Proof.Machine.execRelease cols isls s
  | .step cols core => Sys2Proof.Machine.execStep cols core s
  | .partitionGate p => Sys2Proof.Machine.execPartitionGate p s
  | .stepEnd c => Sys2Proof.Machine.execStepEnd c s
  | .freezePinAssert => Sys2Proof.Machine.execFreezePinAssert s
  | .freezePinRelease => Sys2Proof.Machine.execFreezePinRelease s
  | .debugHalt t => Sys2Proof.Machine.execDebugHalt t s
  | .debugResume t => Sys2Proof.Machine.execDebugResume t s
  | .debugWrite off v => Sys2Proof.Machine.execDebugWrite off v s
  | .registerWrite off size v => Sys2Proof.Machine.execRegisterWrite off size v s
  | .pointerDropRead off size => Sys2Proof.Machine.execPointerDropRead off size s
  | .ringBaseWrite err v => Sys2Proof.Machine.execRingBaseWrite err v s
  | .intstatWrite en v => Sys2Proof.Machine.execIntstatWrite en v s
  | .rcctlWrite v => Sys2Proof.Machine.execRcctlWrite v s
  | .hostBar2Read off n => Sys2Proof.Machine.execHostBar2Read off n s
  | .hostBar2Write off data => Sys2Proof.Machine.execHostBar2Write off data s
  | .hostUnsupportedRequest isRead => Sys2Proof.Machine.execHostUnsupportedRequest isRead s
  | .hostWindowTimeout seq => Sys2Proof.Machine.execHostWindowTimeout seq s
  | .hostWindowStoreFail seq => Sys2Proof.Machine.execHostWindowStoreFail seq s
  | .chainPacket src dst seq op => Sys2Proof.Machine.execChainPacket src dst seq op s
  | .chainLinkDown west => Sys2Proof.Machine.execChainLinkDown west s
  | .timeSyncSend => Sys2Proof.Machine.execTimeSyncSend s
  | .timeSyncReceive v => Sys2Proof.Machine.execTimeSyncReceive v s
  | .setret c mask => Sys2Proof.Machine.execSetret c mask s
  | .patrol en => Sys2Proof.Machine.execPatrol en s
  | .repair c bank row => Sys2Proof.Machine.execRepair c bank row s
  | .scanmap off n => Sys2Proof.Machine.execScanmap off n s
  | .powercap watts => Sys2Proof.Machine.execPowercap watts s
  | .chainnum pkg count => Sys2Proof.Machine.execChainnum pkg count s
  | .reset => Sys2Proof.Machine.execReset s
  | .replay on => Sys2Proof.Machine.execReplay on s
  | .attest nonce => Sys2Proof.Machine.execAttest nonce s
  | .extend i0 digest => Sys2Proof.Machine.execExtend i0 digest s
  | .firmwareUpdate image => Sys2Proof.Machine.execFirmwareUpdate image s
  | .platformMonitoring sensor => Sys2Proof.Machine.execPlatformMonitoring sensor s
  | .pldmBase cmd => Sys2Proof.Machine.execPldmBase cmd s
  | .conventionalReset => Sys2Proof.Machine.execConventionalReset s
  | .hotReset => Sys2Proof.Machine.execHotReset s
  | .functionLevelReset => Sys2Proof.Machine.execFunctionLevelReset s
  | .bootStage err => Sys2Proof.Machine.execBootStage err s
  | .powerWindow watts => Sys2Proof.Machine.execPowerWindow watts s
  | .clockStepChange mhz => Sys2Proof.Machine.execClockStepChange mhz s
  | .coolingLoopLost top sensor temp => Sys2Proof.Machine.execCoolingLoopLost top sensor temp s
  | .coolingLoopRestored top sensor temp => Sys2Proof.Machine.execCoolingLoopRestored top sensor temp s
  | .junctionHot sensor temp => Sys2Proof.Machine.execJunctionHot sensor temp s
  | .replayApply => Sys2Proof.Machine.execReplayApply s
  | .transitSenderPacket c => Sys2Proof.Machine.execTransitSenderPacket c s
  | .arrayRequestComplete k n id => Sys2Proof.Machine.execArrayRequestComplete k n id s
  | .newClockRuns => Sys2Proof.Machine.execNewClockRuns s
  | .ucieLinkRetrain west width => Sys2Proof.Machine.execUcieLinkRetrain west width s
  | .deviceControl2Write v => Sys2Proof.Machine.execDeviceControl2Write v s

end Sys2Proof.Machine
end

