-- ==== Sys2Proof/Machine/Scan.lean ====
section
/-! DEFINITION. The steps that become due in a cycle because of the state, not of a time (log 2): at owners, of engines, of islands, of
the package, and the ends of parks. -/
namespace Sys2Proof.Machine

/-! ### At owners -/

/-- A turn at an owner: its class and its place in the class (R193), its place in the arrival order of one cycle (R201), its number, and the
step. -/
structure Turn where
  key : Nat × Nat
  rank : Nat
  num : Nat
  ev : Event
deriving DecidableEq, Repr

def Turn.before (x y : Turn) : Bool :=
  decide (x.key.1 < y.key.1 ∨ (x.key.1 = y.key.1 ∧ (x.key.2 < y.key.2 ∨ (x.key.2 = y.key.2 ∧
    (x.rank < y.rank ∨ (x.rank = y.rank ∧ x.num < y.num))))))

/-- A turn put among others by precedence. -/
def placeTurn (x : Turn) : List Turn → List Turn
  | [] => [x]
  | y :: ys => if x.before y then x :: y :: ys else y :: placeTurn x ys

/-- The class of an engine's access that waits from a cycle on. -/
def State.engineKey (s : State) (since : Nat) : Nat × Nat := if since + 16 ≤ s.sched.cycle then (1, since) else (5, since)

/-- Whether an entry of a wait list is served in this cycle: its words are FULL, or it comes to the end of a memory tile's pipeline. -/
def State.served (s : State) (a : Access) : Bool :=
  a.joined.isSome && (if a.entered then decide (a.due ≤ s.sched.cycle) else s.allFull a.ga a.size)

/-- Accesses, and entries of wait lists that are served. -/
def State.accessTurns (s : State) : List Turn :=
  s.flights.filterMap (fun a =>
    let turn := fun (e : Event) => some ({ key := s.precedence a, rank := s.arrivalRank a.agent a.ga, num := a.seq, ev := e } : Turn)
    if s.served a then turn (.feWaitService a.seq)
    else if s.standing a then turn (.ownerAccess a.seq)
    else none)

/-- The address that the next turn of a copy reaches. -/
def CopyCmd.reaches (w : CopyCmd) : Nat := if w.buf.isSome then (w.address w.done).2 else (w.address w.done).1

/-- Deliveries, copies and sends of a column; of a frozen one none (R427). -/
def State.engineTurns (s : State) (c : Nat) : List Turn :=
  let x := s.col c
  let n := s.sched.seq
  if x.frozen then []
  else x.arriving.filterMap (fun p =>
    if p.1 ≤ s.sched.cycle then some {
      key := s.engineKey p.1, rank := s.arrivalRank (.transit p.2.prod) (s.ga 1 c 0), num := n + p.2.emit, ev := .transitPacket p.2 } else none) ++
    (match s.copyCore c with
     | some q => (match (s.core (4 * c + q)).copies with
       | w :: _ => [{ key := s.engineKey w.since, rank := s.arrivalRank (.copy (4 * c + q)) w.reaches, num := 2 * n + c, ev := .copyTransfer c }]
       | [] => [])
     | none => []) ++
    (match x.sendQ with
     | i :: _ => if i.from_ ≤ s.sched.cycle then [{
         key := s.engineKey s.sched.cycle, rank := s.arrivalRank (.transit c) i.src, num := 2 * n + 32 + c, ev := .transitSenderPacket c }] else []
     | [] => [])

/-- The columns that have any state of their own. -/
def State.liveCols (s : State) : List Nat := s.cols.map (·.1)

/-- The tokens that may leave their OUT registers. -/
def State.departScan (s : State) : List Event :=
  s.threads.flatMap (fun e =>
    (List.range 8).filterMap (fun c =>
      if s.mayDepart e.1 (e.2.chan (BitVec.ofNat 3 c)) then some (.channelTokenDepart e.1 c) else none))

/-- The step of a configured node, by its operation (R278). -/
def nodeEvent (op k n : Nat) : Option Event :=
  match op with
  | 0x01 => some (.scan k n) | 0x02 => some (.scanl k n) | 0x03 => some (.intersect k n) | 0x04 => some (.union k n)
  | 0x05 => some (.repeatNode k n) | 0x06 => some (.reduce k n)
  | 0x10 => some (.aluAdd k n) | 0x11 => some (.aluSub k n) | 0x12 => some (.aluMul k n) | 0x13 => some (.aluDiv k n)
  | 0x14 => some (.aluMin k n) | 0x15 => some (.aluMax k n) | 0x16 => some (.aluAnd k n) | 0x17 => some (.aluOr k n)
  | 0x18 => some (.aluXor k n) | 0x19 => some (.aluShl k n) | 0x1A => some (.aluShr k n) | 0x1B => some (.aluAbs k n)
  | 0x1C => some (.aluNeg k n) | 0x1D => some (.aluPass k n) | 0x1E => some (.aluCmp k n) | 0x1F => some (.aluFma k n)
  | 0x20 => some (.cvt k n) | 0x21 => some (.sd2b k n) | 0x22 => some (.b2sd k n) | 0x23 => some (.wconv k n)
  | 0x30 => some (.steer k n) | 0x31 => some (.merge k n) | 0x32 => some (.carry k n) | 0x33 => some (.invariant k n)
  | 0x34 => some (.select k n) | 0x35 => some (.pmenter k n) | 0x36 => some (.pmexit k n) | 0x37 => some (.mbar k n)
  | 0x38 => some (.arg k n) | 0x39 => some (.sink k n)
  | 0x40 => some (.mtload k n) | 0x41 => some (.mtstore k n) | 0x42 => some (.mtrmw k n)
  | 0x50 => some (.array k n) | 0x60 => some (.portin k n) | 0x61 => some (.portout k n)
  | _ => none

/-- The steps of the nodes of an island that runs an invocation: the memory nodes, or the others. -/
def State.nodeScan (s : State) (k : Nat) (mem : Bool) : List Event :=
  let i := s.isl k
  if i.run.isNone || i.frozen then []
  else (slots i.words).filterMap (fun n => let op := nwOp (nodeAt i.words n); if isMemNode op = mem then nodeEvent op k n else none)

/-- Every turn at the owners, by precedence, then the memory nodes (R301), then tokens that leave. -/
def State.ownerScan (s : State) : List Event :=
  let l := s.accessTurns ++ s.liveCols.flatMap s.engineTurns
  ((l.foldl (fun acc x => placeTurn x acc) []).map (·.ev)) ++ (List.range 10).flatMap (fun k => s.nodeScan k true) ++ s.departScan

/-! ### Engines, islands and the package -/

def State.colScan (s : State) (c : Nat) : List Event :=
  if (s.col c).frozen then []
  else s.arrayScan c ++ s.copyScan c ++ s.retentionScan c ++ (if s.deadlockDue c then [.deadlock c] else [])

/-- Reports of the quiescence tree, and watchdogs. -/
def State.threadScan (s : State) : List Event :=
  s.threads.filterMap (fun e =>
    match e.2.wait with
    | .quiet cols isls tokens _ => if s.quietFor e.1 cols isls tokens then some (.quiescenceReport e.1) else none
    | _ => if (s.waitExpired e.1).isSome then some (.waitWatchdog e.1) else none)

def State.unitScan (s : State) : List Event :=
  s.liveCols.flatMap s.colScan ++ s.swapScan ++ s.compScan ++ s.invalidScan ++ (List.range 10).flatMap s.islScan ++
    (if s.launchTakeable then [.launchTakeEntry] else []) ++ (if s.launchReady then [.launchInstallDone] else []) ++ s.threadScan ++ s.patrolScan ++
    (if s.replayDue then [.replayApply] else [])

end Sys2Proof.Machine
end

