-- ==== Sys2Proof/Machine/Schedule.lean ====
section
/-! DEFINITION. The order of the indivisible steps within a package cycle (log 2): the events due, in the order in which they became
due; the issues, by rising column and core; the steps that the state asks for, in four parts; one outside input after another; the next
cycle. -/
namespace Sys2Proof.Machine

/-! ### What may land -/

/-- The partition whose freeze holds an event back (R427, R430). -/
def State.unitOf (s : State) (e : Event) : Option Partition :=
  let thr := fun (t : Nat) => some (Partition.column (colOf t))
  let tab := fun (n : Nat) => some (if n < 80 then Partition.column (n / 4) else .island (n - 80))
  match e with
  | .memReply t _ => thr t
  | .feWaitResend t => thr t
  | .parkWake t => thr t
  | .waitWatchdog t => thr t
  | .quiescenceReport t => thr t
  | .qwaitLimit t => thr t
  | .channelTokenDepart t _ => thr t
  | .channelTokenArrive t _ _ _ => thr t
  | .invokeAnswer t _ => thr t
  | .activeNotice t _ => thr t
  | .islandFaultTrap t _ _ => thr t
  | .debugHalt t => thr t
  | .debugResume t => thr t
  | .gangCompare c => some (.column c)
  | .gangStart c _ => some (.column c)
  | .gangComplete c _ => some (.column c)
  | .gangAbort c _ => some (.column c)
  | .arrayWatchdog c => some (.column c)
  | .deadlock c => some (.column c)
  | .retentionEnter c _ => some (.column c)
  | .retentionEnterDone c _ => some (.column c)
  | .retentionExitDone c _ => some (.column c)
  | .transitPacket p => some (.column p.cons)
  | .transitCredit c _ _ _ _ _ => some (.column c)
  | .transitFoldApply c _ _ _ => some (.column c)
  | .transitFlushApply c _ _ => some (.column c)
  | .transitSenderPacket c => some (.column c)
  | .copyTransfer c => some (.column c)
  | .copyComplete c _ => some (.column c)
  | .swapHoldArrive _ c => some (.column c)
  | .swapLiftArrive _ c => some (.column c)
  | .rangeDropArrive _ n => tab n
  | .rgresUpdateArrive _ n => tab n
  | .rangeEntryInvalid n _ => tab n
  | .gateArrive _ (.chans c _) _ => some (.column c)
  | .gateAck id => ((s.disp.gateWaits.find? (fun g => g.1 == id)).map (fun g => Partition.column (colOf g.2.1)))
  | .invokeRequest k _ => some (.island k)
  | .invocationStart k => some (.island k)
  | .invocationEnd k => some (.island k)
  | .nodeFaultReport k => some (.island k)
  | .reconfiguration k _ => some (.island k)
  | .reconfigurationDone k _ => some (.island k)
  | .islandInstall k _ => some (.island k)
  | .islandInstallDone k _ => some (.island k)
  | .islandCommand k _ => some (.island k)
  | .configError k _ _ => some (.island k)
  | .configReloadDone k _ => some (.island k)
  | .arrayRequestComplete k _ _ => some (.island k)
  | _ => none

/-- Whether an event can land now: its partition runs, and an operation at the dealer comes after the writes of the cycle (R350). -/
def State.lands (s : State) (e : Event) : Bool :=
  (match s.unitOf e with
   | none => true
   | some (.column c) => !(s.col c).frozen
   | some (.island k) => !(s.isl k).frozen) &&
  (match e with
   | .dealerOperation _ _ => decide (86 ≤ s.sched.pos)
   | _ => true)

/-- Where arrivals of one cycle have an order, and the rank of an event in it: requests at an island's queue, with the adjacent columns first
(R348), operations at the dealer and at the sequence table by input link (R201, R349), and what reaches the range tables (R365). -/
def arrivalPlace : Event → Option (Nat × Nat)
  | .invokeRequest k r =>
    some (k, (if colOf r.thr / 2 = k then 0 else 8) + inputLink (colOf r.thr) (20 + k))
  | .dealerOperation t _ => some (30, inputLink (colOf t) 30)
  | .sequenceTableOperation t _ => some (31, inputLink (colOf t) 30)
  | .compactorMoveDone => some (40, 1)
  | .residencyFetchComplete _ => some (40, 2)
  | .residencyFetchFail _ => some (40, 2)
  | .rangeDropArrive _ _ => some (40, 3)
  | .rgresUpdateArrive _ _ => some (40, 4)
  | _ => none

/-- Whether an event of the agenda can land before another one of its place: it is due earlier, or of a lower rank. -/
def State.goesBefore (s : State) (x y : Nat × Event) : Bool :=
  decide (x.1 ≤ s.sched.cycle) && s.lands x.2 &&
    (match arrivalPlace x.2, arrivalPlace y.2 with
     | some (p, a), some (q, b) => p == q && decide (x.1 < y.1 ∨ (x.1 = y.1 ∧ a < b))
     | _, _ => false)

/-- The first event that is due and can land, and the agenda without it. -/
def State.firstDue (s : State) : List (Nat × Event) → Option ((Nat × Event) × List (Nat × Event))
  | [] => none
  | x :: rest =>
    if x.1 ≤ s.sched.cycle ∧ s.lands x.2 then some (x, rest)
    else (s.firstDue rest).map (fun r => (r.1, x :: r.2))

/-- The event that lands next: the first that is due, or one of its place that goes before it; and the agenda without it. -/
def State.takeDue (s : State) (l : List (Nat × Event)) : Option (Event × List (Nat × Event)) :=
  match s.firstDue l with
  | none => none
  | some (x, rest) =>
    let y := rest.foldl (fun b z => if s.goesBefore z b then z else b) x
    if y = x then some (x.2, rest) else some (y.2, x :: rest.erase y)

/-! ### Outside inputs -/

/-- What the management side-band and the freeze pin bring, which reaches a gated device (R432, R463). -/
def sideband : Event → Bool
  | .freezePinAssert => true | .freezePinRelease => true
  | .setret _ _ => true | .patrol _ => true | .repair _ _ _ => true | .scanmap _ _ => true | .powercap _ => true | .chainnum _ _ => true
  | .reset => true | .replay _ => true | .attest _ => true | .extend _ _ => true | .firmwareUpdate _ => true
  | .platformMonitoring _ => true | .pldmBase _ => true
  | _ => false

/-- The outside inputs: what the host, management, the links, the pins and the platform may do. -/
def isInput : Event → Bool
  | .registerWrite _ _ _ => true | .pointerDropRead _ _ => true | .ringBaseWrite _ _ => true | .intstatWrite _ _ => true
  | .rcctlWrite _ => true | .debugWrite _ _ => true | .hostBar2Read _ _ => true | .hostBar2Write _ _ => true
  | .hostUnsupportedRequest _ => true | .hostWindowTimeout _ => true | .hostWindowStoreFail _ => true | .deviceControl2Write _ => true
  | .chainPacket src dst _ _ => decide (src < 16 ∧ dst < 16)
  | .chainLinkDown _ => true | .timeSyncReceive _ => true | .ucieLinkRetrain _ _ => true
  | .conventionalReset => true | .hotReset => true | .functionLevelReset => true | .bootStage _ => true
  | .powerWindow _ => true | .coolingLoopLost _ _ _ => true | .coolingLoopRestored _ _ _ => true | .junctionHot _ _ => true
  | .configError k b n => decide (k < 10 ∧ b < 4 ∧ n < 128)
  | .patrolClaim _ => true | .patrolChunkDone _ => true
  | e => sideband e

/-- The first side-band input, and the inputs without it. -/
def takeSideband : List (Nat × Event) → Option (Event × List (Nat × Event))
  | [] => none
  | (d, e) :: rest => if sideband e then some (e, rest) else (takeSideband rest).map (fun r => (r.1, (d, e) :: r.2))

/-! ### The end of a cycle -/

/-- What a cycle leaves at its end: log records, completed invalidations and drained banks, and the units' HOLD bits. -/
def State.closeCycle (s : State) : State :=
  let s := s.flushRings.flushLog.sweepInvals
  let s := (List.range 10).foldl (fun s k => s.sweepDrains k) s
  let s := s.liveCols.foldl (fun s c => if (s.col c).frozen then s else s.countRows c) s
  s.noteHold

/-- A barrier or counter that an input has changed in the cycle in which a thread has parked on it (R406). -/
def State.levelWaits (s : State) : State :=
  s.threads.foldl (fun s e => match e.2.wait with
    | .barrier _ _ => if e.2.parkedAt = s.cycOf e.1 ∧ s.waitOver e.1 then s.endPark e.1 else s
    | .event _ _ => if e.2.parkedAt = s.cycOf e.1 ∧ s.waitOver e.1 then s.endPark e.1 else s
    | _ => s) s

/-- The counter of R404 for a slot's state in its own cycle, beside counter 1. -/
def ownCounter : Park → Option Nat
  | .range => some 8 | .mem => some 3 | .fe => some 4 | .gang => some 5 | .window => some 6 | .transit => some 6 | .chan => some 7
  | .bank => none | .tile => none | .barrier => none | .event => none | .trap => none

/-- The own cycle of a slot: skips are counted down (R347), and the state is counted (R404). -/
def State.ownCycle (s : State) (t : Nat) : State :=
  match (s.thr t).st with
  | .ready =>
    if (s.thr t).skips ≠ 0 ∧ (s.thr t).readyFrom ≤ s.cycOf t then s.modThr t (fun x => { x with skips := x.skips - 1, readyFrom := s.cycOf t + 1 }) else s
  | .parked r => (match ownCounter r with
    | some e => (s.count t 1).count t e
    | none => s.count t 1)
  | _ => s.count t 1

/-- The next cycle of a column that runs. -/
def State.advanceCol (s : State) (c : Nat) : State :=
  if (s.col c).frozen then s
  else
    let s := s.modCol c (fun x => { x with cyc := x.cyc + 1, perfHeld := [], cevNow := 0 })
    (List.range 4).foldl (fun s q => s.ownCycle (thrNo c q ((s.col c).cyc % 16))) s

def State.advanceIsl (s : State) (k : Nat) : State :=
  s.modIsl k (fun i => if i.frozen then i else { i with cyc := i.cyc + 1, flagNow := [] })

/-- The freeze pin, or a shutdown, gates the device from this cycle on (R432, R469). -/
def State.pinGate (s : State) : State :=
  match s.sched.pinDue with
  | some n =>
    if n ≤ s.sched.cycle then { s with sched := { s.sched with stopped := true, pinDue := none }, pkg := { s.pkg with pin := !s.mgmt.off } } else s
  | none => s

/-- The steps with which a cycle begins: gatings, debug halts and resumes (R428), residency fetches that end (R365), reports of node faults
(R309), and the nodes of the islands. -/
def State.opening (s : State) : List Event :=
  s.gatesDue ++ s.haltScan ++ s.fetchScan ++ s.reportScan ++ (List.range 10).flatMap (fun k => s.nodeScan k false)

/-- What the cycle that ends has set beside the bits themselves is forgotten (R8). -/
def State.forgetNow (s : State) : State :=
  { s with
    pkg := { s.pkg with intNow := 0, hperrNow := 0, skipNow := false, ovfNow := false, thDropNow := 0 }
    disp := { s.disp with seqNow := [] } }

/-- The next package cycle begins: its steps see what stands now as its start. Launches whose columns have become EMPTY are DONE (R339). -/
def State.tick (s : State) : State :=
  let s := s.levelWaits.closeCycle
  let old := s.sched.time
  let s := ({ s with sched := { s.sched with cycle := s.sched.cycle + 1, pos := 0 } } : State).forgetNow.advanceTime
  let s := (List.range 20).foldl (fun s c => s.advanceCol c) s
  let s := ((List.range 10).foldl (fun s k => s.advanceIsl k) s).noteStart.sweepLaunches
  let sync : Bool := newMicrosecond old s.sched.time && s.pkg.pkgNo == 0 && s.pkg.eastUp
  let l := s.opening ++ (if sync then [.timeSyncSend] else [])
  { s with sched := { s.sched with agenda := l.map (fun e => (s.sched.cycle, e)) ++ s.sched.agenda } }.pinGate

/-! ### Steps -/

/-- What a step does. -/
inductive Act where
  /-- a thread issues an instruction -/
  | issue (i : Instr) (s : State)
  /-- a step of the schedule -/
  | event (e : Event) (s : State)
  /-- the schedule alone moves -/
  | quiet (s : State)
  /-- an outside input -/
  | input (e : Event) (s : State)
deriving DecidableEq, Repr

/-- The issue of core `q` in this cycle. -/
def State.issueAct (s : State) (q : Nat) : Act :=
  let s := s.setIssuing q
  match s.issueTrap with
  | some t => .quiet (s.takeAsync.trapMe t)
  | none => .issue s.issueInstr s

/-- Events due at once, and the next position. -/
def State.scanTo (s : State) (l : List Event) (pos : Nat) : State :=
  { s with sched := { s.sched with pos := pos, agenda := s.sched.agenda ++ l.map (fun e => (s.sched.cycle, e)) } }

/-- Requests of the host that have waited come before the inputs of the cycle (DESIGN CHOICE, log 62). -/
def State.heldScan (s : State) : State :=
  if s.host.busy.isSome then s.scanTo [] 85 else ({ s with host := { s.host with held := [] } } : State).scanTo s.host.held 85

/-- After the inputs of a cycle come the operations at the dealer (R350), and then the next cycle. -/
def State.lastAct (s : State) : Act := .quiet (if s.sched.pos < 86 then s.scanTo [] 86 else s.tick)

/-- The first input, if its cycle has come; one that cannot land waits among the events. -/
def State.inputAct (s : State) : Act :=
  match s.sched.inputs with
  | (c, e) :: rest =>
    if s.sched.cycle < c then s.lastAct
    else
      let s := { s with sched := { s.sched with inputs := rest } }
      if s.lands e ∨ !isInput e then .input e s else .quiet (s.after 0 e)
  | [] => s.lastAct

/-- The step of a running device when no event is due. -/
def State.idleAct (s : State) : Act :=
  if s.sched.pos < 80 then
    match s.nextIssuer s.sched.pos (80 - s.sched.pos) with
    | some q => s.issueAct q
    | none => .quiet { s with sched := { s.sched with pos := 80 } }
  else if s.sched.pos = 80 then .quiet (s.scanTo s.ownerScan 81)
  else if s.sched.pos = 81 then .quiet (s.scanTo s.unitScan 82)
  else if s.sched.pos = 82 then .quiet (s.scanTo [] 83)
  else if s.sched.pos = 83 then .quiet (s.scanTo s.wakeScan 84)
  else if s.sched.pos = 84 then .quiet s.heldScan
  else s.inputAct

/-- The next step. A gated device takes side-band inputs alone. -/
def State.nextAct (s : State) : Act :=
  if s.sched.stopped then
    match takeSideband s.sched.inputs with
    | some (e, rest) => .input e { s with sched := { s.sched with inputs := rest } }
    | none => .quiet s
  else
    match s.takeDue s.sched.agenda with
    | some (e, rest) => .event e { s with sched := { s.sched with agenda := rest } }
    | none => s.idleAct

/-- The state in which column 0, core 0, slot 0 is about to issue word `w` at address 0: nothing else is due, the slot owns the cycle, and
no issue check of R85 holds. -/
def State.placeWord (s : State) (w : Word) : State :=
  let s := s.modCore 0 (fun c => { c with
    code := sset 0 c.code 0 w, codeMarks := sset .clean c.codeMarks 0 .clean, dbl := false, ssmask := 0, bps := Vector.replicate 4 0 })
  let s := s.modThr 0 (fun x => { x with st := .ready, wait := .none, pc := 0, readyFrom := 0, skips := 0, savedBy := none, asyncTraps := [] })
  let s := s.modCol 0 (fun c => { c with frozen := false, stepCore := none, cyc := c.cyc / 16 * 16 })
  State.noteStart { s with sched := { s.sched with
    pos := 0, stopped := false, agenda := s.sched.agenda.filter (fun e => decide (s.sched.cycle < e.1)) } }

end Sys2Proof.Machine
end

