-- ==== Sys2Proof/Machine/Step.lean ====
section
/-! DEFINITION. One step of the machine, and a word placed where the next step issues it. -/
namespace Sys2Proof.Machine

/-- One indivisible step of the schedule. An outside input that names a unit the package does not have is no input. -/
def step (s : State) : Host.Outcome State Fault Refusal :=
  match s.nextAct with
  | .issue i s' => exec i s'
  | .event e s' => runEvent e s'
  | .quiet s' => .next s'
  | .input e s' => if isInput e then runEvent e s' else .fault .noSuchUnit

/-- The state `s` with a word at the PC of the slot that issues next: a launch has put it there (log 7). -/
def State.withFetchWord (s : State) (nbits w : Nat) : State := s.placeWord (BitVec.ofNat 32 (w % 2 ^ nbits))

end Sys2Proof.Machine
end

