-- ==== Sys2Proof/Safety.lean ====
section
/-! DEFINITION. What counts as a safe step, in the terms that claims use: the invariant of every step, what an instruction leaves alone,
how an instruction completes, and how it traps. -/
namespace Sys2Proof.Safety
open Sys2Proof.Machine

/-- What every step keeps: the memories stand in canonical form, and no trap queue holds more than its 16 records (R183). -/
def Sound (s : State) : Prop := s.mem.wf = true ∧ ∀ q, (s.core q).tq.length ≤ 16

/-- The issuing thread. -/
abbrev self (s : State) : Thread := s.thr s.me

/-- Everything but thread `n` and the columns' performance counters is as before: every other thread, core, island and range table, every
byte and bit of memory, every access on its way, and every register of the package. -/
def OnlyThread (s t : State) (n : Nat) : Prop :=
  (∀ m, m ≠ n → t.thr m = s.thr m) ∧ (∀ q, t.core q = s.core q) ∧ (∀ k, t.isl k = s.isl k) ∧ t.tables = s.tables ∧ t.mem = s.mem ∧
    t.flights = s.flights ∧ t.pkg = s.pkg ∧ t.disp = s.disp ∧ t.eng = s.eng ∧ t.host = s.host ∧ t.mgmt = s.mgmt ∧ t.sched = s.sched ∧
    t.cur = s.cur ∧ t.start = s.start

/-- The columns after the performance counters of thread `n`'s core have counted the events `es` (R404); nothing else of a column changes. -/
def Counted (s t : State) (n : Nat) (es : List Nat) : Prop := ∀ c, t.col c = (es.foldl (fun x e => x.count n e) s).col c

/-- A thread whose instruction has completed with the PC `pc`. -/
def done (x : Thread) (pc : W64) : Thread := { x with pc := pc, resume := false, reissue := false, retrans := false }

/-- Instruction `i` completes in state `s`: the issuing thread is `x` but for its PC, which is `pc`, and for RESUME, which is clear (R184);
nothing else changes but the counters of the events `es`. -/
def CompletesAt (i : Instr) (s : State) (pc : W64) (x : Thread) (es : List Nat := [0]) : Prop :=
  ∃ t, exec i s = .next t ∧ OnlyThread s t s.me ∧ Counted s t s.me es ∧ t.thr s.me = done x pc

/-- The same, with the next instruction in sequence to follow. -/
def Completes (i : Instr) (s : State) (x : Thread) (es : List Nat := [0]) : Prop := CompletesAt i s ((self s).pc + 1) x es

/-- The instruction writes `v` into scalar register `d` and completes; a write to s0 is discarded. -/
def Writes (i : Instr) (s : State) (d : Reg) (v : W64) : Prop := Completes i s ((self s).putS d v)

/-- The instruction writes `v` into predicate `d` and completes; a write to p0 is discarded. -/
def WritesP (i : Instr) (s : State) (d : PReg) (v : Bool) : Prop := Completes i s ((self s).putP d v)

/-- The instruction traps: the next state is the one that taking the trap `w` gives. -/
def Traps (i : Instr) (s : State) (w : TrapInfo) : Prop := exec i s = .next (s.trapMe w)

/-- Flags ORed into FPMODE (R54, R171). -/
def flagged (x : Thread) (f : FFlags) : Thread := { x with fpm := x.fpm ||| (f.zeroExtend 7 <<< 2) }

/-- The number of bits below the top that are 0: the leading zeros of a value (R114), counted bit by bit. -/
def leadingZeros (x : W64) : Nat := ((List.range 64).takeWhile (fun i => !x.getLsbD (63 - i))).length

/-- The trailing zeros of a value (R114), counted bit by bit. -/
def trailingZeros (x : W64) : Nat := ((List.range 64).takeWhile (fun i => !x.getLsbD i)).length

/-- What a condition of R115 says of two integers read as signed and as unsigned. -/
def conditionMeans (c : Cond) (x y : W64) : Prop :=
  match c with
  | .eq => x = y
  | .ne => x ≠ y
  | .lt => x.toInt < y.toInt
  | .ge => y.toInt ≤ x.toInt
  | .ltu => x.toNat < y.toNat
  | .geu => y.toNat ≤ x.toNat

/-- A branch by `off` instructions: with `PC + off` in 0 to 4,095 the PC is that and the issuing thread otherwise `x`; else ILLEGAL_INSTR with
the state as before (R76). -/
def Branches (i : Instr) (s : State) (off : BitVec 21) (x : Thread) : Prop :=
  let t := ((self s).pc.toNat : Int) + off.toInt
  if 0 ≤ t ∧ t ≤ 4095 then CompletesAt i s (BitVec.ofInt 64 t) x else Traps i s (cause 0x01)

/-- A lane-wise instruction under predicate `g`: with the predicate set, lane `n` of register `d` becomes the low bits of `f n` and the flags `fl` are
raised; with it clear, nothing is written and no flag set (R129). -/
def LaneWise (i : Instr) (s : State) (lt : LaneType) (g : PReg) (d : VReg) (fl : FFlags) (es : List Nat) (f : Nat → Nat) : Prop :=
  ∃ v, Completes i s (if s.rdP g then (flagged (self s) fl).putV d v else self s) es ∧ ∀ n, n < lt.lanes → lane lt.width v n = f n % 2 ^ lt.width

/-- A lane-wise floating-point instruction: the flags of all lanes are raised together. -/
def LaneWiseFp (i : Instr) (s : State) (lt : LaneType) (g : PReg) (d : VReg) (f : Nat → Nat × FFlags) : Prop :=
  LaneWise i s lt g d (flagUnion ((List.range lt.lanes).map f)) [10, 0] (fun n => (f n).1)

/-- A word in the R format, from its fields (R77). -/
def wordR (m : BitVec 6) (d a b : BitVec 5) (fn : BitVec 11) : Word := m ++ d ++ a ++ b ++ fn

/-- A word in the I format (R77). -/
def wordI (m : BitVec 6) (d a : BitVec 5) (imm : BitVec 16) : Word := m ++ d ++ a ++ imm

/-- A word in the B format (R77). -/
def wordB (m : BitVec 6) (a : BitVec 5) (off : BitVec 21) : Word := m ++ a ++ off

/-- A word in the V format (R77). -/
def wordV (m : BitVec 6) (vd va vb : BitVec 4) (lt g : BitVec 3) (fn : BitVec 8) : Word := m ++ vd ++ va ++ vb ++ lt ++ g ++ fn

/-- A word that is no instruction (R83). -/
def Reserved (w : Word) : Prop := ∃ e, decode w = .error e

/-- A vector result under a predicate. -/
def WritesV (i : Instr) (s : State) (g : PReg) (d : VReg) (v : Vec) : Prop := Completes i s (if s.rdP g then (self s).putV d v else self s)

/-- A thread that parks for the reason `r` in a cycle of its column: its registers and PC are as before (R38, R341). -/
def parked (s : State) (t : Nat) (r : Park) (w : Wait) : Thread :=
  { s.thr t with st := .parked r, wait := w, parkedAt := s.cycOf t, retrans := (s.thr t).retrans && r == .range }

/-- A thread that becomes READY, or HALTED when a halt is pending (R341). -/
def woken (s : State) (t : Nat) : Thread := { s.thr t with st := s.readySt t, wait := .none, readyFrom := s.cycOf t + 1 }

/-- A thread that starts in a slot with the initial values of R103 and the CTAG that the slot had (R355). -/
def started (s : State) (t : Nat) (pc : W64) : Thread :=
  { ctag := (s.thr t).ctag, st := s.readySt t, pc := pc, readyFrom := s.cycOf t + 1 }

/-- The same operation, its parts in an order of their own and whatever the cycles in which they stand at their owners. -/
def SameOp (x y : AccOp) : Prop :=
  let plain := fun (p : Piece) => { p with due := 0, piped := false }
  x.withTodo [] = y.withTodo [] ∧ (x.todo.map plain).Perm (y.todo.map plain)

/-- The issuing thread parks for the reason `r`, with its registers and PC as before, and nothing else changes (R38, R341). -/
def Parks (i : Instr) (s : State) (r : Park) (w : Wait) : Prop :=
  ∃ t, exec i s = .next t ∧ OnlyThread s t s.me ∧ (∀ c, t.col c = s.col c) ∧
    t.thr s.me = parked s s.me r w

/-- An EMPTY slot with the initial values of R103 and the CTAG that it had (R355). -/
def EmptySlot (x y : Thread) : Prop := ∃ n, y = { ctag := x.ctag, readyFrom := n }

/-- The status word that an operation of a far unit sends back to a thread. -/
def Answers (s t : State) (n : Nat) (d : Reg) (v : Nat) : Prop :=
  ∃ due, s.sched.cycle < due ∧ t.sched.agenda = s.sched.agenda ++ [(due, .memReply n (.done [(d, BitVec.ofNat 64 v)] []))]

/-- The order of the dealer's heap: by deadline, then by identifier (R349). -/
def DealBefore (a b : DealReq) : Prop := a.deadline.toNat < b.deadline.toNat ∨ (a.deadline = b.deadline ∧ a.ident.toNat < b.ident.toNat)

/-- The checks let bytes `[va, va + n)` of the issuing thread through to the global address `g`: the address is aligned, no watchpoint is met, the
entries `via` translate it, and the map takes it. -/
def Passes (s : State) (va n align : Nat) (kind : AccKind) (perm : BitVec 5) (rd wr : Bool) (g : Nat) (via : List Via) : Prop :=
  va % align = 0 ∧ s.watchpoint s.me va n rd wr = none ∧ s.translate s.me va n perm = .ok g via ∧ s.mapExtent g n kind va = none

/-- The checks of R206 let an access through, and no deferred store fault stands in its way (R205). -/
def Reaches (s : State) (va n align : Nat) (kind : AccKind) (perm : BitVec 5) (rd wr : Bool) (g : Nat) (via : List Via) : Prop :=
  (self s).deferred = [] ∧ Passes s va n align kind perm rd wr g via

/-- The instruction makes the access `a`. Accepted, it is on its way and the thread parks (MEM) until the reply, or completes if the access is a
posted store (R204); else it waits to be accepted and the thread parks (MEM). No memory, core, other thread, island or package register changes. -/
def Makes (i : Instr) (s : State) (a : Access) : Prop :=
  ∃ t b, exec i s = .next t ∧ b ∈ t.flights ∧ b.agent = .thread s.me ∧ SameOp b.op a.op ∧ (a.op.inPieces = false → b.ga = a.ga) ∧ b.va = a.va ∧
    b.size = a.size ∧ b.acq = a.acq ∧ b.rel = a.rel ∧ b.via = a.via ∧ b.tile = a.tile ∧ b.clear = a.clear ∧ b.waiting = !(s.gateOpen s.me a) ∧ t.mem = s.mem ∧ (∀ m, m ≠ s.me → t.thr m = s.thr m) ∧
    (∀ q, t.core q = s.core q) ∧ (∀ k, t.isl k = s.isl k) ∧ t.pkg = s.pkg ∧ t.disp = s.disp ∧ t.eng = s.eng ∧
    t.thr s.me = (if s.gateOpen s.me a then
        (if a.op.isStore then done (self s) ((self s).pc + 1) else parked s s.me .mem .reply)
      else parked s s.me .mem (.accept b.seq))

/-- An access stands at its owner, alone in its turn: it is on its way with the number `seq`, it may be performed, nothing holds its word back
and its owner is free. -/
def Served (s : State) (seq : Nat) (a : Access) : Prop :=
  s.flight seq = some a ∧ a.seq = seq ∧ s.standing a = true ∧ s.blocked a.ga = false ∧ s.ownerFree a.ga a.turnBytes = true ∧ a.entered = false ∧
    (∀ k t, s.owner a.ga ≠ .tile k t)

/-- `n` bytes from `g` on lie within one memory space of this package's map, below the end of its numbering. -/
def Within (g n : Nat) : Prop := gaSpace g < 4 ∧ g % 2 ^ 44 + n ≤ 2 ^ 44

/-- The byte at `h` lies outside the `n` bytes from `g` on. -/
def Outside (g n h : Nat) : Prop := ∀ i, i < n → h % 2 ^ 48 ≠ (g + i) % 2 ^ 48

/-- The answer `r` is on its way to thread `n`. -/
def Replies (s t : State) (n : Nat) (r : Reply) : Prop := ∃ due, s.sched.cycle < due ∧ (due, Event.memReply n r) ∈ t.sched.agenda

/-- What a register-access instruction of the issuing thread does to registers outside it: the state `u` gives every register and memory, and the
thread completes with `x`. -/
def Accesses (i : Instr) (s u : State) (x : Thread) : Prop :=
  ∃ t, exec i s = .next t ∧ t.thr s.me = done x (x.pc + 1) ∧ (∀ m, m ≠ s.me → t.thr m = s.thr m) ∧ (∀ q, t.core q = u.core q) ∧
    (∀ c, t.col c = (u.count s.me 0).col c) ∧ (∀ k, t.isl k = u.isl k) ∧ t.pkg = u.pkg ∧ t.mem = u.mem ∧ t.host = u.host ∧ t.disp = u.disp

/-- The issuing thread stands at its core's gang port, or in its queue when the port is taken; the holder of the array takes the port (R149, R155).
It parks (GANG); no other core or thread, no column and no memory changes. -/
def AtPort (i : Instr) (s : State) : Prop :=
  let q := coreOf s.me
  ∃ t, exec i s = .next t ∧ t.thr s.me = parked s s.me .gang .gang ∧
    (∀ m, m ≠ s.me → t.thr m = s.thr m) ∧ (∀ p, p ≠ q → t.core p = s.core p) ∧ (∀ c, t.col c = s.col c) ∧ t.mem = s.mem ∧ t.flights = s.flights ∧
    t.pkg = s.pkg ∧
    (let p : PortItem := { slot := s.cur.slot, cycle := s.cycOf s.me, instr := i, key := s.gangKey s.me i }
     match (s.core q).port with
     | none => t.core q = { s.core q with port := some p }
     | some old => t.core q = if s.holds s.me then { s.core q with port := some p, portQ := old :: (s.core q).portQ }
         else { s.core q with portQ := (s.core q).portQ ++ [p] })

/-- The instruction reads `n` words of a descriptor at `va` as loads (R329, R330, R378): the read is on its way once it passes the checks.
An instruction that goes on after a park (RANGE) with the words that it has read reads none again (R359). -/
def ReadsDescriptor (i : Instr) (s : State) (va n kind : Nat) (whole : Bool) : Prop := ∀ ps via, s.keptWords = none → va % 8 = 0 →
  s.rowWatch 8 (rowList va 8 8 n) false = none → s.rowPieces 8 permR (rowList va 8 8 n) ([], []) = .ok (ps, via) →
  Makes i s { bulkAccess s.me ps va (8 * n) (.gather ps [] (.descriptor kind whole)) with via := via }

/-- The part of a completion word of a command is over in this cycle: there is none, or its store of number `sent` has been performed, or its
owner in this package, no memory tile, takes it at once. -/
def StatusReady (s : State) (sent : Option Nat) : Option Nat → Prop
  | none => True
  | some g => (∃ n, sent = some n ∧ s.flight n = none) ∨
      sent = none ∧ (s.owner g).byStore = false ∧ gaPkg g = s.pkg.pkgNo.toNat ∧ Within g 8 ∧ s.pieceReady (onePiece g 8) = true

/-- A completion word that has no store of its own holds the value `v`, and its word is FULL where it carries a bit (R211). -/
def StatusAt (t : State) (v : Nat) (sent : Option Nat) : Option Nat → Prop
  | none => True
  | some g => sent = none → t.readN g 8 = v ∧ (hasFe g = true → t.full g = true)

/-- An event is due after this cycle. -/
def Later (s t : State) (e : Event) : Prop := ∃ due, s.sched.cycle < due ∧ (due, e) ∈ t.sched.agenda

/-- The threads, the cores and the memory are as before. -/
def SameThreads (s t : State) : Prop := (∀ m, t.thr m = s.thr m) ∧ (∀ q, t.core q = s.core q) ∧ t.mem = s.mem

/-- What node `n` of island `k` sees and is, once it has emitted what its consumers have room for (R290). -/
def nodeEnv (s : State) (k n : Nat) : NEnv := ((s.isl k).emit n).env k n
def nodeState (s : State) (k n : Nat) : Node := ((s.isl k).emit n).node n

/-- A node of operation `op` that goes on in this cycle, with room in its stages, and that stands neither before a FOLD that it passes nor before a
marked DONE that it takes up, nor discards (R257, R298). -/
def NodeReady (s : State) (k n op : Nat) : Prop :=
  let e := nodeEnv s k n
  let x := nodeState s k n
  nwOp (nodeAt (s.isl k).words n) = op ∧ (s.isl k).live n = true ∧ x.stalled (nodeLatency e.w) = false ∧ x.drop = none ∧
    (op = 0x34 ∨ e.markedHead x = none) ∧ (movesStreams op = true ∨ op = 0x39 ∨ e.foldHead x = none)

/-- The event makes the step `r` of the node, in an island that has moved (R290, R408). -/
def NodeSteps (ev : Instr) (s : State) (k n : Nat) (r : NStep) : Prop :=
  exec ev s = .next (s.putIsl k ((((s.isl k).emit n).apply (nodeEnv s k n) r).moves s.sched.cycle))

/-- The node consumes the heads of the inputs `ps`, gives the tokens `a` and `b` to its outputs, faults not, and its state then meets `P`. -/
def NodeGives (ev : Instr) (s : State) (k n : Nat) (ps : List Nat) (a b : List ITok) (P : Node → Prop := fun _ => True) : Prop :=
  ∃ r, NodeSteps ev s k n r ∧ r.a = a ∧ r.b = b ∧ r.fault = none ∧ P r.x ∧
    ∀ p, p < 3 → r.x.input p = if ps.contains p then ((nodeState s k n).input p).tail else (nodeState s k n).input p

/-- The token `t` stands at input `p` of the node and continues its stream. -/
def Stands (s : State) (k n p : Nat) (t : ITok) : Prop :=
  (nodeState s k n).headAt p (nodeEnv s k n).cyc = some t ∧ (nodeEnv s k n).check (nodeState s k n) p t = none

/-- The condition `c` stands at port 3 of the node. -/
def CondStands (s : State) (k n : Nat) (c : Bool) : Prop := (nodeState s k n).cond (nodeEnv s k n).cyc = some c

end Sys2Proof.Safety
end

