-- ==== Sys2Proof/Certificates/Slice0/Obligations.lean ====
section
/-! DEFINITION. What is to be proved of the model, statement by statement. A docstring names the rules of spec/ that a statement
formalises. -/
open Sys2Proof Sys2Proof.Machine Sys2Proof.Safety

/-- R111, R112, R116, R117: the scalar arithmetic, logic and shifts by register and by immediate, written out on 64-bit values; s0 discards
the result, and nothing changes beside the destination and the PC; the words that R117 calls reserved are none. R113: products and quotients as the integers that they stand for. A quotient and a remainder truncate toward zero; a divisor of 0 gives
all ones and the dividend, and −2^63 / −1 gives −2^63 and 0. -/
def Obligations.IntegerArithmetic : Prop :=
  (∀ (s : State) (d a b : Reg) (imm : BitVec 16) (k : BitVec 6),
    let x := s.rd a
    let y := s.rd b
    Writes (.add d a b) s d (x + y) ∧ Writes (.sub d a b) s d (x - y) ∧ Writes (.and d a b) s d (x &&& y) ∧
    Writes (.or d a b) s d (x ||| y) ∧ Writes (.xor d a b) s d (x ^^^ y) ∧ Writes (.andn d a b) s d (x &&& ~~~y) ∧
    Writes (.min d a b) s d (if x.toInt ≤ y.toInt then x else y) ∧ Writes (.max d a b) s d (if x.toInt ≤ y.toInt then y else x) ∧
    Writes (.minu d a b) s d (if x.toNat ≤ y.toNat then x else y) ∧ Writes (.maxu d a b) s d (if x.toNat ≤ y.toNat then y else x) ∧
    Writes (.shl d a b) s d (x <<< (y.toNat % 64)) ∧ Writes (.shr d a b) s d (x >>> (y.toNat % 64)) ∧
    Writes (.sra d a b) s d (x.sshiftRight (y.toNat % 64)) ∧
    Writes (.rol d a b) s d (x <<< (y.toNat % 64) ||| x >>> (64 - y.toNat % 64)) ∧
    Writes (.ror d a b) s d (x >>> (y.toNat % 64) ||| x <<< (64 - y.toNat % 64)) ∧
    Writes (.addi d a imm) s d (x + imm.signExtend 64) ∧ Writes (.andi d a imm) s d (x &&& imm.zeroExtend 64) ∧
    Writes (.ori d a imm) s d (x ||| imm.zeroExtend 64) ∧ Writes (.xori d a imm) s d (x ^^^ imm.zeroExtend 64) ∧
    Writes (.shli d a k) s d (x <<< k.toNat) ∧ Writes (.shri d a k) s d (x >>> k.toNat) ∧
    Writes (.srai d a k) s d (x.sshiftRight k.toNat)) ∧
  (∀ w, fld w 26 6 = 0x09#6 → fld w 8 8 ≠ 0 ∨ fld w 6 2 = 3#2 → Reserved w) ∧
  (∀ w, let fn := (fld w 0 11).toNat
    fld w 26 6 = 0x00#6 ∧ 10 < fn ∨ fld w 26 6 = 0x01#6 ∧ (fn = 0 ∨ 5 < fn) ∨ fld w 26 6 = 0x02#6 ∧ (fn = 0 ∨ 7 < fn) → Reserved w) ∧
  (∀ (d a b : Reg) (imm : BitVec 16) (k : BitVec 6),
    let r := fun m fn i => decode (wordR m d a b fn) = .ok i
    r 0x00 0x001 (.add d a b) ∧ r 0x00 0x002 (.sub d a b) ∧ r 0x00 0x003 (.and d a b) ∧ r 0x00 0x004 (.or d a b) ∧ r 0x00 0x005 (.xor d a b) ∧
    r 0x00 0x006 (.andn d a b) ∧ r 0x00 0x007 (.min d a b) ∧ r 0x00 0x008 (.max d a b) ∧ r 0x00 0x009 (.minu d a b) ∧ r 0x00 0x00A (.maxu d a b) ∧
    r 0x01 0x001 (.shl d a b) ∧ r 0x01 0x002 (.shr d a b) ∧ r 0x01 0x003 (.sra d a b) ∧ r 0x01 0x004 (.rol d a b) ∧ r 0x01 0x005 (.ror d a b) ∧
    r 0x02 0x001 (.mul d a b) ∧ r 0x02 0x002 (.mulh d a b) ∧ r 0x02 0x003 (.mulhu d a b) ∧ r 0x02 0x004 (.div d a b) ∧
    r 0x02 0x005 (.divu d a b) ∧ r 0x02 0x006 (.rem d a b) ∧ r 0x02 0x007 (.remu d a b) ∧
    decode (wordI 0x05 d a imm) = .ok (.addi d a imm) ∧ decode (wordI 0x06 d a imm) = .ok (.andi d a imm) ∧
    decode (wordI 0x07 d a imm) = .ok (.ori d a imm) ∧ decode (wordI 0x08 d a imm) = .ok (.xori d a imm) ∧
    decode (wordI 0x09 d a (0#8 ++ 0#2 ++ k)) = .ok (.shli d a k) ∧ decode (wordI 0x09 d a (0#8 ++ 1#2 ++ k)) = .ok (.shri d a k) ∧
    decode (wordI 0x09 d a (0#8 ++ 2#2 ++ k)) = .ok (.srai d a k)) ∧
  (∀ (s : State) (d a b : Reg),
    let x := s.rd a
    let y := s.rd b
    Writes (.mul d a b) s d (BitVec.ofNat 64 (x.toNat * y.toNat)) ∧
    Writes (.mulh d a b) s d (BitVec.ofInt 64 (x.toInt * y.toInt / 2 ^ 64)) ∧
    Writes (.mulhu d a b) s d (BitVec.ofNat 64 (x.toNat * y.toNat / 2 ^ 64)) ∧
    Writes (.div d a b) s d (if y = 0 then BitVec.ofNat 64 (2 ^ 64 - 1) else BitVec.ofInt 64 (Int.tdiv x.toInt y.toInt)) ∧
    Writes (.divu d a b) s d (if y = 0 then BitVec.ofNat 64 (2 ^ 64 - 1) else BitVec.ofNat 64 (x.toNat / y.toNat)) ∧
    Writes (.rem d a b) s d (if y = 0 then x else BitVec.ofInt 64 (Int.tmod x.toInt y.toInt)) ∧
    Writes (.remu d a b) s d (if y = 0 then x else BitVec.ofNat 64 (x.toNat % y.toNat)))

/-- R114, R118: the bit-field instructions, bit by bit, for every position and width, with pos + w above 64 as well; counts; sign extensions;
and MOVK, which replaces bits [16k+15:16k]; and the words of these majors that are reserved. -/
def Obligations.BitFields : Prop := ∀ (s : State) (d a b : Reg) (k : BitVec 2) (imm : BitVec 16),
  let x := s.rd a
  let pos := (s.rd b).toNat % 64
  let w := (s.rd b).toNat / 256 % 64 + 1
  Writes (.clz d a) s d (BitVec.ofNat 64 (leadingZeros x)) ∧ Writes (.ctz d a) s d (BitVec.ofNat 64 (trailingZeros x)) ∧
  Writes (.popc d a) s d (BitVec.ofNat 64 ((List.range 64).countP (fun i => x.getLsbD i))) ∧
  (∃ v, Writes (.bext d a b) s d v ∧ ∀ i, v.getLsbD i = (decide (i < w) && x.getLsbD (pos + i))) ∧
  (∃ v, Writes (.bins d a b) s d v ∧ ∀ i, i < 64 → v.getLsbD i = if pos ≤ i ∧ i < pos + w then x.getLsbD (i - pos) else (s.rd d).getLsbD i) ∧
  Writes (.sxtB d a) s d (BitVec.ofInt 64 (toSigned 8 x.toNat)) ∧ Writes (.sxtH d a) s d (BitVec.ofInt 64 (toSigned 16 x.toNat)) ∧
  Writes (.sxtW d a) s d (BitVec.ofInt 64 (toSigned 32 x.toNat)) ∧
  (∃ v, Writes (.movk d k imm) s d v ∧ ∀ i, i < 64 → v.getLsbD i = if i / 16 = k.toNat then imm.getLsbD (i % 16) else (s.rd d).getLsbD i) ∧
  (∀ w, fld w 26 6 = 0x03#6 → let fn := (fld w 0 11).toNat
    fn = 0 ∨ 8 < fn ∨ fn ≠ 4 ∧ fn ≠ 5 ∧ fld w 11 5 ≠ 0 → Reserved w) ∧
  (∀ w, fld w 26 6 = 0x0B#6 → fld w 18 3 ≠ 0 → Reserved w) ∧
  decode (wordR 0x03 d a 0 0x001) = .ok (.clz d a) ∧ decode (wordR 0x03 d a 0 0x002) = .ok (.ctz d a) ∧
  decode (wordR 0x03 d a 0 0x003) = .ok (.popc d a) ∧ decode (wordR 0x03 d a b 0x004) = .ok (.bext d a b) ∧
  decode (wordR 0x03 d a b 0x005) = .ok (.bins d a b) ∧ decode (wordR 0x03 d a 0 0x006) = .ok (.sxtB d a) ∧
  decode (wordR 0x03 d a 0 0x007) = .ok (.sxtH d a) ∧ decode (wordR 0x03 d a 0 0x008) = .ok (.sxtW d a) ∧
  decode (wordI 0x0B d (0#3 ++ k) imm) = .ok (.movk d k imm)

/-- R115: CMP and CMPI write one predicate, by the condition's meaning on integers; the immediate is zero-extended for `ltu` and `geu`
and sign-extended else; the codes and field values that are reserved. -/
def Obligations.Compares : Prop := ∀ (s : State) (p : PReg) (c : Cond) (a b : Reg) (imm : BitVec 13),
  let v : W64 := if c = .ltu ∨ c = .geu then imm.zeroExtend 64 else imm.signExtend 64
  (∃ r, WritesP (.cmp p c a b) s p r ∧ (r = true ↔ conditionMeans c (s.rd a) (s.rd b))) ∧
  (∃ r, WritesP (.cmpi p c a imm) s p r ∧ (r = true ↔ conditionMeans c (s.rd a) v)) ∧
  (∀ w, fld w 26 6 = 0x04#6 → fld w 24 2 ≠ 0 ∨ 6 ≤ (fld w 0 11).toNat → Reserved w) ∧
  (∀ w, fld w 26 6 = 0x0A#6 → fld w 24 2 ≠ 0 ∨ 6 ≤ (fld w 13 3).toNat → Reserved w) ∧
  (∀ (n : BitVec 3), (n, c) ∈ [(0#3, .eq), (1#3, .ne), (2#3, .lt), (3#3, .ge), (4#3, .ltu), (5#3, .geu)] →
    decode (wordR 0x04 (0#2 ++ p) a b (0#8 ++ n)) = .ok (.cmp p c a b) ∧ decode (wordI 0x0A (0#2 ++ p) a (n ++ imm)) = .ok (.cmpi p c a imm))

/-- R119, R120, R121, R122: branches, calls, loops and jumps. A branch not taken and a LOOP that ends go on with the next word; a target outside
the code store traps and leaves the state as before; JMPR and CALLR never trap, and read the target before they write the link. R122: the predicate operations. The words
of LOOP and BRA that are reserved. -/
def Obligations.ControlAndPredicates : Prop :=
  (∀ (s : State) (neg : Bool) (p : PReg) (l a : Reg) (off : BitVec 21),
    let x := self s
    let t := s.rd a - 1
    (if (s.rdP p ^^ neg) = true then Branches (.bra neg p off) s off x else Completes (.bra neg p off) s x) ∧
    Branches (.call l off) s off (x.putS l (x.pc + 1)) ∧
    (if t = 0 then Completes (.loop a off) s (x.putS a t) else Branches (.loop a off) s off (x.putS a t)) ∧
    CompletesAt (.jmpr a) s (s.rd a) x ∧ CompletesAt (.callr l a) s (s.rd a) (x.putS l (x.pc + 1))) ∧
  (∀ w, fld w 26 6 = 0x12#6 ∧ fld w 21 5 = 0 ∨ fld w 26 6 = 0x10#6 ∧ fld w 24 1 = 1#1 → Reserved w) ∧
  (∀ (p q r : PReg) (l a : Reg) (off : BitVec 21),
    let f := fun d a b fn i => decode (wordR 0x13 d a b fn) = .ok i
    decode (wordB 0x10 (0#2 ++ p) off) = .ok (.bra false p off) ∧ decode (wordB 0x10 (2#2 ++ p) off) = .ok (.bra true p off) ∧
    decode (wordB 0x11 l off) = .ok (.call l off) ∧ (a ≠ 0 → decode (wordB 0x12 a off) = .ok (.loop a off)) ∧
    f 0 a 0 0x001 (.jmpr a) ∧ f l a 0 0x002 (.callr l a) ∧ f (0#2 ++ p) (0#2 ++ q) (0#2 ++ r) 0x010 (.pand p q r) ∧
    f (0#2 ++ p) (0#2 ++ q) (0#2 ++ r) 0x011 (.por p q r) ∧ f (0#2 ++ p) (0#2 ++ q) (0#2 ++ r) 0x012 (.pxor p q r) ∧
    f (0#2 ++ p) (0#2 ++ q) 0 0x013 (.pnot p q) ∧ f (0#2 ++ p) a 0 0x014 (.pmovFromScalar p a) ∧
    f a (0#2 ++ q) 0 0x015 (.pmovToScalar a q)) ∧
  (∀ (s : State) (p q r : PReg) (d a : Reg),
    WritesP (.pand p q r) s p (s.rdP q && s.rdP r) ∧ WritesP (.por p q r) s p (s.rdP q || s.rdP r) ∧
    WritesP (.pxor p q r) s p (s.rdP q ^^ s.rdP r) ∧ WritesP (.pnot p q) s p (!s.rdP q) ∧
    WritesP (.pmovFromScalar p a) s p ((s.rd a).getLsbD 0) ∧ Writes (.pmovToScalar d q) s d (if s.rdP q then 1 else 0))

/-- R103: registers hold what was written last, but s0, which reads 0 and discards writes, and p0, which reads 1 and discards writes. -/
def Obligations.RegisterFiles : Prop := ∀ (x : Thread) (v : W64) (u : Vec) (b : Bool),
  (∀ d r : Reg, (x.putS d v).sreg r = if r = 0 then 0 else if r = d then v else x.sreg r) ∧
  (∀ d r : VReg, (x.putV d u).vreg r = if r = d then u else x.vreg r) ∧
  (∀ d r : PReg, (x.putP d b).pred r = if r = 0 then true else if r = d then b else x.pred r) ∧
  (∀ d : Reg, ∃ regs, x.putS d v = { x with regs := regs }) ∧ (∀ d : VReg, ∃ vregs, x.putV d u = { x with vregs := vregs }) ∧
  (∀ d : PReg, ∃ preds, x.putP d b = { x with preds := preds })

/-- R123 to R127: the scalar floating-point instructions write the FP32 result of the operation on bits [31:0] of their sources, zero-extended,
and raise its flags; FCMP writes a predicate, FCLASS sets no flag, and FCVT sign-extends an integer result. -/
def Obligations.ScalarFloat : Prop := ∀ (s : State) (d a b : Reg) (p : PReg) (c : FCond) (dst src : Fmt),
  let x := lo32 (s.rd a)
  let y := lo32 (s.rd b)
  let z := lo32 (s.rd d)
  let m := s.mode
  let fp := fun (i : Instr) (r : Nat × FFlags) => Completes i s ((flagged (self s) r.2).putS d (BitVec.ofNat 64 r.1))
  fp (.fadd d a b) (fadd fp32 m x y) ∧ fp (.fsub d a b) (fsub fp32 m x y) ∧ fp (.fmul d a b) (fmul fp32 m x y) ∧
  fp (.fdiv d a b) (fdiv fp32 m x y) ∧ fp (.fsqrt d a) (fsqrt fp32 m x) ∧
  fp (.fmin d a b) (fminmax fp32 false x y) ∧ fp (.fmax d a b) (fminmax fp32 true x y) ∧
  fp (.fma d a b) (fmaGen fp32 m false false x y z) ∧ fp (.fms d a b) (fmaGen fp32 m false true x y z) ∧
  fp (.fnma d a b) (fmaGen fp32 m true false x y z) ∧
  Completes (.fcmp p c a b) s ((flagged (self s) (fcompare fp32 c x y).2).putP p (fcompare fp32 c x y).1) ∧
  Writes (.fclass d a) s d (BitVec.ofNat 64 (fclassBits x)) ∧
  (let r := cvtBits dst src m (s.rd a).toNat
   Completes (.fcvt d a dst src) s ((flagged (self s) r.2).putS d
     (if dst.isInt then BitVec.ofInt 64 (toSigned (intWidth dst) r.1) else BitVec.ofNat 64 r.1)))

/-- R49, R124, R125, R126: the special cases of the arithmetic, in each of the three formats and in every rounding mode. A NaN operand gives
the canonical NaN, with NV exactly when one is signalling; ∞ − ∞, ∞ × 0, 0/0, ∞/∞ and the root of a negative number give it with NV; a finite
nonzero number divided by zero gives an infinity with DZ; √−0 is −0 and √+∞ is +∞; comparisons with a NaN are false but for `ne`. -/
def Obligations.FloatSpecialCases : Prop := ∀ (f : FpFmt), f = fp32 ∨ f = fp16 ∨ f = bf16 → ∀ (m x y : Nat) (n : Bool),
  ((fdec f x).isNan = true ∨ (fdec f y).isNan = true →
    let fl : FFlags := if (fdec f x).isSig || (fdec f y).isSig then fNV else 0
    fadd f m x y = (f.nan, fl) ∧ fsub f m x y = (f.nan, fl) ∧ fmul f m x y = (f.nan, fl) ∧ fdiv f m x y = (f.nan, fl) ∧
    (∀ c, fcompare f c x y = (decide (c = .ne), fl))) ∧
  fadd f m (f.inf n) (f.inf !n) = (f.nan, fNV) ∧ fsub f m (f.inf n) (f.inf n) = (f.nan, fNV) ∧
  fmul f m (f.inf n) (f.zero false) = (f.nan, fNV) ∧ fmul f m (f.zero true) (f.inf n) = (f.nan, fNV) ∧
  fdiv f m (f.zero n) (f.zero false) = (f.nan, fNV) ∧ fdiv f m (f.inf n) (f.inf false) = (f.nan, fNV) ∧
  (∀ neg mant ex, fdec f x = .fin neg mant ex → mant ≠ 0 → fdiv f m x (f.zero n) = (f.inf (neg ^^ n), fDZ)) ∧
  (∀ mant ex, fdec f x = .fin true mant ex → mant ≠ 0 → fsqrt f m x = (f.nan, fNV)) ∧
  fsqrt f m (f.zero true) = (f.zero true, 0) ∧ fsqrt f m (f.inf false) = (f.inf false, 0) ∧ fsqrt f m (f.inf true) = (f.nan, fNV)

/-- R129, R130, R134: the lane-wise integer instructions, for every lane of every lane type that they take. -/
def Obligations.VectorInteger : Prop := ∀ (s : State) (lt : LaneType) (g : PReg) (d a b : VReg), lt.isInt = true →
  let w := lt.width
  let x := fun n => lane w (s.rdV a) n
  let y := fun n => lane w (s.rdV b) n
  let int := fun (i : Instr) (f : Nat → Nat) => LaneWise i s lt g d 0 [0] f
  let lo : Int := -(2 ^ (w - 1) : Nat)
  let hi : Int := (2 ^ (w - 1) : Nat) - 1
  int (.vadd lt g d a b) (fun n => x n + y n) ∧ int (.vsub lt g d a b) (fun n => wrapTo w ((x n : Int) - y n)) ∧
  int (.vmul lt g d a b) (fun n => x n * y n) ∧
  int (.vmin lt g d a b) (fun n => if sgn w (x n) ≤ sgn w (y n) then x n else y n) ∧
  int (.vmax lt g d a b) (fun n => if sgn w (x n) ≤ sgn w (y n) then y n else x n) ∧
  int (.vabs lt g d a) (fun n => if x n = 2 ^ (w - 1) then 2 ^ (w - 1) - 1 else (sgn w (x n)).natAbs) ∧
  int (.vadds lt g d a b) (fun n => wrapTo w (max lo (min hi (sgn w (x n) + sgn w (y n))))) ∧
  int (.vsubs lt g d a b) (fun n => wrapTo w (max lo (min hi (sgn w (x n) - sgn w (y n))))) ∧
  int (.vshl lt g d a b) (fun n => x n * 2 ^ (y n % w)) ∧ int (.vshr lt g d a b) (fun n => x n / 2 ^ (y n % w)) ∧
  int (.vsra lt g d a b) (fun n => wrapTo w (sgn w (x n) / (2 : Int) ^ (y n % w))) ∧
  (∀ code, (code, lt) ∈ [(0#3, .i32), (2#3, .i16), (5#3, .i8)] →
    let v := fun m fn i => decode (wordV m d a b code g fn) = .ok i
    v 0x14 0x01 (.vadd lt g d a b) ∧ v 0x14 0x02 (.vsub lt g d a b) ∧ v 0x14 0x03 (.vmul lt g d a b) ∧ v 0x14 0x04 (.vmin lt g d a b) ∧
    v 0x14 0x05 (.vmax lt g d a b) ∧ decode (wordV 0x14 d a 0 code g 0x06) = .ok (.vabs lt g d a) ∧ v 0x14 0x07 (.vadds lt g d a b) ∧
    v 0x14 0x08 (.vsubs lt g d a b)) ∧
  (∀ v, fld v 26 6 = 0x14#6 → let fn := (fld v 0 8).toNat
    fn = 0 ∨ 8 < fn ∨ fn = 6 ∧ fld v 14 4 ≠ 0 ∨ fld v 11 3 ∉ [0#3, 2#3, 5#3] → Reserved v)

/-- R131, R132, R138: the lane-wise floating-point instructions compute each lane in the lane format and raise the flags of all lanes
together. -/
def Obligations.VectorFloat : Prop := ∀ (s : State) (lt : LaneType) (g : PReg) (d a b : VReg),
  let f := laneFp lt
  let m := s.mode
  let x := fun n => lane lt.width (s.rdV a) n
  let y := fun n => lane lt.width (s.rdV b) n
  let z := fun n => lane lt.width (s.rdV d) n
  LaneWiseFp (.vfadd lt g d a b) s lt g d (fun n => fadd f m (x n) (y n)) ∧ LaneWiseFp (.vfsub lt g d a b) s lt g d (fun n => fsub f m (x n) (y n)) ∧
  LaneWiseFp (.vfmul lt g d a b) s lt g d (fun n => fmul f m (x n) (y n)) ∧ LaneWiseFp (.vfdiv lt g d a b) s lt g d (fun n => fdiv f m (x n) (y n)) ∧
  LaneWiseFp (.vfmin lt g d a b) s lt g d (fun n => fminmax f false (x n) (y n)) ∧
  LaneWiseFp (.vfmax lt g d a b) s lt g d (fun n => fminmax f true (x n) (y n)) ∧
  LaneWiseFp (.vfma lt g d a b) s lt g d (fun n => fmaGen f m false false (x n) (y n) (z n)) ∧
  LaneWiseFp (.vfms lt g d a b) s lt g d (fun n => fmaGen f m false true (x n) (y n) (z n)) ∧
  LaneWiseFp (.vlog2 g d a) s .f32 g d (fun n => flog2 (lane 32 (s.rdV a) n)) ∧
  LaneWiseFp (.vexp2 g d a) s .f32 g d (fun n => fexp2 (lane 32 (s.rdV a) n))

/-- R133: VCMP and VFCMP bring the lanes to one predicate. With the guard clear `any` gives 0 and `all` gives 1, and no flag is set;
the subfields' other values are reserved. -/
def Obligations.VectorCompare : Prop := ∀ (s : State) (lt : LaneType) (g p : PReg) (all : Bool) (c : Cond) (fc : FCond) (a b : VReg),
  let x := fun n => lane lt.width (s.rdV a) n
  let y := fun n => lane lt.width (s.rdV b) n
  let holds := fun (q : Nat → Prop) => if s.rdP g then (if all then ∀ n, n < lt.lanes → q n else ∃ n, n < lt.lanes ∧ q n) else (all : Prop)
  (∃ r, WritesP (.vcmp lt g p all c a b) s p r ∧ (r = true ↔ holds (fun n => conditionMeans c (BitVec.ofInt 64 (sgn lt.width (x n))) (BitVec.ofInt 64 (sgn lt.width (y n)))))) ∧
  (∃ r, Completes (.vfcmp lt g p all fc a b) s ((flagged (self s)
      (if s.rdP g then flagUnion ((List.range lt.lanes).map (fun n => ((0 : Nat), (fcompare (laneFp lt) fc (x n) (y n)).2))) else 0)).putP p r) [10, 0] ∧
    (r = true ↔ holds (fun n => (fcompare (laneFp lt) fc (x n) (y n)).1 = true))) ∧
  (∀ w, fld w 26 6 = 0x17#6 → let cls := (fld w 3 3).toNat
    let cond := (fld w 0 3).toNat
    fld w 25 1 ≠ 0 ∨ fld w 7 1 ≠ 0 ∨ 2 ≤ cls ∨ cls = 0 ∧ 6 ≤ cond ∨ cls = 1 ∧ 4 ≤ cond → Reserved w) ∧
  (∀ code n, (code, lt) ∈ [(0#3, .i32), (2#3, .i16), (5#3, .i8)] →
    (n, c) ∈ [(0#3, .eq), (1#3, .ne), (2#3, .lt), (3#3, .ge), (4#3, .ltu), (5#3, .geu)] →
    decode (wordV 0x17 (0#1 ++ p) a b code g (0#2 ++ 0#3 ++ n)) = .ok (.vcmp lt g p false c a b) ∧
    decode (wordV 0x17 (0#1 ++ p) a b code g (1#2 ++ 0#3 ++ n)) = .ok (.vcmp lt g p true c a b)) ∧
  (∀ code n, (code, lt) ∈ [(1#3, .f32), (3#3, .f16), (4#3, .bf16)] →
    (n, fc) ∈ [(0#3, .eq), (1#3, .ne), (2#3, .lt), (3#3, .le)] →
    decode (wordV 0x17 (0#1 ++ p) a b code g (0#2 ++ 1#3 ++ n)) = .ok (.vfcmp lt g p false fc a b) ∧
    decode (wordV 0x17 (0#1 ++ p) a b code g (1#2 ++ 1#3 ++ n)) = .ok (.vfcmp lt g p true fc a b))

/-- R134, R135, R139: the bitwise operations, and the moves of lanes; every source is read before the destination is written; a
parameter outside its limit is reserved. -/
def Obligations.VectorMoves : Prop := ∀ (s : State) (lt : LaneType) (g : PReg) (d a b : VReg) (r : Reg) (l k : BitVec 6),
  let w := lt.width
  let n := lt.lanes
  let x := fun i => lane w (s.rdV a) i
  let y := fun i => lane w (s.rdV b) i
  let cat := fun j => if j < n then x j else y (j - n)
  let mv := fun (i : Instr) (f : Nat → Nat) => LaneWise i s lt g d 0 [0] f
  WritesV (.vand g d a b) s g d (s.rdV a &&& s.rdV b) ∧ WritesV (.vor g d a b) s g d (s.rdV a ||| s.rdV b) ∧
  WritesV (.vxor g d a b) s g d (s.rdV a ^^^ s.rdV b) ∧
  WritesV (.vsel g d a b) s g d ((s.rdV d &&& s.rdV a) ||| (~~~(s.rdV d) &&& s.rdV b)) ∧ WritesV (.vmovp g d a) s g d (s.rdV a) ∧
  mv (.vbcast lt g d a l) (fun _ => x l.toNat) ∧ mv (.vperm lt g d a b) (fun i => x (y i % n)) ∧
  mv (.vshuf lt g d a b .ziplo) (fun i => if i % 2 = 0 then x (i / 2) else y (i / 2)) ∧
  mv (.vshuf lt g d a b .ziphi) (fun i => if i % 2 = 0 then x (i / 2 + n / 2) else y (i / 2 + n / 2)) ∧
  mv (.vshuf lt g d a b .unzipe) (fun i => if i < n / 2 then cat (2 * i) else cat (n + 2 * (i - n / 2))) ∧
  mv (.vshuf lt g d a b .unzipo) (fun i => if i < n / 2 then cat (2 * i + 1) else cat (n + 2 * (i - n / 2) + 1)) ∧
  mv (.vslide lt g d a b k) (fun i => cat (i + k.toNat)) ∧ mv (.vmovs lt g d r) (fun _ => (s.rd r).toNat) ∧
  mv (.vins lt g d r l) (fun i => if i = l.toNat then (s.rd r).toNat else lane w (s.rdV d) i) ∧
  Completes (.vext lt g r d l) s (if s.rdP g then (self s).putS r
    (if lt.isInt then BitVec.ofInt 64 (sgn w (lane w (s.rdV d) l.toNat)) else BitVec.ofNat 64 (lane w (s.rdV d) l.toNat)) else self s) ∧
  (∀ v, fld v 26 6 = 0x19#6 → let sel := (fld v 6 2).toNat
    let p := (fld v 0 6).toNat
    decLane (fld v 11 3) = some lt → (sel = 0 ∨ sel = 3) ∧ n ≤ p ∨ sel = 0 ∧ fld v 14 4 ≠ 0 ∨ sel = 1 ∧ p ≠ 0 ∨ sel = 2 ∧ 4 ≤ p → Reserved v) ∧
  (∀ code, (code, lt) ∈ [(0#3, .i32), (1#3, .f32), (2#3, .i16), (3#3, .f16), (4#3, .bf16), (5#3, .i8)] →
    (l.toNat < n → decode (wordV 0x19 d a 0 code g (0#2 ++ l)) = .ok (.vbcast lt g d a l)) ∧
    decode (wordV 0x19 d a b code g (1#2 ++ 0#6)) = .ok (.vperm lt g d a b) ∧
    (∀ m kind, (m, kind) ∈ [(0#6, .ziplo), (1#6, .ziphi), (2#6, .unzipe), (3#6, .unzipo)] →
      decode (wordV 0x19 d a b code g (2#2 ++ m)) = .ok (.vshuf lt g d a b kind)) ∧
    (k.toNat < n → decode (wordV 0x19 d a b code g (3#2 ++ k)) = .ok (.vslide lt g d a b k)))

/-- R136, R137: reductions, with the identity of R71 when no lane is active, and conversions between lane types. The three forms of VCVT write
the lanes that their part names, and leave the other lanes of a wider file alone. -/
def Obligations.VectorReduceConvert : Prop := ∀ (s : State) (lt src dst : LaneType) (g : PReg) (d a : VReg) (op : RedOp) (part : BitVec 2),
  let l := lanes lt (s.rdV a)
  let xs := if s.rdP g then l.map (sgn lt.width) else []
  (lt.isInt = true → Completes (.vred lt g d a op) s ((self s).putV d (BitVec.ofNat 512 (wrapTo 64 (match op with
    | .sum => xs.foldr (· + ·) 0
    | .max => xs.foldr max (-(2 ^ (lt.width - 1) : Nat))
    | .min => xs.foldr min ((2 ^ (lt.width - 1) : Nat) - 1)))))) ∧
  (lt.isInt = false →
    let r := (treeReduce (redStep (laneFp lt) s.mode op) 6
      (l.map (fun x => (if s.rdP g then x else redIdentity (laneFp lt) op, (0 : FFlags))))).headD (0, 0)
    Completes (.vred lt g d a op) s ((flagged (self s) r.2).putV d (BitVec.ofNat 512 r.1)) [10, 0]) ∧
  (let ns := src.lanes
   let nd := dst.lanes
   let cv := fun i => cvtBits (laneFmt dst) (laneFmt src) s.mode (lane src.width (s.rdV a) i)
   let first := if nd < ns then part.toNat * nd else 0
   LaneWise (.vcvt src dst g d a part) s dst g d (flagUnion ((List.range (min ns nd)).map (fun i => cv (first + i))))
     (if src.isFloat || dst.isFloat then [10, 0] else [0])
     (fun j => if ns < nd then (if part.toNat * ns ≤ j ∧ j < part.toNat * ns + ns then (cv (j - part.toNat * ns)).1 else lane dst.width (s.rdV d) j)
       else (cv (first + j)).1))

/-- R183: the words of a trap record, field by field, for every thread, cause, subcode and detail. -/
def Obligations.TrapRecord : Prop := ∀ (s : State) (t : Nat) (i : TrapInfo), t < 1280 → i.cause < 256 → i.sub < 65536 → i.detail < 65536 →
  let r := s.record t i
  bits r.w0.toNat 63 56 = i.cause ∧ bits r.w0.toNat 55 52 = t % 16 ∧ bits r.w0.toNat 51 50 = t / 16 % 4 ∧ bits r.w0.toNat 49 45 = t / 64 ∧
  bit r.w0.toNat 44 = i.gangp ∧ bits r.w0.toNat 43 32 = 0 ∧ bits r.w0.toNat 31 0 = (s.wordAt t).toNat ∧
  r.w1 = (s.thr t).pc ∧ r.w2 = i.w2 ∧
  bits r.w3.toNat 63 32 = s.time.toNat % 2 ^ 32 ∧ bits r.w3.toNat 31 16 = i.sub ∧ bits r.w3.toNat 15 0 = i.detail

/-- R183, R186, R341, R342: taking a trap in a slot that is not the handler's, when no freeze is armed (FRZTRIG.EN 0) and no other record has
entered in the cycle. With room in the queue the record enters at its tail and the thread is TRAPPED, with its registers and PC as they were; an
EMPTY handler slot starts at HVEC, also one that a SPAWN has just started, which then reports status 1; the other slots of the core that are parked
in TQPOP become READY; no other thread, no other core, no memory and no register of the package changes. With the queue full the thread waits
PARKED(TRAP) and its record is WAITING. -/
def Obligations.TrapTaken : Prop := ∀ (s : State) (n : Nat) (i : TrapInfo), n < 1280 → bit s.pkg.frztrig.toNat 8 = false →
  n % 16 ≠ s.handlerSlot (n / 16) → (s.core (n / 16)).tqAt ≠ s.sched.cycle + 1 →
  let q := n / 16
  let h := 16 * q + s.handlerSlot q
  let t := s.trap n i
  let r := s.record n i
  let taken := { done (s.thr n) (s.thr n).pc with trapRec := r }
  (∀ m, m / 16 ≠ q → t.thr m = s.thr m) ∧ (∀ p, p ≠ q → t.core p = s.core p) ∧ (∀ k, t.isl k = s.isl k) ∧ t.mem = s.mem ∧ t.tables = s.tables ∧
  t.pkg = s.pkg ∧ t.flights = s.flights ∧
  ((s.core q).tq.length < 16 → (s.core q).waiting = [] →
    (t.core q).tq = (s.core q).tq ++ [r] ∧ (t.core q).waiting = [] ∧
    ((s.thr h).st = .empty ∨ (∀ d, (s.thr h).spawner ≠ some (s.sched.cycle + 1, n, d)) → t.thr n = { taken with st := .trapped, wait := .none }) ∧
    ((s.thr h).st = .empty → t.thr h = started s h (s.hvec q)) ∧
    ((s.thr h).st = .empty ∨ (s.thr h).spawner = none → ∀ m, m / 16 = q → m ≠ n → (s.thr h).st = .empty ∧ m = h ∨
      t.thr m = if (s.thr m).wait = .record then woken s m else s.thr m) ∧
    (∀ p d, (s.thr h).st ≠ .empty → (s.thr h).spawner = some (s.sched.cycle + 1, p, d) → p ≠ h →
      t.thr h = started s h (s.hvec q) ∧ (t.thr p).sreg d = if d = 0 then 0 else 1)) ∧
  ((s.core q).tq.length = 16 →
    (t.core q).tq = (s.core q).tq ∧ (t.core q).waiting = (s.core q).waiting ++ [r] ∧ (∀ m, m ≠ n → t.thr m = s.thr m) ∧
    t.thr n = { taken with st := .parked .trap, wait := .trapRoom, parkedAt := s.cycOf n })

/-- R425: a trap of the handler slot's own thread is a double trap. The core stops, DTREC takes the record with cause 0x14 and the original
cause in bits [15:8] of word 3, the core's bit of CEVENT and bit 3 of INTSTAT are set, and the trap queue and every register of the thread
stay as they were. -/
def Obligations.DoubleTrap : Prop := ∀ (s : State) (n : Nat) (i : TrapInfo), n < 1280 → i.cause < 256 → i.sub < 65536 → i.detail < 65536 →
  bit s.pkg.frztrig.toNat 8 = false → n % 16 = s.handlerSlot (n / 16) →
  let q := n / 16
  let t := s.trap n i
  (t.core q).dbl = true ∧ (t.core q).tq = (s.core q).tq ∧
  bits (t.core q).dtrec.w0.toNat 63 56 = 0x14 ∧ bits (t.core q).dtrec.w0.toNat 55 52 = n % 16 ∧ (t.core q).dtrec.w1 = (s.thr n).pc ∧
  (t.core q).dtrec.w2 = i.w2 ∧ bits (t.core q).dtrec.w3.toNat 15 8 = i.cause ∧
  bit (t.col (n / 64)).cevent.toNat (q % 4) = true ∧ bit t.pkg.intstat.toNat 3 = true ∧
  t.thr n = done (s.thr n) (s.thr n).pc ∧ (∀ m, m ≠ n → t.thr m = s.thr m) ∧ t.mem = s.mem

/-- R83, R111, R186: ILL and every word that is no instruction raise ILLEGAL_INSTR, TRAP raises SOFTWARE with its immediate in word 2, and
BKPT raises BREAKPOINT with subcode 3 and its immediate as the detail. R186: TQPOP at SUPERVISOR. A record at the head goes into four registers and leaves the queue; an empty queue parks the thread (TRAP), or
gives four zeros under `nw`. -/
def Obligations.SoftwareTrapsAndQueue : Prop :=
  (∀ (s : State) (w : Word) (imm : BitVec 12),
    Traps .ill s { cause := 0x01 } ∧ Traps (.reservedEncoding w) s { cause := 0x01 } ∧
    Traps (.trap imm) s { cause := 0x10, w2 := imm.zeroExtend 64 } ∧ Traps (.bkpt imm) s { cause := 0x11, sub := 3, detail := imm.toNat }) ∧
  (∀ (s : State) (d : Reg) (nw : Bool), s.isSuper s.me = true →
    (∀ r rs, (s.core s.myCore).tq = r :: rs → rs.length < 16 → (s.core s.myCore).waiting = [] → ∃ t, exec (.tqpop d nw) s = .next t ∧
      t.thr s.me = done ((self s).putRun d [r.w0, r.w1, r.w2, r.w3]) ((self s).pc + 1) ∧ (∀ m, m ≠ s.me → t.thr m = s.thr m) ∧
      t.core s.myCore = { s.core s.myCore with tq := rs } ∧ (∀ q, q ≠ s.myCore → t.core q = s.core q) ∧ t.mem = s.mem ∧ t.pkg = s.pkg ∧
      Counted s t s.me [0]) ∧
    ((s.core s.myCore).tq = [] → nw = true → Completes (.tqpop d nw) s ((self s).putRun d [0, 0, 0, 0])) ∧
    ((s.core s.myCore).tq = [] → nw = false → Parks (.tqpop d nw) s .trap .record))

/-- R186, R341: TRESUME at SUPERVISOR. A slot that is not TRAPPED gives status 1. Else its record leaves the queue and status 0 is written; with
`retry` it is READY at its PC and with `skip` at the next one, with RESUME set; with `kill` the thread ends, and once it has no store on its way
its slot is EMPTY. -/
def Obligations.TrapResume : Prop := ∀ (s : State) (d a : Reg) (act : ResumeAct), s.isSuper s.me = true →
  let q := s.myCore
  let k := (s.rd a).toNat % 16
  let n := 16 * q + k
  ((s.thr n).st ≠ .trapped → Writes (.tresume d a act) s d 1) ∧
  ((s.thr n).st = .trapped → (s.thr n).wait ≠ .dying → n ≠ s.me → (s.core q).waiting = [] → (s.core q).tq.length ≤ 16 → act ≠ .kill →
    ∃ t, exec (.tresume d a act) s = .next t ∧ (t.core q).tq = (s.core q).tq.filter (fun r => r.slot != k) ∧
      t.thr s.me = done ((self s).putS d 0) ((self s).pc + 1) ∧ (∀ m, m ≠ s.me → m ≠ n → t.thr m = s.thr m) ∧
      t.thr n = { s.thr n with
        pc := if act = .skip then (s.thr n).pc + 1 else (s.thr n).pc, st := s.readySt n, wait := .none, resume := true
        readyFrom := s.cycOf n + 1 } ∧
      t.mem = s.mem ∧ t.pkg = s.pkg ∧ Counted s t s.me [0]) ∧
  ((s.thr n).st = .trapped → (s.thr n).wait = .none → n ≠ s.me → s.outstanding n = [] → act = .kill →
    ∃ t, exec (.tresume d a act) s = .next t ∧ t = ((((s.dropRecord q k).dropRequests n).endThread n).wr d 0).finish ∧ (t.thr n).st = .empty)

/-- R345, R347: SPAWN gives status 2 for a descriptor with reserved bits, 1 for a slot that is not EMPTY, 3 for a USER thread that names a
SUPERVISOR slot, and else starts the slot, named or the lowest EMPTY one, with the initial registers of R103, s1, SEG and CTAG, and status
16 + k. YIELD leaves the thread READY and skips n of its own cycles. R346: EXIT with every channel register UNBOUND. With no store outstanding and no deferred fault, the slot is EMPTY with the initial values of
R103; with a deferred fault the thread traps with it; with a store outstanding it parks (MEM). With a channel register bound it traps with
CHANNEL_GRAMMAR, subcode 0x13. -/
def Obligations.SpawnYieldExit : Prop :=
  (∀ (s : State) (d a : Reg) (n : BitVec 12),
    let w := (s.rd a).toNat
    let q := s.myCore
    let k := bits w 15 12
    Completes (.yield n) s { self s with skips := n.toNat + 1, readyFrom := s.cycOf s.me + 1 } ∧
    (bits w 63 17 ≠ 0 → Writes (.spawn d a) s d 2) ∧
    (bits w 63 17 = 0 → bit w 16 = false → (s.thr (16 * q + k)).st ≠ .empty → Writes (.spawn d a) s d 1) ∧
    (bits w 63 17 = 0 → bit w 16 = true → (∀ j, j < 16 → (s.thr (16 * q + j)).st ≠ .empty) → Writes (.spawn d a) s d 1) ∧
    (bits w 63 17 = 0 → bit w 16 = false → (s.thr (16 * q + k)).st = .empty → s.superSlot q k = true → s.isSuper s.me = false →
      Writes (.spawn d a) s d 3) ∧
    (∀ j, j < 16 → bits w 63 17 = 0 → (if bit w 16 then ∀ i, i < j → (s.thr (16 * q + i)).st ≠ .empty else j = k) → (s.thr (16 * q + j)).st = .empty →
      (s.superSlot q j = true → s.isSuper s.me = true) → 16 * q + j ≠ s.me →
      ∃ t y, exec (.spawn d a) s = .next t ∧ t.thr s.me = done ((self s).putS d (BitVec.ofNat 64 (16 + j))) ((self s).pc + 1) ∧
        t.thr (16 * q + j) = { (({ pc := BitVec.ofNat 64 (bits w 11 0) } : Thread).putS 1 (s.rd d)) with
          st := s.readySt (16 * q + j), seg := (self s).seg, ctag := (self s).ctag, readyFrom := y, spawner := some (s.sched.cycle + 1, s.me, d) } ∧
        (∀ m, m ≠ s.me → m ≠ 16 * q + j → t.thr m = s.thr m) ∧ t.mem = s.mem ∧ t.pkg = s.pkg)) ∧
  (∀ (s : State),
    let unbound := ∀ c, c < 8 → ((self s).chan (BitVec.ofNat 3 c)).st = .unbound
    (unbound → s.outstanding s.me = [] → (self s).deferred = [] → ∃ t, exec .exit s = .next t ∧ t = (s.count s.me 0).endThread s.me ∧
      EmptySlot (self s) (t.thr s.me)) ∧
    (unbound → s.outstanding s.me = [] → ∀ f fs, (self s).deferred = f :: fs →
      exec .exit s = .next ((s.modThr s.me (fun x => { x with deferred := fs })).trap s.me
        { cause := f.cause, sub := 0x10, detail := f.at_, w2 := f.va })) ∧
    (unbound → s.outstanding s.me ≠ [] → Parks .exit s .mem .exit) ∧
    (∀ c, c < 8 → (∀ j, j < c → ((self s).chan (BitVec.ofNat 3 j)).st = .unbound) → ((self s).chan (BitVec.ofNat 3 c)).st ≠ .unbound →
      Traps .exit s { cause := 0x0C, sub := 0x13, detail := c }))

/-- R349, R351: the dealer's instructions send their operation to the dealer and park (MEM) until its answer. R351: DPOP on a dealer that is OPEN takes the requests from the top of the heap that fit the budget, up to the first that does not, or the
top one alone with OVERSIZE; the batch leaves the heap, ITER counts, and the list goes to memory at the translated address. GATED or empty, the
dealer answers 0 and changes nothing. -/
def Obligations.DealerRequestsPop : Prop :=
  (∀ (s : State) (d a : Reg),
    let sent := fun (i : Instr) (op : DealerOp) => ∃ t due, exec i s = .next t ∧ s.sched.cycle < due ∧
      t.sched.agenda = s.sched.agenda ++ [(due, .dealerOperation s.me op)] ∧
      t.thr s.me = { self s with st := .parked .mem, wait := .reply, parkedAt := s.cycOf s.me } ∧ (∀ m, m ≠ s.me → t.thr m = s.thr m) ∧
      t.disp = s.disp ∧ t.mem = s.mem ∧ t.pkg = s.pkg
    sent (.dpush d a) (.push (s.rd a) (s.rd d) d) ∧ sent (.dkey d a) (.key (s.rd a) d) ∧ sent (.ddel d a) (.del (s.rd a) d) ∧
    sent (.dpop d a) (.pop (s.rd a) d)) ∧
  (∀ (s : State) (t : Nat) (list : W64) (d : Reg), (s.thr t).wait = .reply →
    let b := dealBatch s.pkg.tbudget.toNat s.disp.heap
    let n := 16 * b.1.length
    (s.disp.dealerGate = true ∨ s.disp.heap = [] → ∃ u, exec (.dealerOperation t (.pop list d)) s = .next u ∧ Answers s u t d 0 ∧ u.disp = s.disp ∧
      u.pkg = s.pkg ∧ u.mem = s.mem) ∧
    (∀ g via, s.disp.dealerGate = false → s.disp.heap ≠ [] → list.toNat % 16 = 0 → s.watchpoint t list.toNat n false true = none →
      s.translate t list.toNat n permW = .ok g via → s.mapExtent g n .bulk list.toNat = none →
      ∃ u, exec (.dealerOperation t (.pop list d)) s = .next u ∧ u.disp = { s.disp with heap := s.disp.heap.filter (fun r => !b.1.contains r) } ∧
        u.pkg = { s.pkg with iter := s.pkg.iter + 1 } ∧ u.mem = s.mem ∧
        (∃ a ∈ u.flights, a.agent = .thread t ∧ a.size = n ∧
          SameOp a.op (.scatter (s.pieces (inWindow list.toNat) g list.toNat 0 n) (wordsTable (batchWords b.2 b.1)) false
            (.done [(d, BitVec.ofNat 64 (s.pkg.iter.toNat * 2 ^ 32 + demandSum b.1 * 2 ^ 9 + b.1.length))] [])))) ∧
    (s.disp.dealerGate = false → s.disp.heap ≠ [] → list.toNat % 16 ≠ 0 → (s.thr t).retrans = false →
      exec (.dealerOperation t (.pop list d)) s = .next (s.trap t { cause := 0x03, w2 := list })))

/-- R349: one operation at the dealer, for a thread that waits for it. DPUSH, DKEY and DDEL change the heap exactly as their statuses say; the
order of the heap stays by deadline and identifier, and no identifier stands twice. -/
def Obligations.DealerOperations : Prop := ∀ (s : State) (t : Nat) (key demand : W64) (d : Reg), (s.thr t).wait = .reply →
  let heap := s.disp.heap
  let id := keyIdent key
  let known := ∃ r ∈ heap, r.ident = id
  let did := fun (op : DealerOp) (v : Nat) (mem : DealReq → Prop) => ∃ u, exec (.dealerOperation t op) s = .next u ∧ Answers s u t d v ∧
    (∀ r, r ∈ u.disp.heap ↔ mem r) ∧ (heap.Pairwise DealBefore → u.disp.heap.Pairwise DealBefore) ∧ u.mem = s.mem ∧ (∀ m, u.thr m = s.thr m)
  let new : DealReq := { ident := id, deadline := keyDeadline key, demand := demand.setWidth 16 }
  (known → did (.push key demand d) 2 (· ∈ heap)) ∧
  (¬known → heap.length = 256 → did (.push key demand d) 1 (· ∈ heap)) ∧
  (¬known → heap.length < 256 → demand = 0 ∨ 65535 < demand.toNat → did (.push key demand d) 3 (· ∈ heap)) ∧
  (¬known → heap.length < 256 → demand ≠ 0 → demand.toNat ≤ 65535 → did (.push key demand d) 0 (fun r => r = new ∨ r ∈ heap)) ∧
  (¬known → did (.key key d) 4 (· ∈ heap)) ∧ (¬known → did (.del key d) 4 (· ∈ heap)) ∧
  (known → did (.del key d) 0 (fun r => r ∈ heap ∧ r.ident ≠ id)) ∧
  (∀ x ∈ heap, x.ident = id → (∀ y ∈ heap, y.ident = id → y = x) →
    did (.key key d) 0 (fun r => r = { x with deadline := keyDeadline key } ∨ r ∈ heap ∧ r.ident ≠ id))

/-- R341, R428: a halt that HMASK asks for takes a READY slot to HALTED and cancels its skips, a resume takes it back to READY; R403: a wait that
has lasted more than LIMIT rotations traps with WATCHDOG and the code of its reason. -/
def Obligations.HaltsAndWatchdog : Prop := ∀ (s : State) (n : Nat),
  let asked := (s.core (coreOf n)).hmask.getLsbD (slotOf n)
  ((s.thr n).st = .ready → asked = true →
    exec (.debugHalt n) s = .next (s.modThr n (fun x => { x with st := .halted, skips := 0 }))) ∧
  ((s.thr n).st = .halted → asked = false →
    exec (.debugResume n) s = .next (s.modThr n (fun x => { x with st := .ready, readyFrom := s.cycOf n }))) ∧
  (∀ c, (s.thr n).st = .parked .chan → (s.thr n).wait = .chan c → (s.col (colOf n)).wdlimit ≠ 0 →
    (s.thr n).parkedAt + 16 * (s.col (colOf n)).wdlimit.toNat < (s.col (colOf n)).cyc → s.flights = [] →
    exec (.waitWatchdog n) s = .next (s.trap n { cause := 0x13, sub := 3 }))

/-- R206, R207, R209, R210, R219: loads. Past the checks, each sends a read of its size to the global address, with the destination, the extension
and the ordering that it names; LDS and LDSE wait at the owner for FULL, and LDSE empties. R204, R208, R211, R219: stores. Past the checks each sends the low bytes of its scalar register, or its vector register, with the release scope
that it names; STF sets the words FULL as well. -/
def Obligations.LoadsAndStores : Prop :=
  (∀ (s : State) (z : MSize) (sc : Scope) (d b : Reg) (off : BitVec 8) (g : Nat) (via : List Via),
    let n := z.bytes
    let va := (s.rd b + off.signExtend 64 * BitVec.ofNat 64 n).toNat
    let a := fun (op : AccOp) (acq : Bool) => ({ agent := .thread s.me, op := op, ga := g, va := va, size := n, acq := acq, via := via } : Access)
    (Reaches s va n n .plain permR true false g via → gaSpace g ≠ 5 →
      Makes (.ld z d b off) s (a (.load z true d) false) ∧ Makes (.ldu z d b off) s (a (.load z false d) false) ∧
      Makes (.ldAcq z sc d b off) s (a (.load z true d) true) ∧ Makes (.lduAcq z sc d b off) s (a (.load z false d) true)) ∧
    (Reaches s va n n .fe permR true false g via → gaSpace g ≠ 5 →
      Makes (.lds z d b off) s (a (.fe z false d) false) ∧ Makes (.ldse z d b off) s (a (.fe z true d) false))) ∧
  (∀ (s : State) (z : MSize) (sc : Scope) (d b : Reg) (off : BitVec 8) (g : Nat) (via : List Via),
    let n := z.bytes
    let va := (s.rd b + off.signExtend 64 * BitVec.ofNat 64 n).toNat
    let data := if z = .v then (s.rdV (d.setWidth 4)).toNat else (s.rd d).toNat % 2 ^ (8 * n)
    let a := fun (full : Bool) (rel : Option Scope) =>
      ({ agent := .thread s.me, op := .store z full data, ga := g, va := va, size := n, rel := rel, via := via } : Access)
    (Reaches s va n n .plain permW false true g via → gaSpace g ≠ 5 →
      Makes (.st z d b off) s (a false none) ∧ Makes (.stRel z sc d b off) s (a false (some sc))) ∧
    (Reaches s va n n .fe permW false true g via → gaSpace g ≠ 5 → Makes (.stf z d b off) s (a true none)))

/-- R213, R214, R217, R218: atomics need R and A permission and carry operand and compare value; FESET and FECLR need W permission over all their
words; VAMO takes the low 32 bytes of its vector register. -/
def Obligations.Atomics : Prop := ∀ (s : State) (z : AmoSize) (o : AmoOrd) (d a b : Reg) (n : BitVec 8) (op : VamoOp) (lt : LaneType) (v : VReg)
    (g : Nat) (via : List Via),
  let va := (s.rd a).toNat
  let k := n.toNat + 1
  let at_ : Access := { agent := .thread s.me, op := .regLoad 0, ga := g, va := va, size := amoBytes z, via := via }
  let amo := fun (i : Instr) (code : Nat) =>
    Makes i s { at_ with op := .amo code z d (s.rd b) (s.rd d), acq := amoAcq o, rel := amoRel o }
  let bits := fun (i : Instr) (full : Bool) =>
    Makes i s { agent := .thread s.me, op := .feBits full k, ga := g, va := va, size := 8 * k, via := via }
  (Reaches s va (amoBytes z) (amoBytes z) .atomic (permR ||| permA) true true g via →
    amo (.amoadd z o d a b) 0 ∧ amo (.amoand z o d a b) 1 ∧ amo (.amoor z o d a b) 2 ∧ amo (.amoxor z o d a b) 3 ∧ amo (.amomin z o d a b) 4 ∧
    amo (.amomax z o d a b) 5 ∧ amo (.amominu z o d a b) 6 ∧ amo (.amomaxu z o d a b) 7 ∧ amo (.amoswap z o d a b) 8 ∧ amo (.amocas z o d a b) 9) ∧
  (Reaches s va (8 * k) 8 .fe permW false true g via → bits (.feset a n) true ∧ bits (.feclr a n) false) ∧
  (Reaches s va 32 32 .atomic (permR ||| permA) true true g via →
    Makes (.vamo op lt v a) s { agent := .thread s.me, op := .vamo op lt v ((s.rdV v).setWidth 256) [], ga := g, va := va, size := 32, via := via })

/-- R205, R216, R222, R239: FENCE completes when every earlier store is performed to its scope, and else parks (MEM) until it is. A deferred store
fault is reported by the next instruction of majors 0x24 to 0x29 that has passed the checks of R222 before it, and which then has no effect of its
own; an access through an entry that makes it park (RANGE) reports it as well. -/
def Obligations.FencesAndDeferredFaults : Prop :=
  (∀ (s : State) (sc : Scope), (self s).deferred = [] →
    (s.drained s.me sc = true → Completes (.fence sc) s (self s)) ∧ (s.drained s.me sc = false → Parks (.fence sc) s .mem (.fence sc))) ∧
  ∀ (s : State) (sc : Scope) (z : MSize) (d b : Reg) (off : BitVec 8) (y : AmoSize) (o : AmoOrd) (n : BitVec 8)
    (op : VamoOp) (lt : LaneType) (v : VReg) (g : Nat) (via : List Via) (f : Deferred) (fs : List Deferred), (self s).deferred = f :: fs →
  let k := z.bytes
  let va := (s.rd b + off.signExtend 64 * BitVec.ofNat 64 k).toNat
  let at_ := (s.rd b).toNat
  let words := n.toNat + 1
  let amo := amoBytes y
  let reports := fun (i : Instr) =>
    exec i s = .next ((s.modThr s.me (fun x => { x with deferred := fs })).trapMe { cause := f.cause, sub := 0x10, detail := f.at_, w2 := f.va })
  reports (.fence sc) ∧
  (Passes s va k k .plain permR true false g via → gaSpace g ≠ 5 → ∀ i ∈ ([.ld z d b off, .ldAcq z sc d b off, .ldu z d b off, .lduAcq z sc d b off] :
    List Instr), reports i) ∧
  (Passes s va k k .fe permR true false g via → gaSpace g ≠ 5 → reports (.lds z d b off) ∧ reports (.ldse z d b off)) ∧
  (Passes s va k k .plain permW false true g via → gaSpace g ≠ 5 → reports (.st z d b off) ∧ reports (.stRel z sc d b off)) ∧
  (Passes s va k k .fe permW false true g via → gaSpace g ≠ 5 → reports (.stf z d b off)) ∧
  (Passes s at_ amo amo .atomic (permR ||| permA) true true g via → gaSpace g ≠ 5 → ∀ i ∈ ([.amoadd y o d b b, .amoand y o d b b, .amoor y o d b b,
    .amoxor y o d b b, .amomin y o d b b, .amomax y o d b b, .amominu y o d b b, .amomaxu y o d b b, .amoswap y o d b b, .amocas y o d b b] :
    List Instr), reports i) ∧
  (Passes s at_ (8 * words) 8 .fe permW false true g via → gaSpace g ≠ 5 → reports (.feset b n) ∧ reports (.feclr b n)) ∧
  (Passes s at_ 32 32 .atomic (permR ||| permA) true true g via → gaSpace g ≠ 5 → reports (.vamo op lt v b)) ∧
  (∀ tbl i share, va % k = 0 → s.watchpoint s.me va k true false = none → s.translate s.me va k permR = .wait tbl i share → reports (.ld z d b off))

/-- R206, R222, R189, R184, R170: the order in which an access is checked. A misaligned address, or a size that space 0x5 does not take, traps before
a watchpoint, a watchpoint before translation, a fault of translation before the map, and the map before the privilege of space 0x5. -/
def Obligations.AccessChecks : Prop := ∀ (s : State) (z : MSize) (d b : Reg) (off : BitVec 8), (self s).retrans = false →
  let n := z.bytes
  let va := (s.rd b + off.signExtend 64 * BitVec.ofNat 64 n).toNat
  let ld := Instr.ld z d b off
  let st := Instr.st z d b off
  let space5 := fun (k : BitVec 5) => ∃ g via, s.translate s.me va n k = .ok g via ∧ gaSpace g = 5
  let fits := fun (k : BitVec 5) => va % n = 0 ∧ (z = .d ∨ ¬space5 k)
  let watched := fun (k : Nat) => let lo := ((s.core (coreOf s.me)).wpa.getD k 0).toNat / 2 ^ bits ((s.core (coreOf s.me)).wpc.getD k 0).toNat 37 32
    { cause := 0x12, detail := k, w2 := BitVec.ofNat 64 (if n ≤ 8 then va
      else max (va / 8 * 8) (lo * 2 ^ bits ((s.core (coreOf s.me)).wpc.getD k 0).toNat 37 32)) : TrapInfo }
  (va % n ≠ 0 → Traps ld s (misaligned va) ∧ Traps st s (misaligned va)) ∧
  (space5 permR → z ≠ .d → Traps ld s (misaligned va)) ∧ (space5 permW → z ≠ .d → Traps st s (misaligned va)) ∧
  (∀ k, fits permR → s.watchpoint s.me va n true false = some k → Traps ld s (watched k)) ∧
  (∀ k, fits permW → s.watchpoint s.me va n false true = some k → Traps st s (watched k)) ∧
  (∀ w, va % n = 0 → s.watchpoint s.me va n true false = none → s.translate s.me va n permR = .fault w → Traps ld s w) ∧
  (∀ w, va % n = 0 → s.watchpoint s.me va n false true = none → s.translate s.me va n permW = .fault w → Traps st s w) ∧
  (∀ g via w, fits permR → s.watchpoint s.me va n true false = none → s.translate s.me va n permR = .ok g via →
    s.mapExtent g n .plain va = some w → Traps ld s w) ∧
  (∀ g via w, fits permW → s.watchpoint s.me va n false true = none → s.translate s.me va n permW = .ok g via →
    s.mapExtent g n .plain va = some w → Traps st s w) ∧
  (∀ g via, Passes s va n n .plain permR true false g via → gaSpace g = 5 → z = .d → s.isSuper s.me = false → Traps ld s { cause := 0x18 }) ∧
  (∀ g via, Passes s va n n .plain permW false true g via → gaSpace g = 5 → z = .d → s.isSuper s.me = false → Traps st s { cause := 0x18 })

/-- R190, R356, R358, R365: translation, which sees the entries as they stood at the start of the cycle. An access below 1 MiB goes through the
core's window, and one that crosses its end misses; above it, no entry hit is RANGE_MISS, two are RANGE_OVERLAP, and one gives the address plus its
offset when the bytes lie below its limit, every permission stands, the entry is not MOVING and its residency window holds the bytes. -/
def Obligations.Translation : Prop := ∀ (s : State) (t va n : Nat) (k : BitVec 5), 0 < n → t < 1280 →
  let tbl := coreOf t
  let hits := s.hits tbl (s.thr t).context va
  (va + n ≤ 2 ^ 20 → ∃ g, s.translate t va n k = .ok g [] ∧ gaPkg g = s.pkg.pkgNo.toNat ∧ gaSpace g = 1 ∧ gaOwner g = colOf t ∧
    gaOff g = ((t / 16 % 4) * 0x100000 + (s.thr t).seg.toNat * 0x1000 + va) % 0x400000) ∧
  (va < 2 ^ 20 → 2 ^ 20 < va + n → s.translate t va n k = tfault 0x04 1 0 va) ∧
  (2 ^ 20 ≤ va → 2 ^ 48 < va + n → s.translate t va n k = tfault 0x04 1 0 va) ∧
  (2 ^ 20 ≤ va → va + n ≤ 2 ^ 48 → hits = [] → s.translate t va n k = tfault 0x04 1 0 va) ∧
  (∀ i j l, 2 ^ 20 ≤ va → va + n ≤ 2 ^ 48 → hits = i :: j :: l → s.translate t va n k = tfault 0x06 0 (j * 256 + i) va) ∧
  (∀ i, 2 ^ 20 ≤ va → va + n ≤ 2 ^ 48 → hits = [i] →
    let e := s.startEntry tbl i
    (e.limit < va + n → s.translate t va n k = tfault 0x04 2 i va) ∧
    (va + n ≤ e.limit → k &&& ~~~e.perms ≠ 0 → s.translate t va n k = tfault 0x05 0x10 ((k &&& ~~~e.perms).toNat * 256 + i) va) ∧
    (va + n ≤ e.limit → k &&& ~~~e.perms = 0 → e.st = .moving → s.translate t va n k = .wait tbl i false) ∧
    (va + n ≤ e.limit → k &&& ~~~e.perms = 0 → e.st ≠ .moving → max e.rlo e.base ≤ va → va + n ≤ min e.rhi e.limit →
      let g := ((va : Int) + e.offset).toNat
      s.translate t va n k = .ok g [{ tbl := tbl, idx := i, va := va, len := n, ga := g }]) ∧
    (va + n ≤ e.limit → k &&& ~~~e.perms = 0 → e.st ≠ .moving → ¬(max e.rlo e.base ≤ va ∧ va + n ≤ min e.rhi e.limit) → e.fetch = false →
      s.translate t va n k = tfault 0x07 0x30 i va))

/-- R46, R203: memory holds what was written last. Bytes read back little-endian as they were written, and every byte outside the store reads as
before; full/empty bits and error marks are left alone by a plain write of bytes. -/
def Obligations.MemoryHolds : Prop := ∀ (s : State) (g v n : Nat), Within g n →
  (s.writeN g v n).readN g n = v % 256 ^ n ∧ (∀ h, gaSpace h < 4 → Outside g n h → (s.writeN g v n).byte h = s.byte h) ∧
  (s.writeN g v n).mem.fe = s.mem.fe ∧ (s.writeN g v n).mem.marks = s.mem.marks ∧ (s.writeN g v n).mem.blocks = s.mem.blocks ∧
  (s.writeN g v n).mem.host = s.mem.host ∧
  (∀ h f, gaSpace h < 4 → (s.setFull g f).full h = if h % 2 ^ 48 / 8 = g % 2 ^ 48 / 8 then f else s.full h)

/-- R203, R204, R208, R211, R224: a store at its owner. Its bytes stand in memory, every other byte reads as before, the access is gone, an STF to a
space that carries the bits sets its words FULL and a plain store changes no bit, and no thread changes. R207, R209, R210, R214: reads at their owner when no word is bad. A load brings its bytes, extended, to its thread and changes no byte; an LDS or
LDSE whose words are FULL does the same, and LDSE leaves them EMPTY; an atomic brings the old value, sign-extended, and leaves the new one. -/
def Obligations.ReadsAndStoresAtOwner : Prop :=
  (∀ (s : State) (seq : Nat) (a : Access) (z : MSize) (full : Bool) (data : Nat), Served s seq a →
    a.op = .store z full data → Within a.ga a.size →
    ∃ t, exec (.ownerAccess seq) s = .next t ∧ t.readN a.ga a.size = data % 256 ^ a.size ∧
      (∀ h, gaSpace h < 4 → Outside a.ga a.size h → t.byte h = s.byte h) ∧ t.flight seq = none ∧ (∀ m, t.thr m = s.thr m) ∧
      (full = false → ∀ h, t.full h = s.full h) ∧ (full = true → hasFe a.ga = true → t.allFull a.ga a.size = true)) ∧
  (∀ (s : State) (seq n : Nat) (a : Access), Served s seq a → a.agent = .thread n → Within a.ga a.size →
    s.badWord a.ga a.size = none →
    let v := s.readN a.ga a.size
    (∀ z sg d, a.op = .load z sg d → ∃ t, exec (.ownerAccess seq) s = .next t ∧ Replies s t n (loadWrites z sg d v) ∧ t.mem.bytes = s.mem.bytes ∧
      t.mem.fe = s.mem.fe ∧ t.flight seq = none) ∧
    (∀ z e d, a.op = .fe z e d → s.allFull a.ga a.size = true → ∃ t, exec (.ownerAccess seq) s = .next t ∧
      Replies s t n (loadWrites z true d v) ∧ t.mem.bytes = s.mem.bytes ∧ t.flight seq = none ∧
      (e = false → t.mem.fe = s.mem.fe) ∧ (e = true → ∀ i, i < a.size → t.full (a.ga + i) = false)) ∧
    (∀ op z d x c, a.op = .amo op z d x c → a.size = amoBytes z → ∃ t, exec (.ownerAccess seq) s = .next t ∧
      Replies s t n (.done [(d, BitVec.ofInt 64 (toSigned (8 * a.size) v))] []) ∧ t.mem.fe = s.mem.fe ∧ t.flight seq = none ∧
      t.readN a.ga a.size = (match amoNew op (8 * a.size) v (x.toNat % 2 ^ (8 * a.size)) (c.toNat % 2 ^ (8 * a.size)) with
        | some w => w % 256 ^ a.size
        | none => v) ∧
      (∀ h, gaSpace h < 4 → Outside a.ga a.size h → t.byte h = s.byte h)))

/-- R38, R108, R201, R202, R212, R241: the ends of accesses. A reply writes its registers and completes the parked instruction, or traps it; a
request at the head of a wait list is served once its words are FULL, and one that found the list full is sent again; a corrected word becomes
clean without a change of its data. -/
def Obligations.AccessEnds : Prop := ∀ (s : State) (n seq g : Nat) (a : Access),
  (∀ sr vr, (s.thr n).wait = .reply → ∃ t, exec (.memReply n (.done sr vr)) s = .next t ∧
    t.thr n = { done (applyWrites (s.thr n) sr vr) ((s.thr n).pc + 1) with st := s.readySt n, wait := .none, readyFrom := s.cycOf n + 1 } ∧
    OnlyThread s t n ∧ Counted s t n [0]) ∧
  (∀ i, (s.thr n).wait = .reply → exec (.memReply n (.trap i)) s = .next (s.trap n i)) ∧
  (∀ r, (s.thr n).wait ≠ .reply → exec (.memReply n r) s = .next s) ∧
  (∀ z e d, s.flight seq = some a → a.seq = seq → a.op = .fe z e d → a.joined.isSome = true → a.agent = .thread n → s.allFull a.ga a.size = true →
    s.ownerFree a.ga a.turnBytes = true → s.ownerRuns (s.owner a.ga) = true → s.badWord a.ga a.size = none →
    (a.entered = true ∨ (∀ k t, s.owner a.ga ≠ .tile k t) → ∃ t, exec (.feWaitService seq) s = .next t ∧
      Replies s t n (loadWrites z true d (s.readN a.ga a.size)) ∧ t.flight seq = none ∧ t.mem.bytes = s.mem.bytes) ∧
    (a.entered = false → (∃ k t, s.owner a.ga = .tile k t) → ∃ t, exec (.feWaitService seq) s = .next t ∧ t.mem = s.mem ∧
      t.flight seq = some { a with entered := true, due := s.sched.cycle + 2 })) ∧
  ((s.thr n).wait = .feList seq → s.flight seq = some a → a.waiting = true →
    exec (.feWaitResend n) s = .next (s.present { a with joined := none, entered := false })) ∧
  (s.mark g = .correctable → ∃ t, exec (.eccWriteback g) s = .next t ∧ t.mark g = .clean ∧ t.mem.bytes = s.mem.bytes ∧
    (∀ h, h % 2 ^ 48 / 8 ≠ g % 2 ^ 48 / 8 → t.mark h = s.mark h) ∧ (∀ m, t.thr m = s.thr m))

/-- R8, R171, R172, R173, R185: the register-access instructions on a thread's own registers. CRRD reads FPMODE and SEG, and TSTAT as it stood at the
start of the cycle; CRWR writes all of FPMODE, and
SEG.BASE at SUPERVISOR; CRSET and CRCLR change the bits of their mask alone; nothing else of the thread changes. -/
def Obligations.ThreadRegisters : Prop := ∀ (s : State) (d a : Reg),
  let x := self s
  let v := s.rd a
  Writes (.crrd d 0) s d (x.fpm.zeroExtend 64) ∧ Writes (.crrd d 1) s d (BitVec.ofNat 64 (x.seg.toNat * 2 ^ 12)) ∧
  Writes (.crrd d 2) s d (BitVec.ofNat 64 ((if s.before.isSuper s.me then 2 ^ 15 else 0) + s.before.pkg.pkgNo.toNat * 2 ^ 11 + colOf s.me * 2 ^ 6 +
    quarterOf s.me * 2 ^ 4 + slotOf s.me)) ∧
  Completes (.crwr a 0) s { x with fpm := v.setWidth 7 } ∧ Completes (.crset a 0) s { x with fpm := x.fpm ||| v.setWidth 7 } ∧
  Completes (.crclr a 0) s { x with fpm := x.fpm &&& ~~~(v.setWidth 7) } ∧
  (s.isSuper s.me = true → Completes (.crwr a 1) s { x with seg := v.extractLsb' 12 10 }) ∧
  (s.isSuper s.me = false → Traps (.crwr a 1) s { cause := 0x18 } ∧ Traps (.crset a 1) s { cause := 0x18 } ∧ Traps (.crclr a 1) s { cause := 0x18 } ∧
    Traps (.crrd d 0x1040) s { cause := 0x18 } ∧ Traps (.crwr a 0x100) s { cause := 0x18 })

/-- R174, R175, R178, R185, R404, R429, R457: writes of core, column and package registers keep the bits that are not writable, clear the bits of a
W1C field that are written 1, and take effect at SUPERVISOR. -/
def Obligations.UnitRegisters : Prop := ∀ (s : State) (a : Reg), s.isSuper s.me = true →
  let v := s.rd a
  let q := coreOf s.me
  let c := colOf s.me
  let x := self s
  Accesses (.crwr a 0x100) s (s.modCore q (fun y => { y with
    hctl := (y.hctl &&& 0xFFFF0000F000FFF0) ||| (v &&& 0x0000FFFF0FFF000F)
    hctlOld := if y.hctlAt = s.sched.cycle + 1 then y.hctlOld else y.hctl, hctlAt := s.sched.cycle + 1 })) x ∧
  Accesses (.crset a 0x101) s (s.modCore q (fun y => { y with ssmask := y.ssmask ||| v.setWidth 16 })) x ∧
  Accesses (.crwr a 0x104) s (s.modCore q (fun y => { y with hmask := v.setWidth 16 })) x ∧
  Accesses (.crwr a 0x221) s (s.modCol c (fun y => { y with cevent := y.cevent &&& (~~~(v.setWidth 5) ||| y.cevNow) })) x ∧
  Accesses (.crwr a 0x250) s (s.modCol c (fun y => { y with evc := y.evc.set 0 v })) x ∧
  Accesses (.crwr a 0x2A0) s (s.modCol c (fun y => { y with wdlimit := v.setWidth 32 })) x ∧
  Accesses (.crwr a 0x1010) s { s with pkg := { s.pkg with tbudget := v.setWidth 23 } } x ∧
  Accesses (.crwr a 0x1074) s { s with pkg := { s.pkg with hperr := s.pkg.hperr &&& (~~~(v &&& 0xF) ||| s.pkg.hperrNow) } } x

/-- R170, R434, R453, R454, R458, R471: the host's accesses, when no request waits before them and replay capture is off. A read answers with the
register, or all ones and UR outside the map; a write reaches the register; a ring base keeps DROP and sets WR and RD to 0; a write of RCCTL that
starts capture sets USED to 0; a debug write reaches the plate window. -/
def Obligations.HostRegisterAccess : Prop := ∀ (s : State) (off : Nat) (v : W64), s.host.held = [] → s.host.busy = none → s.pkg.rcctl = 0 →
  (∀ n, n = 4 ∨ n = 8 → off % n = 0 → off + n ≤ 2 ^ 26 → ∃ t, exec (.pointerDropRead off n) s = .next t ∧ t.host.out = s.host.out ++
      [.bar0Data (BitVec.ofNat 64 ((s.shownReg (regAt (off / 8 * 8))).toNat / 2 ^ (8 * (off % 8)) % 2 ^ (8 * n)))] ∧ t.mem = s.mem ∧
      (∀ m, t.thr m = s.thr m)) ∧
  (∀ n, n = 4 ∨ n = 8 → off % n = 0 → off + n ≤ 2 ^ 26 →
    exec (.registerWrite off n v) s = .next (s.writeReg (regAt (off / 8 * 8)) (v <<< (8 * (off % 8))) (if n = 8 then 2 ^ 64 - 1 else 2 ^ (8 * (off % 8)) * (2 ^ 32 - 1)))) ∧
  exec (.ringBaseWrite false v) s = .next { s with pkg := { s.pkg with
    thring := (s.pkg.thring &&& ~~~0xFFFFFFF001) ||| (v &&& 0xFFFFFFF001), thptr := s.pkg.thptr &&& 0xFFFF000000000000 } } ∧
  exec (.ringBaseWrite true v) s = .next { s with pkg := { s.pkg with
    erring := (s.pkg.erring &&& ~~~0xFFFFFFF001) ||| (v &&& 0xFFFFFFF001), errptr := s.pkg.errptr &&& 0xFFFF000000000000 } } ∧
  exec (.intstatWrite false v) s = .next ({ s with pkg := { s.pkg with
    intstat := s.pkg.intstat &&& (~~~(v &&& 0xFF) ||| s.pkg.intNow) } } : State).resend ∧
  exec (.intstatWrite true v) s = .next ({ s with pkg := { s.pkg with
    inten := (s.pkg.inten &&& ~~~0xFF) ||| (v &&& 0xFF) } } : State).resend ∧
  exec (.rcctlWrite v) s = .next { s with pkg := { s.pkg with rcctl := v &&& 3 } } ∧
  (off < 2 ^ 17 → exec (.debugWrite off v) s = .next (s.debugPut (off / 8) v))

/-- R264, R267, R271 to R273: channel instructions. A token goes into an EMPTY register that is OUT or UNBOUND and comes out of one that is IN or
UNBOUND; a full OUT register and an empty IN one park the thread (CHAN); the wrong direction is CHANNEL_GRAMMAR; CPOLL reads a register's state. -/
def Obligations.StreamInstructions : Prop := ∀ (s : State) (c : PReg) (k : TokKind) (aux : BitVec 4) (d e : Reg),
  let x := self s
  let ch := x.chan c
  let tok := mkTok (kindCode k) aux.toNat (if k = .empty ∨ k = .stop ∨ k = .done then 0 else (s.rd d).toNat)
  (ch.head = none → ch.st = .unbound → Completes (.csend c k aux d) s (x.putChan c { ch with full := true, tok := tok, since := s.sched.seq })) ∧
  (ch.head = none → ch.st = .outb → gramError ch.depth ch.gram tok = none →
    Completes (.csend c k aux d) s (x.putChan c { ch with full := true, tok := tok, gram := gramNext ch.gram tok, since := s.sched.seq })) ∧
  (ch.head.isSome = true → ch.st = .outb → Parks (.csend c k aux d) s .chan (.chan c.toNat)) ∧
  (ch.st = .inb → Traps (.csend c k aux d) s { cause := 0x0C, sub := 0x10, detail := tokDetail tok c.toNat }) ∧
  (∀ v, ch.head = some v → ch.st = .unbound → Completes (.crecv d e c) s (((x.putChan c ch.advance).putS d (BitVec.ofNat 64 (tkPay v))).putS e
    (BitVec.ofNat 64 (tkKind v * 16 + tkAux v)))) ∧
  (∀ v, ch.head = some v → ch.st = .inb → ∃ t, exec (.crecv d e c) s = .next t ∧ (∀ m, m ≠ s.me → t.thr m = s.thr m) ∧ t.mem = s.mem ∧
    t.thr s.me = done (((x.putChan c ch.advance).putS d (BitVec.ofNat 64 (tkPay v))).putS e (BitVec.ofNat 64 (tkKind v * 16 + tkAux v))) (x.pc + 1)) ∧
  (ch.head = none → ch.st = .inb → Parks (.crecv d e c) s .chan (.chan c.toNat)) ∧
  (ch.st = .outb → Traps (.crecv d e c) s { cause := 0x0C, sub := 0x10, detail := c.toNat }) ∧
  Writes (.cpoll d c) s d (BitVec.ofNat 64 ch.poll)

/-- R265 to R268, R275, R276, R348, R499: INVOKE sends its request when the registers are free and no store is outstanding. The request is queued,
waits for an entry, or is refused; the answer binds the registers or traps; the start sets ACTIVE; tokens leave for the port and arrive; the fault of
an invocation unbinds its registers and traps the invoker at its next issue. -/
def Obligations.Invocations : Prop := ∀ (s : State) (d : Reg) (n k inv : Nat) (nops : BitVec 3) (b p : PReg) (m : BitVec 4) (r : InvReq) (tok : Tok) (w : TrapInfo),
  let v := (s.rd d).toNat
  (bits v 63 39 = 0 → bits v 35 32 ≤ 9 → bits v 31 0 ≠ 0 → bits v 38 36 + m.toNat ≤ 8 →
    (∀ j, j < m.toNat → ((self s).chan (b + BitVec.ofNat 3 j)).free = true) → s.outstanding s.me = [] →
    exec (.invoke d nops b m) s = .next ((s.after (classOne (colOf s.me) (bits v 35 32)) (.invokeRequest (bits v 35 32)
      { thr := s.me, graph := bits v 31 0, ops := (List.range nops.toNat).map (fun j => s.rd (d + BitVec.ofNat 5 (j + 1))), port := bits v 38 36,
        ch := b.toNat, n := m.toNat })).parkMe .mem .reply)) ∧
  (bits v 31 0 = 0 → Traps (.invoke d nops b m) s { cause := 0x16, sub := 1 }) ∧
  (∀ bk, (s.isl k).judge r = .ok bk → (s.isl k).queue.length < 16 → (s.isl k).waiting = [] → ∃ t, exec (.invokeRequest k r) s = .next t ∧
    (t.isl k).queue = (s.isl k).queue ++ [{ id := s.sched.seq, thr := r.thr, graph := r.graph, ops := r.ops, port := r.port, ch := r.ch, n := r.n }] ∧
    t.sched.agenda = s.sched.agenda ++ [(s.sched.cycle + 1 + classOne (colOf r.thr) k,
      .invokeAnswer r.thr (.bind k s.sched.seq ((s.isl k).bindings bk r)))] ∧ (∀ u, t.thr u = s.thr u)) ∧
  (∀ bk, (s.isl k).judge r = .ok bk → 16 ≤ (s.isl k).queue.length →
    exec (.invokeRequest k r) s = .next (s.modIsl k (fun i => { i with waiting := i.waiting ++ [(r, (s.isl k).bindings bk r)] }))) ∧
  (∀ u, (s.isl k).judge r = .error u → exec (.invokeRequest k r) s =
    .next (s.after (1 + classOne (colOf r.thr) k) (.invokeAnswer r.thr (.trap { cause := 0x16, sub := u })))) ∧
  (∀ l, (s.thr n).wait = .reply → exec (.invokeAnswer n (.bind k inv l)) s = .next (s.completeParked n (fun x => l.foldl (bindChan k inv) x))) ∧
  ((s.thr n).wait = .reply → exec (.invokeAnswer n (.trap w)) s = .next (s.trap n w)) ∧
  ((s.thr n).islandOf inv = some k →
    exec (.activeNotice n inv) s = .next (s.modThr n (fun x => x.mapBound k inv (fun c => { c with active := true })))) ∧
  (let ch := (s.thr n).chan p
   let far := classOne (colOf n) ch.isl
   (ch.head = some tok → s.mayDepart n ch = true → ∃ t, exec (.channelTokenDepart n p.toNat) s = .next t ∧
     t.thr n = (s.thr n).putChan p ch.depart ∧ (∀ u, u ≠ n → t.thr u = s.thr u) ∧
     ((t.isl ch.isl).node (8 * ch.port)).mesh = ((s.isl ch.isl).node (8 * ch.port)).mesh ++ [(tok, s.sched.cycle + far)] ∧ t.mem = s.mem) ∧
   (ch.st = .inb → ch.inv = inv → ∃ t, exec (.channelTokenArrive n p.toNat inv tok) s = .next t ∧ t.thr n = (s.thr n).putChan p (ch.arrive tok) ∧
     (∀ u, u ≠ n → t.thr u = s.thr u) ∧ (∀ u, t.isl u = s.isl u) ∧ t.mem = s.mem)) ∧
  ((s.thr n).st = .ready → (s.thr n).wait = .none → exec (.islandFaultTrap n inv w) s = .next
    ((s.modThr n (fun x => x.mapBound (bits w.w2.toNat 35 32) inv Chan.ended)).modThr n (fun x => { x with asyncTraps := x.asyncTraps ++ [w] })))

/-- R142 to R144, R146, R148, R156 to R158, R163, R165: tiles. With a shape that fits, no hold in the way and no bad word, TVGET and TVSET move 64
bytes of a tile, TLD and TST send the pieces of their rows, MOUT puts the converted rows of a bank into a tile or sends them to memory, and MMASK
fills the mask block. What a tile gives is what it held at the start of the cycle. A shape that does not fit is TILE_SHAPE; a tile under a hold parks
the thread (TILE). A move that parked (RANGE) goes on with the shape that it had checked (the model's reading, log 51). -/
def Obligations.Tiles : Prop := ∀ (s : State) (t a b r : Reg) (v : VReg) (f : Fmt) (acc : BitVec 2) (emp : Bool) (g : Nat) (ps : List Piece) (via : List Via),
  let c := s.cur.col
  let n := t.toNat
  let h := s.shape c n
  let again := (self s).retrans = true
  let hm := if (self s).retrans then shapeOf (self s).shapeAt else h
  let o := (s.rd b).toNat
  let va := (s.rd a).toNat
  let free := s.writeHeld c n = false ∧ s.readHeld c n = false
  let clean := (s.col c).tileMarks = [] ∧ (s.before.col c).tileMarks = []
  let held := fun (i : Nat) => s.before.tileByte c n i
  let al := if elemBytes hm.fmt = 0 then 1 else elemBytes hm.fmt
  let stride := if b = 0 then hm.rb else o
  let rows := rowList va stride hm.rb hm.rows
  let moves := again ∨ hm.ok = true ∧ va % al = 0 ∧ stride % al = 0
  let bank := (s.col c).bankInFlight acc.toNat = false ∧ (s.col c).accPoison.getLsbD acc.toNat = false ∧ (s.col c).accMarks = []
  (free → clean → h.ok = true → o < 16384 → o % 64 = 0 →
    ∃ x, Completes (.tvget v t b) s ((self s).putV v x) ∧ ∀ i, i < 64 → lane 8 x i = (held (o + i)).toNat) ∧
  (free → h.ok = true → o < 16384 → o % 64 = 0 → ∃ u, exec (.tvset t v b) s = .next u ∧ u.thr s.me = done (self s) ((self s).pc + 1) ∧
    (∀ i, u.tileByte c n i = if o ≤ i ∧ i < o + 64 then BitVec.ofNat 8 (lane 8 (s.rdV v) (i - o)) else s.tileByte c n i) ∧
    (∀ m, m ≠ s.me → u.thr m = s.thr m) ∧ u.mem = s.mem) ∧
  (free → h.ok = false → Traps (.tvget v t b) s { cause := 0x0A } ∧ Traps (.tvset t v b) s { cause := 0x0A } ∧
    Traps (.mmask t) s { cause := 0x0A } ∧ Traps (.moutTile f t acc emp) s { cause := 0x0A } ∧
    (¬again → Traps (.tld t a b) s { cause := 0x0A } ∧ Traps (.tst t a b) s { cause := 0x0A })) ∧
  (s.writeHeld c n = true → Parks (.tvget v t b) s .tile (.tile n false) ∧ Parks (.tvset t v b) s .tile (.tile n true) ∧
    Parks (.tld t a b) s .tile (.tile n true) ∧ Parks (.tst t a b) s .tile (.tile n false)) ∧
  (free → moves → s.rowWatch hm.rb rows false = none → s.rowPieces hm.rb permR rows ([], []) = .ok (ps, via) →
    Makes (.tld t a b) s { bulkAccess s.me ps va (hm.rows * hm.rb) (.gather ps [] (.tile n)) with via := via }) ∧
  (free → clean → moves → s.rowWatch hm.rb rows true = none → s.rowPieces hm.rb permW rows ([], []) = .ok (ps, via) →
    ∃ data, (∀ i, i < hm.rows * hm.rb → sget 0 data i = held i) ∧
      Makes (.tst t a b) s { bulkAccess s.me ps va (hm.rows * hm.rb) (.scatter ps data false (.done [] [])) with via := via, tile := some n }) ∧
  (free → h.ok = true → h.fmt = f → h.rb = 128 * elemBytes f → h.rows ≤ 32 → bank → ∃ u, exec (.moutTile f t acc emp) s = .next u ∧
    u.thr s.me = done (self s) ((self s).pc + 1) ∧ (∀ m, m ≠ s.me → u.thr m = s.thr m) ∧ u.mem = s.mem ∧
    (∀ i, u.tileByte c n i = if i < h.rows * h.rb then sget 0 (s.moutBytes f acc.toNat h.rows) i else s.tileByte c n i) ∧
    (u.col c).accFull = (if emp then (s.col c).accFull &&& ~~~(1#4 <<< acc.toNat) else (s.col c).accFull) ∧
    (emp = true → ∀ i, i < 4096 → sget 0 (u.col c).acc (4096 * acc.toNat + i) = 0)) ∧
  (let k := (s.rd r).toNat
   let ps := s.pieces (inWindow va) g va 0 (k * 128 * elemBytes f)
   0 < k → k ≤ 32 → Passes s va (k * 128 * elemBytes f) 64 .bulk permW false true g via → bank →
   Makes (.moutMemory f a acc r emp) s { bulkAccess s.me ps va (k * 128 * elemBytes f) (.scatter ps (s.moutBytes f acc.toNat k) true (.done [] [])) with
     via := via, clear := if emp then some acc.toNat else none }) ∧
  (free → clean → h.ok = true → 2304 ≤ h.rows * h.rb → (s.col c).maskInFlight = false → ∃ u, exec (.mmask t) s = .next u ∧
    u.thr s.me = done (self s) ((self s).pc + 1) ∧ (∀ m, m ≠ s.me → u.thr m = s.thr m) ∧
    (∀ k i, k < 128 → i < 128 → (sget maskOnes (u.col c).mask k).getLsbD i = (held (16 * k + i / 8)).getLsbD (i % 8)) ∧
    (∀ k, k < 128 → sget 0 (u.col c).maskOff k = (held (2049 + 2 * k) ++ held (2048 + 2 * k)).setWidth 16))

/-- R149, R155, R160, R161, R164, R166: the array's instructions at their issue. MWLD, MWLT, MGO and MGOS whose shapes fit take their core's gang
port, or its queue, and their threads park (GANG) until the gang's end; MHOLD, MYIELD and MCLR complete, changing the hold and the bank's state as
their rules say. -/
def Obligations.ArrayInstructions : Prop := ∀ (s : State) (f : WFmt) (af : AFmt) (pl add mask : Bool) (a t sc m r : Reg) (tag : BitVec 4) (acc : BitVec 2)
    (ch : PReg) (g : Nat) (via : List Via),
  let here := s.cur.col
  let h := s.shape here t.toNat
  let va := (s.rd a).toNat
  let n := quarterBytes f
  ((self s).retrans = true ∨ s.scaleOk f sc = true → Passes s va n 64 .bulk permR true false g via →
    (∀ x ∈ s.outstanding s.me, ∀ p ∈ s.pieces (inWindow va) g va 0 n, meets x.ga x.size p.ga p.n = false) → AtPort (.mwld f pl a sc tag) s) ∧
  (h.fmt = wFmt f → h.rows = 32 → h.rb = wRow f → s.scaleOk f sc = true → AtPort (.mwlt f pl t sc tag) s) ∧
  (h.fmt = aFmt af → h.rb = 32 * aBytes af → h.rows ≤ 32 → (mask = true → (s.rd r).toNat + h.rows ≤ 128) →
    AtPort (.mgo af acc t pl tag add mask r) s) ∧
  (0 < (s.rd m).toNat → (s.rd m).toNat ≤ 32 → AtPort (.mgos af acc ch m pl tag add) s) ∧
  (h.fmt ≠ aFmt af → Traps (.mgo af acc t pl tag add mask r) s { cause := 0x0A }) ∧
  (s.rd m = 0 ∨ 32 < (s.rd m).toNat → Traps (.mgos af acc ch m pl tag add) s { cause := 0x0A }) ∧
  (s.isSuper s.me = true → (s.col here).hold = none → ∃ u, exec .mhold s = .next u ∧ u.thr s.me = done (self s) ((self s).pc + 1) ∧
    (u.col here).hold = some { core := s.cur.core, slot := s.cur.slot, start := (s.col here).cyc } ∧ (∀ n, n ≠ s.me → u.thr n = s.thr n)) ∧
  (s.isSuper s.me = true → (s.col here).hold.isSome = true → s.holds s.me = true → Completes .mhold s (self s)) ∧
  (s.isSuper s.me = false → Traps .mhold s { cause := 0x18 }) ∧
  (s.isSuper s.me = true → (s.col here).hold.isSome = true → s.holds s.me = false → Parks .mhold s .gang .hold) ∧
  (s.holds s.me = false → Completes .myield s (self s)) ∧
  (s.holds s.me = true → ∃ u, exec .myield s = .next u ∧ (u.col (colOf s.me)).hold = none ∧ u.thr s.me = done (self s) ((self s).pc + 1)) ∧
  ((s.col here).bankInFlight acc.toNat = false → ∃ u, exec (.mclr acc) s = .next u ∧ u.thr s.me = done (self s) ((self s).pc + 1) ∧
    (u.col here).accFull = (s.col here).accFull &&& ~~~(1#4 <<< acc.toNat) ∧
    (u.col here).accPoison = (s.col here).accPoison &&& ~~~(1#4 <<< acc.toNat) ∧ ∀ i, i < 4096 → sget 0 (u.col here).acc (4096 * acc.toNat + i) = 0) ∧
  ((s.col here).bankInFlight acc.toNat = true → Parks (.mclr acc) s .gang (.bankBusy acc.toNat))

/-- R150 to R155, R160, R161, R164: gangs. Four equal ports form a gang and different ones raise GANG_MISMATCH in all members; the oldest gang that
may start does; an MWLT makes its plane LOADING, and a load that is complete makes its plane READY in its format; a compute operation, MGO or MGOS,
that is complete leaves its banks FULL without poison; with it the four threads' instructions are complete. An abort leaves the plane EMPTY, or the
banks EMPTY and poisoned; the array's watchdog ends a hold and traps its holder at its next issue. -/
def Obligations.Array : Prop := ∀ (s : State) (f : WFmt) (pl : Bool) (a t sc : Reg) (tag : BitVec 4) (c id : Nat),
  let finished := fun (x : Gang) (u : State) => (∀ m ∈ x.quarters, m.2.slot < 16) → ∀ m ∈ x.quarters, let n := memberThr c m.1 m.2
    u.thr n = { done (s.thr n) ((s.thr n).pc + 1) with st := s.readySt n, wait := .none, readyFrom := s.cycOf n + 1 }
  (∀ p0 p1 p2 p3, s.compareDue c = true → s.fourPorts c = some [p0, p1, p2, p3] →
    (p1.key = p0.key → p2.key = p0.key → p3.key = p0.key → ∃ u, exec (.gangCompare c) s = .next u ∧
      (u.col c).gangs = (s.col c).gangs ++ [{ id := (s.col c).nextGang, formed := (s.col c).cyc, members := [p0, p1, p2, p3] }] ∧
      (∀ q, q < 4 → (s.core (4 * c + q)).portQ = [] → (u.core (4 * c + q)).port = none) ∧ (∀ n, u.thr n = s.thr n)) ∧
    (¬(p1.key = p0.key ∧ p2.key = p0.key ∧ p3.key = p0.key) → exec (.gangCompare c) s =
      .next ((s.freePorts c).trapMembers c [(0, p0), (1, p1), (2, p2), (3, p3)] { cause := 0x0B }))) ∧
  (∀ x y p ps, s.gang c id = some x → x.active = false → s.startsNow c x.isLoad = some y → y.id = id →
    exec (.gangStart c id) s = .next (s.startGang c x) ∧
    (x.members = p :: ps → p.instr = .mwlt f pl t sc tag → ∃ u, exec (.gangStart c id) s = .next u ∧ ((u.col c).plane pl).st = .loading)) ∧
  (∀ x p ps, s.gang c id = some x → x.id = id → s.completeDue c x = true → x.members = p :: ps →
    (p.instr = .mwlt f pl t sc tag ∨ p.instr = .mwld f pl a sc tag → s.loadFaults c x = [] → ∃ u, exec (.gangComplete c id) s = .next u ∧
      ((u.col c).plane pl).st = .ready f ∧ finished x u) ∧
    (∀ k wf, s.computeParts c x = some k → x.busyTo ≠ 0 → ((s.col c).plane x.plane).st = .ready wf →
      (s.col c).computeFaults wf ((s.col c).plane x.plane) k x.m = [] → ∃ u, exec (.gangComplete c id) s = .next u ∧ finished x u ∧
      ∀ b ∈ planeBanks k.acc ((s.col c).plane x.plane), b < 4 → (u.col c).accFull.getLsbD b = true ∧ (u.col c).accPoison.getLsbD b = false)) ∧
  (∀ x, s.gang c id = some x → x.fails ≠ [] → ∃ u, exec (.gangAbort c id) s = .next u ∧ u.gang c id = none ∧
    (x.isLoad = true → (u.col c).plane x.plane = {}) ∧
    (x.isLoad = false → ∀ b ∈ x.banks (s.col c), b < 4 → (u.col c).accFull.getLsbD b = false ∧ (u.col c).accPoison.getLsbD b = true)) ∧
  (∀ o, s.watchdogDue c = true → (s.col c).hold = some o → ∃ u, exec (.arrayWatchdog c) s = .next u ∧ (u.col c).hold = none ∧
    bit (u.col c).cevent.toNat 4 = true ∧
    u.thr (thrNo c o.core o.slot) = { s.thr (thrNo c o.core o.slot) with asyncTraps := (s.thr (thrNo c o.core o.slot)).asyncTraps ++ [{ cause := 0x13 }] })

/-- R312 to R327: transit channels. XBIND at SUPERVISOR makes the binding with every window whole; XSEND takes one credit of every branch, raises the
floor to its tag and queues the send; XFOLD and XFLUSH queue their messages; XRECV claims the slot at RECV; XFREE returns the slot at HEAD; XSTAT reads
a channel's word; each of them but XBIND and XSTAT needs a bound channel. The sender's packets, their delivery, folds, flushes and credits act on the
windows as the rules say. -/
def Obligations.Transit : Prop := ∀ (s : State) (o i : PReg) (a d : Reg) (n : BitVec 3) (inb : Bool) (g : Nat) (via : List Via),
  let c := s.cur.col
  let x := s.out c o.toNat
  let y := s.inc c i.toNat
  let v := s.rd d
  let len := v.toNat % 8192
  let tag := v.toNat / 2 ^ 32
  let l := branchFields (s.rd a) n.toNat
  let quiet := s.outstanding s.me = []
  let same := fun (t : State) => (∀ m, m ≠ s.me → t.thr m = s.thr m) ∧ t.mem = s.mem
  (s.isSuper s.me = true → s.bindRefusal c o.toNat n.toNat (s.rd a) = none → quiet → s.bindTaken c o.toNat n.toNat (s.rd a) = false →
    ∃ t, exec (.xbind o a n) s = .next t ∧ (t.out c o.toNat).bound = !l.isEmpty ∧ (t.out c o.toNat).floor = 0 ∧
      (t.out c o.toNat).branches.map (fun b => (b.col, b.inc, b.w, b.credits)) = l.map (fun b => (b.col, b.inc, b.w, b.w)) ∧
      t.thr s.me = done (self s) ((self s).pc + 1) ∧ same t) ∧
  (s.isSuper s.me = false → Traps (.xbind o a n) s { cause := 0x18 }) ∧
  (x.bound = true → bits v.toNat 31 13 = 0 → 0 < len → len ≤ 4096 → len % 64 = 0 → x.floor.toNat ≤ tag → (s.rd a).toNat % 64 = 0 →
    s.translate s.me (s.rd a).toNat len (permR ||| permE) = .ok g via → s.mapExtent g len .bulk (s.rd a).toNat = none → quiet →
    (x.mayGo = true → ∃ t, exec (.xsend o a d) s = .next t ∧
      t.out c o.toNat = { x with floor := BitVec.ofNat 32 tag, branches := x.branches.map (fun b => { b with credits := b.credits - 1 }) } ∧
      (∃ q, (t.col c).sendQ = (s.col c).sendQ ++ [q] ∧ q.kind = .data ∧ q.thr = some s.me ∧ q.out = o.toNat ∧ q.src = g ∧ q.len = len ∧ q.tag = tag ∧
        q.done = 0 ∧ q.win = inWindow (s.rd a).toNat) ∧
      t.thr s.me = parked s s.me .mem .reply ∧ same t) ∧
    (x.mayGo = false → Parks (.xsend o a d) s .window (.window o.toNat))) ∧
  (x.bound = true → (s.rd a).toNat < 2 ^ 32 → quiet → ∃ t, exec (.xfold o a) s = .next t ∧ (t.out c o.toNat).floor = (s.rd a).setWidth 32 ∧
    (t.col c).sendQ.length = (s.col c).sendQ.length + 1 ∧ t.thr s.me = done (self s) ((self s).pc + 1) ∧ same t) ∧
  (x.bound = true → quiet → ∃ t, exec (.xflush o) s = .next t ∧
    (t.col c).flushes = (s.col c).flushes ++ [{ thr := some s.me, out := o.toNat, left := List.range x.branches.length }] ∧
    t.thr s.me = parked s s.me .mem .reply ∧ same t) ∧
  (y.bound = true → y.half = false → (y.slot y.recv).st = .filled → ∃ t, exec (.xrecv d i) s = .next t ∧
    t.inc c i.toNat = { (y.setSlot y.recv { (y.slot y.recv) with st := .claimed }) with recv := (y.recv + 1) % y.w } ∧
    t.thr s.me = done (((self s).putS d (BitVec.ofNat 64 (s.ga 1 c (slotOff i.toNat y.recv)))).putS (d + 1)
      (BitVec.ofNat 64 ((y.slot y.recv).tag * 2 ^ 32 + bnat (y.slot y.recv).err * 2 ^ 31 + (y.slot y.recv).len))) ((self s).pc + 1) ∧ same t) ∧
  (y.bound = true → (y.slot y.recv).st ≠ .filled → Parks (.xrecv d i) s .transit (.transit i.toNat)) ∧
  (y.bound = true → y.number .claimed ≠ 0 → quiet → ∃ t, exec (.xfree i) s = .next t ∧
    t.inc c i.toNat = { (y.setSlot y.head { (y.slot y.head) with st := .returning }) with head := (y.head + 1) % y.w } ∧
    t.sched.agenda = s.sched.agenda ++ [(s.sched.cycle + 3 * hops c y.prod, .transitCredit y.prod y.out y.branch 1 false true)] ∧
    t.thr s.me = done (self s) ((self s).pc + 1) ∧ same t) ∧
  Writes (.xstat d inb i) s d (BitVec.ofNat 64 (if inb then (s.inc c i.toNat).stat else (s.out c i.toNat).stat)) ∧
  (x.bound = false → Traps (.xsend o a d) s { cause := 0x15, sub := 1, detail := o.toNat } ∧
    Traps (.xfold o a) s { cause := 0x15, sub := 1, detail := o.toNat } ∧ Traps (.xflush o) s { cause := 0x15, sub := 1, detail := o.toNat }) ∧
  (y.bound = false → Traps (.xrecv d i) s { cause := 0x15, sub := 1, detail := i.toNat } ∧ Traps (.xfree i) s { cause := 0x15, sub := 1, detail := i.toNat })

/-- R316 to R321: the sender's packets and messages, deliveries, folds, flushes and credits. -/
def Obligations.TransitSteps : Prop := ∀ (s : State) (c o i b n tag emit : Nat) (p : TransitPkt), o < 8 → i < 8 →
  let x := s.inc c i
  (∀ q qs got bad br, (s.col c).sendQ = q :: qs → q.from_ ≤ s.sched.cycle → q.kind = .data → q.buf = some (got, bad) →
    (s.out c q.out).branches[q.done % (s.out c q.out).branches.length]? = some br → ∃ t, exec (.transitSenderPacket c) s = .next t ∧
      ∃ w due, (due, w) ∈ (t.col br.col).arriving ∧ s.sched.cycle < due ∧ w.cons = br.col ∧ w.inc = br.inc ∧ w.tag = q.tag ∧ w.len = q.len ∧
        w.data = packetWords got bad) ∧
  (∀ q qs br, (s.col c).sendQ = q :: qs → q.from_ ≤ s.sched.cycle → q.kind = .fold → (s.out c q.out).branches[q.done]? = some br →
    ∃ t, exec (.transitSenderPacket c) s = .next t ∧ t.sched.agenda = s.sched.agenda ++
      [(s.sched.cycle + 3 * hops c br.col, .transitFoldApply br.col br.inc q.tag s.sched.seq)]) ∧
  (∀ due, (due, p) ∈ (s.col p.cons).arriving → due ≤ s.sched.cycle → s.packetTurn p = true → s.pieceReady (onePiece (s.packetGa p) 64) = true →
    Within (s.packetGa p) 64 → p.data.length = 8 → ∃ t, exec (.transitPacket p) s = .next t ∧
      t.readN (s.packetGa p) 64 = joinLanes 64 (p.data.map (fun w => w.1.toNat)) ∧ t.allFull (s.packetGa p) 64 = true ∧
      (∀ h, gaSpace h < 4 → Outside (s.packetGa p) 64 h → t.byte h = s.byte h) ∧ (∀ m, t.thr m = s.thr m)) ∧
  (s.foldTurn c i emit = true → ∃ t, exec (.transitFoldApply c i tag emit) s = .next t ∧
    t.inc c i = { (x.discard (x.tailFrom tag x.w 0)) with lastFold := BitVec.ofNat 32 tag, folds := x.folds + 1 } ∧
    t.sched.agenda = s.sched.agenda ++ [(s.sched.cycle + 3 * hops c x.prod, .transitCredit x.prod x.out x.branch (x.tailFrom tag x.w 0) false false)] ∧
    t.mem = s.mem) ∧
  (s.foldTurn c i emit = true → ∃ t, exec (.transitFlushApply c i emit) s = .next t ∧ t.inc c i = x.discard (x.tailFrom 0 x.w 0) ∧
    t.sched.agenda = s.sched.agenda ++ [(s.sched.cycle + 3 * hops c x.prod, .transitCredit x.prod x.out x.branch (x.tailFrom 0 x.w 0) true false)] ∧
    t.mem = s.mem) ∧
  (∀ br, (s.out c o).branches[b]? = some br → ∃ t, exec (.transitCredit c o b n false false) s = .next t ∧
    t.out c o = { s.out c o with branches := (s.out c o).branches.set b { br with credits := br.credits + n } } ∧ (∀ m, t.thr m = s.thr m) ∧
    t.mem = s.mem)

/-- R328 to R334: CPY, LSWAP and ENGSTAT. CPY and LSWAP read a descriptor as loads; CPY, once it has it, enters its copy in its core's list and goes
on. The copy engine moves the bytes of one transfer; a swap command holds its named channels, waits until they are drained, moves 4 KiB bursts and
lifts the holds; completion words are 0x1, or 0x3 when a word was written poisoned. -/
def Obligations.Engines : Prop := ∀ (s : State) (a d : Reg) (c q id : Nat) (got : Sparse Byte) (gs gd : Nat) (vs vd : List Via),
  let va := (s.rd a).toNat
  let super := s.isSuper s.me = true
  let n := descWord got 3 % 16 + 1
  let z := 2 ^ bits (descWord got 3) 5 4
  let src := descWord got 0
  let dst := descWord got 1
  let dims := (List.range n).map (copyDim got)
  let xs := extent src (dims.map (fun e => (e.1, e.2.2))) z
  let xd := extent dst (dims.map (fun e => (e.2.1, e.2.2))) z
  let size := fun (x : Int × Int) => (x.2 - x.1).toNat + 1
  let win := fun (x : Int × Int) => inWindow (wrapTo 64 x.1)
  let units := descWord got 2 % 2 ^ 18
  ReadsDescriptor (.cpy a) s va 4 0 false ∧ (super → ReadsDescriptor (.lswap a) s va 5 1 true) ∧
  (super ∨ s.isSuper s.me = false ∧ Traps (.lswap a) s { cause := 0x18 }) ∧
  (va % 8 ≠ 0 → (self s).retrans = false → Traps (.cpy a) s (misaligned va)) ∧
  (descWord got 3 / 64 = 0 → descWord got 2 = 0 → src % z = 0 → dst % z = 0 →
    (∀ e ∈ dims, 0 < e.2.2 ∧ e.2.2 < 2 ^ 24 ∧ e.1 % z = 0 ∧ e.2.1 % z = 0) →
    s.translate s.me (wrapTo 64 xs.1) (size xs) (permR ||| permE) = .ok gs vs → s.mapExtent gs (size xs) .bulk (wrapTo 64 xs.1) = none →
    s.translate s.me (wrapTo 64 xd.1) (size xd) (permW ||| permE) = .ok gd vd → s.mapExtent gd (size xd) .bulk (wrapTo 64 xd.1) = none →
    runsMeet (extentRuns (win xs) gs (size xs)) (extentRuns (win xd) gd (size xd)) = false →
    (s.core s.myCore).copies.length < 1024 → s.outstanding s.me = [] →
    ∃ k, ((s.copyDescribed got).core s.myCore).copies = (s.core s.myCore).copies ++ [k] ∧ k.src = besideGa (win xs) gs ((src : Int) - xs.1) ∧
      k.dst = besideGa (win xd) gd ((dst : Int) - xd.1) ∧ k.srcWin = win xs ∧ k.dstWin = win xd ∧ k.esz = z ∧ k.dims = dims ∧ k.fin = none ∧ k.done = 0 ∧
      (s.copyDescribed got).thr s.me = done (self s) ((self s).pc + 1) ∧ (s.copyDescribed got).mem = s.mem) ∧
  (bits (descWord got 2) 31 18 = 0 → descWord got 2 / 2 ^ 33 = 0 → descWord got 3 < 2 ^ 16 → 0 < units → units ≤ 131072 → src < 2 ^ 52 →
    dst < 2 ^ 52 → src % 4096 = 0 → dst % 4096 = 0 → gaPkg src = s.pkg.pkgNo.toNat → gaPkg dst = s.pkg.pkgNo.toNat → gaSpace src = 0 →
    gaSpace dst = 3 → gaOff src % 2 ^ 29 + units * 4096 ≤ 2 ^ 29 → gaOff dst % 2 ^ 36 + units * 4096 ≤ 2 ^ 36 →
    s.mapCheck src (units * 4096) .bulk src = none → s.mapCheck dst (units * 4096) .bulk dst = none → descWord got 4 = 0 →
    s.eng.swaps.length < 64 → s.outstanding s.me = [] →
    ∃ w, (s.swapDescribed got).eng.swaps = s.eng.swaps ++ [w] ∧ w.st = .queued ∧ w.stacked = src ∧ w.gddr = dst ∧ w.len = units * 4096 ∧
      w.writeback = (descWord got 2).testBit 32 ∧ w.outMask = descWord got 3 % 256 ∧ w.inMask = descWord got 3 / 256 ∧ w.fin = none ∧
      (s.swapDescribed got).thr s.me = done (self s) ((self s).pc + 1) ∧ (s.swapDescribed got).mem = s.mem) ∧
  Writes (.engstat d false) s d (BitVec.ofNat 64 ((s.core s.myCore).copiesDone.toNat * 2 ^ 32 + (s.core s.myCore).copies.length)) ∧
  Writes (.engstat d true) s d (BitVec.ofNat 64 (s.eng.swapsDone.toNat * 2 ^ 32 + s.eng.swaps.length)) ∧
  (∀ x l, s.copyCore c = some q → (s.core (4 * c + q)).copies = x :: l → x.buf = none →
    let m := x.next.2.2 * x.esz
    gaPkg x.next.1 = s.pkg.pkgNo.toNat → gaPkg x.next.2.1 = s.pkg.pkgNo.toNat → Within x.next.1 m → Within x.next.2.1 m →
    (x.pipe = 0 ∧ s.pieceReady (onePiece x.next.1 m) = true ∧ (∀ k j, s.owner x.next.1 ≠ .tile k j)) ∨
      (x.pipe ≠ 0 ∧ x.pipe ≤ s.sched.cycle + 1 ∧ s.ownerRuns (s.owner x.next.1) = true) →
    ∃ t y, exec (.copyTransfer c) s = .next t ∧ (t.core (4 * c + q)).copies = y :: l ∧
      (match y.buf with
       | some b => y.done = x.done ∧ ∀ i, i < m → sget 0 b.1 i = s.byte (x.next.1 + i)
       | none => y.done = x.done + x.next.2.2 ∧ ∀ i, i < m → t.byte (x.next.2.1 + i) = s.byte (x.next.1 + i))) ∧
  (∀ x l, (s.core (4 * c + q)).copies = x :: l → x.total ≤ x.done → StatusReady s x.flight x.fin → ∃ t, exec (.copyComplete c q) s = .next t ∧
    (t.core (4 * c + q)).copies = l ∧ (t.core (4 * c + q)).copiesDone = (s.core (4 * c + q)).copiesDone + 1 ∧
    StatusAt t (if x.bad then 3 else 1) x.flight x.fin) ∧
  (∀ w, s.swap id = some w → w.st = .queued → s.swapFirst w = true → ∃ t, exec (.swapHold id) s = .next t ∧
    t.swap id = some { w with st := .holding (s.producers w) s.sched.cycle } ∧ SameThreads s t) ∧
  (∀ w o, s.swap id = some w → o < 8 → ∃ t, exec (.swapHoldArrive id c) s = .next t ∧ SameThreads s t ∧
    (c = w.col → (t.out c o).holds = (if w.outMask.testBit o then (s.out c o).holds ++ [id] else (s.out c o).holds) ∧
      (t.inc c o).holds = (if w.inMask.testBit o then (s.inc c o).holds ++ [id] else (s.inc c o).holds)) ∧
    (c ≠ w.col → Later s t (.swapHoldAck id c) ∧ (t.out c o).branches = (s.out c o).branches.map (fun b =>
      if b.col = w.col ∧ w.inMask.testBit b.inc then { b with holds := b.holds ++ [id] } else b))) ∧
  (∀ w l k, s.swap id = some w → w.st = .holding l k → ∃ t k', exec (.swapHoldAck id c) s = .next t ∧
    t.swap id = some { w with st := .holding (l.filter (· != c)) k' } ∧ SameThreads s t) ∧
  (∀ w, s.swap id = some w → w.st = .drainwait ∨ (∃ k, k < s.sched.cycle ∧ w.st = .holding [] k) → ∃ t, exec (.swapRun id) s = .next t ∧
    SameThreads s t ∧
    (if s.swapDrained w && !s.compMeets w then ∃ k, s.sched.cycle < k ∧ t.swap id = some { w with st := .running k }
     else t.swap id = some { w with st := .drainwait })) ∧
  (∀ w b, s.swap id = some w → s.burstsDue id = [b] → b.num = id → b.fetch = false →
    let st := s.ga 0 b.col b.off
    let far := w.gddr + (st - w.stacked)
    Within st b.len → Within far b.len → ∃ t, exec (.swapBurst id) s = .next t ∧ (∀ m, t.thr m = s.thr m) ∧
      ∀ i, i < b.len → if w.writeback then t.byte (far + i) = s.byte (st + i) else t.byte (st + i) = s.byte (far + i)) ∧
  (∀ w, s.swap id = some w → s.swapOver w = true → StatusReady s w.sent w.fin → ∃ t, exec (.swapDone id) s = .next t ∧
    t.eng.swaps = s.eng.swaps.filter (fun x => x.id != id) ∧ t.eng.swapsDone = s.eng.swapsDone + 1 ∧ StatusAt t (if w.bad then 3 else 1) w.sent w.fin) ∧
  (∀ o, o < 8 → ∃ t, exec (.swapLiftArrive id c) s = .next t ∧ SameThreads s t ∧ (t.out c o).holds = (s.out c o).holds.filter (· != id) ∧
    (t.inc c o).holds = (s.inc c o).holds.filter (· != id))

/-- R357, R367 to R371: RGSET, RGGET, RGPROBE, RGSPLIT and RGMERGE. Each entry named takes its image, and every other entry stays; statuses 0, 1
and 2 as the rules give them; a register of five holds an entry's image. -/
def Obligations.RangeEntries : Prop := ∀ (s : State) (d a : Reg) (i j : BitVec 5) (k n : BitVec 4),
  let q := s.myCore
  let w := fun (m : Nat) => s.rd (regPlus a m)
  let e := entryOf (w 0) (w 1) (w 2) (w 3) (w 4)
  let ok := s.wellFormedEntry (w 0) (w 1) (w 2) (w 3) (w 4)
  let tag := (s.rd a).setWidth 12
  let me := fun (t : State) (v : Nat) => t.thr s.me = done ((self s).putS d (BitVec.ofNat 64 v)) ((self s).pc + 1) ∧ ∀ m, m ≠ s.me → t.thr m = s.thr m
  let sets := fun (i' : Instr) (tbl : Nat) => (s.entry tbl i.toNat).st = .valid ∨ (s.entry tbl i.toNat).st = .invalid → s.entryPatrolled e = none →
    ok = true → ∃ t, exec i' s = .next t ∧ me t 0 ∧ t.mem = s.mem ∧
      ∀ u m, t.entry u m = if u = tbl ∧ m = i.toNat then e else s.entry u m
  let x := s.entry q i.toNat
  let y := s.entry q j.toNat
  let v := (s.rd a).toNat
  let hits := s.hits (coreOf s.me) (self s).context v
  let probe := fun (p g : Nat) => Completes (.rgprobe d a) s ((self s).putRun d [BitVec.ofNat 64 p, BitVec.ofNat 64 g])
  (s.isSuper s.me = true →
    sets (.rgset d (.entry i) a) q ∧ sets (.rgset d (.island k i) a) (80 + k.toNat) ∧
    (ok = false → Writes (.rgset d (.entry i) a) s d 1 ∧ Writes (.rgset d (.island k i) a) s d 1) ∧
    (bits (s.rd a).toNat 63 12 = 0 →
      (∃ t, exec (.rgset d (.ctag n) a) s = .next t ∧ ∀ m,
        let z := if m = 16 * q + n.toNat then { s.thr m with ctag := tag, ctagWas := some (s.thr m).context } else s.thr m
        t.thr m = if m = s.me then done (z.putS d 0) (z.pc + 1) else z) ∧
      (∃ t, exec (.rgset d (.itag k) a) s = .next t ∧ me t 0 ∧ t.isl k.toNat = { s.isl k.toNat with itag := tag })) ∧
    (bits (s.rd a).toNat 63 12 ≠ 0 → Writes (.rgset d (.ctag n) a) s d 1 ∧ Writes (.rgset d (.itag k) a) s d 1) ∧
    Completes (.rgget d (.island k i)) s ((self s).putRun d (s.startEntry (80 + k.toNat) i.toNat).words) ∧
    Writes (.rgget d (.itag k)) s d ((s.before.isl k.toNat).itag.setWidth 64) ∧
    (let st := if i = j ∨ x.st ≠ .valid ∨ y.st ≠ .invalid then 1 else if v % 256 ≠ 0 ∨ v ≤ x.base ∨ x.limit ≤ v then 2 else 0
     ∃ t, exec (.rgsplit d i j a) s = .next t ∧ me t st ∧ ∀ u m, t.entry u m =
       if st = 0 ∧ u = q ∧ m = i.toNat then { x with limit := v } else if st = 0 ∧ u = q ∧ m = j.toNat then { x with base := v } else s.entry u m) ∧
    (let st := if i = j ∨ x.st ≠ .valid ∨ y.st ≠ .valid then 1
       else if (x.limit ≠ y.base ∧ y.limit ≠ x.base) ∨ x.tag ≠ y.tag ∨ x.offset ≠ y.offset ∨ x.perms ≠ y.perms ∨ x.fetch ≠ y.fetch ∨ x.rlo ≠ y.rlo ∨
         x.rhi ≠ y.rhi then 2 else 0
     ∃ t, exec (.rgmerge d i j) s = .next t ∧ me t st ∧ ∀ u m, t.entry u m =
       if st = 0 ∧ u = q ∧ m = i.toNat then { x with base := min x.base y.base, limit := max x.limit y.limit }
       else if st = 0 ∧ u = q ∧ m = j.toNat then {} else s.entry u m)) ∧
  (s.isSuper s.me = false → Traps (.rgset d (.entry i) a) s { cause := 0x18 } ∧ Traps (.rgsplit d i j a) s { cause := 0x18 } ∧
    Traps (.rgmerge d i j) s { cause := 0x18 } ∧ Traps (.rgget d (.island k i)) s { cause := 0x18 }) ∧
  Completes (.rgget d (.entry i)) s ((self s).putRun d (s.startEntry q i.toNat).words) ∧
  Writes (.rgget d (.ctag n)) s d ((s.before.thr (16 * q + n.toNat)).ctag.setWidth 64) ∧
  (v < 2 ^ 20 → probe (0x80 * 2 ^ 56) (s.windowGa s.me v)) ∧
  (2 ^ 20 ≤ v → 2 ^ 48 ≤ v ∨ hits = [] → probe (0x04 * 2 ^ 56) 0) ∧
  (∀ m, 2 ^ 20 ≤ v → v < 2 ^ 48 → hits = [m] →
    let h := s.startEntry (coreOf s.me) m
    probe ((if h.st = .moving ∨ (h.winLo ≤ v ∧ v < h.winHi) then 0 else 0x07) * 2 ^ 56 + h.low7 * 2 ^ 16 + m) (h.target v)) ∧
  (∀ m r l, 2 ^ 20 ≤ v → v < 2 ^ 48 → hits = m :: r :: l → probe (0x06 * 2 ^ 56 + r * 2 ^ 8 + m) 0)

/-- R362, R364, R373 to R380: RGINV, RGSYNC, RGRES and RGCPT, the drops and window updates at the tables, the ends of residency fetches, and the
compactor. -/
def Obligations.RangeSteps : Prop := ∀ (s : State) (sc : Scope) (nw : Bool) (d a : Reg) (id tbl i : Nat),
  let q := s.myCore
  let super := s.isSuper s.me = true
  let sel := s.rd d
  let fin := (s.rd a).toNat
  let sameMem := fun (t : State) => t.mem = s.mem
  let drop := fun (l : List Nat) (u : Nat) (t : State) =>
    ∀ m, m < 32 → t.entry u m = if l.contains m then { s.entry u m with st := .dropping } else s.entry u m
  (super → selOk sel = true → limitForm (s.rd a) = true → selVa sel < fin → fin ≤ 2 ^ 48 → s.outstanding s.me = [] → (s.invalsOf s.me).length < 8 →
    ∃ t, exec (.rginv sc nw d a) s = .next t ∧ sameMem t ∧
      drop ((List.range 32).filter (fun m => let e := s.entry q m
        e.looks && (selAny sel || e.tag == selTag sel) && decide (e.base < fin ∧ selVa sel < e.limit))) q t ∧
      (nw = true → (t.thr s.me).pc = (self s).pc + 1 ∧ (t.thr s.me).regs = (self s).regs)) ∧
  (super → (selOk sel = false ∨ limitForm (s.rd a) = false ∨ fin ≤ selVa sel) → Traps (.rginv sc nw d a) s { cause := 0x05, sub := 0x40 }) ∧
  (s.invalsOf s.me = [] → Completes .rgsync s (self s)) ∧
  (s.invalsOf s.me ≠ [] → Parks .rgsync s .mem (.invalidations 0)) ∧
  (super → selOk sel = true → limitForm (s.rd a &&& ~~~1#64) = true → limitForm (s.rd (regPlus a 1)) = true →
    ∃ t, exec (.rgres sc d a) s = .next t ∧ sameMem t ∧ ∀ m, m < 32 →
      let e := s.entry q m
      t.entry q m = if e.st = .valid ∧ (selAny sel = true ∨ e.tag = selTag sel) ∧ e.base ≤ selVa sel ∧ selVa sel < e.limit then
        { e with rlo := fin / 256 * 256, rhi := (s.rd (regPlus a 1)).toNat, fetch := (s.rd a).getLsbD 0 } else e) ∧
  (super → ReadsDescriptor (.rgcpt a) s fin 4 2 true) ∧
  (s.isSuper s.me = false → Traps (.rginv sc nw d a) s { cause := 0x18 } ∧ Traps (.rgres sc d a) s { cause := 0x18 } ∧
    Traps (.rgcpt a) s { cause := 0x18 }) ∧
  (∀ x, s.inval id = some x → ∃ t, exec (.rangeDropArrive id tbl) s = .next t ∧ drop (s.dropMatches x tbl) tbl t ∧ Later s t (.rangeDropAck id tbl) ∧
    sameMem t) ∧
  (∀ x, s.inval id = some x → ∃ t, exec (.rangeDropAck id tbl) s = .next t ∧ t.inval id = some { x with left := x.left.filter (· != tbl) } ∧
    SameThreads s t) ∧
  (s.dropEnded tbl i = true → ∃ t, exec (.rangeEntryInvalid tbl i) s = .next t ∧ SameThreads s t ∧
    ∀ u m, t.entry u m = if u = tbl ∧ m = i then {} else s.entry u m) ∧
  (∀ x, s.inval id = some x → ∃ t, exec (.rgresUpdateArrive id tbl) s = .next t ∧ SameThreads s t ∧ ∀ m, m < 32 →
    t.entry tbl m = if (s.resMatches x tbl).contains m ∧ (s.entry tbl m).st = .valid then x.window (s.entry tbl m) else s.entry tbl m) ∧
  (∀ f, s.fetch id = some f → f.tbl < 90 → f.idx < 32 → (s.entry f.tbl f.idx).st = .fetching → f.dropped = false → s.heldOn f.tbl f.idx = [] →
    (∀ x ∈ s.eng.invals, x.later = []) →
    (s.fetchEnded f = true → ∃ t, exec (.residencyFetchComplete id) s = .next t ∧ t.fetch id = none ∧
      t.entry f.tbl f.idx = { s.entry f.tbl f.idx with st := .valid, rlo := f.newLo, rhi := f.newHi } ∧
      ∀ u m, u < 90 → m < 32 → ¬(u = f.tbl ∧ m = f.idx) → let x := s.entry u m
        t.entry u m = if x.looks = true ∧ sameRange x f.old = true then { x with rlo := f.newLo, rhi := f.newHi } else x) ∧
    (f.failed = true → ∃ t, exec (.residencyFetchFail id) s = .next t ∧ t.fetch id = none ∧
      t.entry f.tbl f.idx = { s.entry f.tbl f.idx with st := .valid })) ∧
  (∀ c l, s.eng.comps = c :: l → s.compTakeable = true →
    ((∃ x ∈ s.allEntries, x.2.2.looks = true ∧ c.refused x.2.2 = true) → StatusReady s c.sent c.fin →
      ∃ t, exec .compactorTake s = .next t ∧ t.eng.comps = l ∧ StatusAt t 5 c.sent c.fin) ∧
    (c.sent = none → (∀ x ∈ s.allEntries, x.2.2.looks = true → c.refused x.2.2 = false) → ∃ t, exec .compactorTake s = .next t ∧ SameThreads s t ∧
      ∀ u m, u < 90 → m < 32 → t.entry u m =
        if (s.entry u m).st = .valid ∧ (s.entry u m).inside c.src c.len = true then { s.entry u m with st := .moving } else s.entry u m)) ∧
  (∀ c l x o, s.eng.comps = c :: l → c.st = .drain x o → s.compDrained = true → ∃ t, exec .compactorDrainDone s = .next t ∧
    t.eng.comps = { c with st := .move x } :: l ∧ SameThreads s t) ∧
  (∀ c l x, s.eng.comps = c :: l → c.st = .move x → s.moveReachable c.src c.len = true → s.moveReachable c.dst c.len = true → Within c.src c.len →
    Within c.dst c.len → (∀ y ∈ s.eng.invals, y.later = []) → ∃ t, exec .compactorMoveDone s = .next t ∧
      (∀ m, m < c.len → t.byte (c.dst + m) = s.byte (c.src + m)) ∧ (∀ m, t.thr m = s.thr m) ∧
      ∀ e ∈ x, e.2 < 32 → (s.entry e.1 e.2).st = .moving →
        t.entry e.1 e.2 = { s.entry e.1 e.2 with st := .valid, offset := (s.entry e.1 e.2).offset + ((c.dst : Int) - c.src) }) ∧
  (∀ c l, s.eng.comps = c :: l → c.st = .rewritten → StatusReady s c.sent c.fin → ∃ t, exec .compactorMoveDone s = .next t ∧
    t.eng.comps = l ∧ StatusAt t (if c.bad then 3 else 1) c.sent c.fin)

/-- R260, R295, R296: the ALU maps and the conversions. A node takes one token of each input, of one structure and coordinate, and gives one token of
port 0's kind and coordinate with the result; a token that is no data passes. On the data plane each map acts lane by lane. -/
def Obligations.NodeMaps : Prop := ∀ (s : State) (k n : Nat) (t : ITok),
  let e := nodeEnv s k n
  let x := nodeState s k n
  let f := nwFmt e.w
  let wd := fmtBits f
  let alu := fun (ev : Instr) (op : Nat) => NodeReady s k n op → ∀ l, e.heads x (usedPorts e.w) = some ((0, t) :: l) →
    (∀ p ∈ (0, t) :: l, e.check x p.1 p.2 = none ∧ sameShape t p.2 = true ∧ (p.2.data = true ∨ p.2.kind = kPERMIT → hasValue p.2.kind = true)) →
    let ps := ((0, t) :: l).map (·.1)
    let v := fun j => (aluElem op f (nwParam e.w) (e.operand ((0, t) :: l) 0 j) (e.operand ((0, t) :: l) 1 j) (e.operand ((0, t) :: l) 2 j)).1
    (t.data = false → NodeGives ev s k n ps [t] []) ∧
    (t.data = true → nwPlane e.w ≠ 1 → NodeGives ev s k n ps [plain (mkData t.kind (tkCoord t.tok) (v 0))] []) ∧
    (t.data = true → nwPlane e.w = 1 → ∃ y, NodeGives ev s k n ps [y] [] ∧ y.tok = mkData t.kind (tkCoord t.tok) 0 ∧
      ∀ j, j < 512 / wd → lane wd y.vec j = v j % 2 ^ wd)
  let conv := fun (ev : Instr) (op : Nat) (ok : Prop) (a : List ITok) => NodeReady s k n op → Stands s k n 0 t →
    (t.data = false → t.kind ≠ kPERMIT → NodeGives ev s k n [0] [t] []) ∧
    (t.data = true → nwPlane e.w ≠ 1 → ok → NodeGives ev s k n [0] a []) ∧
    (t.data = true → ¬ok → NodeSteps ev s k n { x := x, fault := some (streamFault t scBADKIND) })
  let src := (decFmt (BitVec.ofNat 4 (nwParam e.w))).getD .fp32
  let sum := sdSum t.tok
  let digits := (sdDigits 600 (nwParam e.w / 256) (sdSource (nwOpf e.w) (tkPay t.tok % 2 ^ 32) (nwE e.w)).1).map digitBits
  alu (.aluAdd k n) 0x10 ∧ alu (.aluSub k n) 0x11 ∧ alu (.aluMul k n) 0x12 ∧ alu (.aluDiv k n) 0x13 ∧ alu (.aluMin k n) 0x14 ∧ alu (.aluMax k n) 0x15 ∧
  alu (.aluAnd k n) 0x16 ∧ alu (.aluOr k n) 0x17 ∧ alu (.aluXor k n) 0x18 ∧ alu (.aluShl k n) 0x19 ∧ alu (.aluShr k n) 0x1A ∧
  alu (.aluAbs k n) 0x1B ∧ alu (.aluNeg k n) 0x1C ∧ alu (.aluPass k n) 0x1D ∧ alu (.aluCmp k n) 0x1E ∧ alu (.aluFma k n) 0x1F ∧
  (∀ w a b c p, w = 8 ∨ w = 16 ∨ w = 32 → a < 2 ^ w → b < 2 ^ w →
    aluInt 0x10 w p a b c = (a + b) % 2 ^ w ∧ aluInt 0x11 w p a b c = (2 ^ w + a - b) % 2 ^ w ∧ aluInt 0x12 w p a b c = a * b % 2 ^ w ∧
    aluInt 0x13 w p a 0 c = 2 ^ w - 1 ∧ aluInt 0x13 w p (2 ^ (w - 1)) (2 ^ w - 1) c = 2 ^ (w - 1) ∧
    (toSigned w a ≤ toSigned w b → aluInt 0x14 w p a b c = a ∧ aluInt 0x15 w p a b c = b) ∧
    aluInt 0x19 w p a b c = a * 2 ^ (b % w) % 2 ^ w ∧ aluInt 0x1A w p a b c = a / 2 ^ (b % w) ∧ aluInt 0x1B w p (2 ^ (w - 1)) b c = 2 ^ (w - 1) ∧
    (toSigned w (aluInt 0x1C w p a b c) + toSigned w a) % (2 ^ w : Nat) = 0 ∧ aluInt 0x1F w p a b c = (a * b + c) % 2 ^ w ∧
    (aluInt 0x1E w 2 a b c = 1 ↔ toSigned w a < toSigned w b) ∧ (aluInt 0x1E w 4 a b c = 1 ↔ a < b)) ∧
  conv (.cvt k n) 0x20 (hasValue t.kind = true) [plain (mkData t.kind (tkCoord t.tok) (cvtBits f src 0 (tkPay t.tok % 2 ^ fmtBits src)).1)] ∧
  conv (.sd2b k n) 0x21 (t.kind = kSDV)
    (let r := (fround fp32 0 (decide (sum < 0)) sum.natAbs (nwE e.w - 16) false).1
     [plain (if e.depth 0 = 0 then mkData kVALUE 0 r else mkData kPAIR (tkCoord t.tok) r)]) ∧
  conv (.b2sd k n) 0x22 (hasValue t.kind = true)
    [plain (mkTok kSDV (nwParam e.w / 256) ((if t.kind = kVALUE then x.r1 else tkCoord t.tok) % 2 ^ 32 * 2 ^ 32 +
      ((List.range (nwParam e.w / 256)).zip digits).foldl (fun v d => v + d.2 * 2 ^ (21 - 3 * d.1)) 0))] ∧
  conv (.wconv k n) 0x23 (t.kind = kVALUE) ((List.range (64 / wd)).map (fun j => plain (mkData kVALUE 0 (tkPay t.tok / 2 ^ (wd * j) % 2 ^ wd))))

/-- R258, R291 to R294, R304, R305: the stream operators with coordinates. INTERSECT and UNION compare the coordinates of two fibres, REPEAT gives each
element of a fibre the value that belongs to it, REDUCE gives one token for each fibre, SCAN and SCANL give the elements of a level, and ARRAY gathers
batches, whose products its node emits when they are complete. -/
def Obligations.NodeStreams : Prop := ∀ (s : State) (k n id : Nat) (t a b : ITok) (v : Nat),
  let e := nodeEnv s k n
  let x := nodeState s k n
  let both := Stands s k n 0 a ∧ Stands s k n 1 b
  let ca := tkCoord a.tok
  let cb := tkCoord b.tok
  let pair := fun (ev : Instr) (op : Nat) (lowA lowB : Prop) => NodeReady s k n op → both →
    (coordTok a = true → coordTok b = true → (ca = cb → NodeGives ev s k n [0, 1] [a] [b]) ∧ (ca < cb → lowA) ∧ (cb < ca → lowB)) ∧
    (a.kind = kSTOP → b.kind = kSTOP → tkAux a.tok = tkAux b.tok →
      let out := (if x.r0 = 0 then [plain tokEmpty] else []) ++ [plain a.tok]
      NodeGives ev s k n [0, 1] out out) ∧
    (a.kind = kDONE → b.kind = kDONE → NodeGives ev s k n [0, 1] [plain tokDone] [plain tokDone])
  let put := fun (ts : List ITok) => x.outA ++ ts.map (fun y => { tok := y, from_ := e.cyc + 1 : Buf })
  let scans := fun (ev : Instr) (ts : List ITok) (P : Node → Prop) => nwCond e.w = false →
    ∃ u, exec ev s = .next u ∧ ((u.isl k).node n).outA = put ts ∧ P ((u.isl k).node n)
  let ready := fun (l : Bool) => NodeReady s k n (if l then 2 else 1)
  let ev := fun (l : Bool) => if l then Instr.scanl k n else Instr.scan k n
  let got := x.got = [(v, 0)]
  pair (.intersect k n) 0x03 (NodeGives (.intersect k n) s k n [0] [] []) (NodeGives (.intersect k n) s k n [1] [] []) ∧
  pair (.union k n) 0x04 (NodeGives (.union k n) s k n [0] [a] [unionFill b.kind ca])
    (NodeGives (.union k n) s k n [1] [unionFill a.kind cb] [b]) ∧
  (NodeReady s k n 0x04 → both → coordTok a = true → b.kind = kSTOP →
    NodeGives (.union k n) s k n [0] [a] [unionFill (((x.gram 1).kind.orElse (fun _ => x.kinds.getD 1 none)).getD a.kind) ca]) ∧
  (NodeReady s k n 0x04 → both → coordTok b = true → a.kind = kSTOP →
    NodeGives (.union k n) s k n [1] [unionFill (((x.gram 0).kind.orElse (fun _ => x.kinds.getD 0 none)).getD b.kind) cb] [b]) ∧
  (NodeReady s k n 0x05 → both → x.r0 ≠ 1 →
    (a.data = true → coordTok b = true → NodeGives (.repeatNode k n) s k n [1] [if nwPlane e.w = 1 then { tok := mkData kPAIR cb 0, vec := a.vec }
      else plain (mkData kPAIR cb (tkLow a.tok))] []) ∧
    (a.data = true → b.kind = kEMPTY → NodeGives (.repeatNode k n) s k n [0, 1] [b] []) ∧
    (a.data = true → b.kind = kSTOP → NodeGives (.repeatNode k n) s k n [0] [] []) ∧
    (a.kind = kDONE → b.kind = kDONE → NodeGives (.repeatNode k n) s k n [0, 1] [b] [])) ∧
  (NodeReady s k n 0x06 → Stands s k n 0 t →
    (t.data = true → e.redKind t.kind = true → NodeGives (.reduce k n) s k n [0] [] [] (fun y => y.acc = (e.redTake x t).acc)) ∧
    (t.data = true → e.redKind t.kind = false → NodeSteps (.reduce k n) s k n { x := x, fault := some (streamFault t scBADKIND) }) ∧
    (t.kind = kSTOP → nwOpf e.w = false → NodeGives (.reduce k n) s k n [0]
      (e.redResult x none :: (if tkAux t.tok = 0 then [] else [plain (tokStop (tkAux t.tok - 1))])) [] (fun y => y.acc = none)) ∧
    (t.kind = kDONE → nwOpf e.w = false → NodeGives (.reduce k n) s k n [0] [t] [])) ∧
  (∀ l : Bool, ready l → Stands s k n 0 t → x.phase = 0 → t.kind = kREF →
    (nwOpf e.w = false → (nwConst e.w).toNat % 8 = 0 → tkLow t.tok < nwParam e.w →
      scans (ev l) x.heldStop (fun y => y.phase = 1 ∧ y.r0 = tkLow t.tok ∧ y.held = none)) ∧
    (nwOpf e.w = true → (nwConst e.w).toNat % 4 = 0 → scans (ev l) x.heldStop (fun y => y.phase = (if l then 5 else 4) ∧ y.r0 = tkLow t.tok ∧ y.r1 = 0))) ∧
  (∀ l : Bool, ready l → got →
    (x.phase = 2 → x.r1 = v → scans (ev l) [plain tokEmpty] (fun y => y.phase = 0 ∧ y.held = some 0)) ∧
    (x.phase = 2 → x.r1 < v → scans (ev l) [] (fun y => y.phase = 3 ∧ y.r2 = v)) ∧
    (x.phase = 3 → (∀ c, (x.gram 2).coord = some c → c < tkCoord (if l then mkData kPAIR (v / 2 ^ 32) v else mkData kREF v x.r1)) →
      scans (ev l) [plain (if l then mkData kPAIR (v / 2 ^ 32) v else mkData kREF v x.r1)] (fun y => y.r1 = x.r1 + 1))) ∧
  (ready false → x.phase = 4 → scans (.scan k n) [plain (mkData kREF x.r1 (x.r0 * nwParam e.w + x.r1))] (fun y => y.r1 = x.r1 + 1)) ∧
  (ready true → x.phase = 5 → got → scans (.scanl k n) [plain (mkData kPAIR x.r1 v)] (fun y => y.r1 = x.r1 + 1)) ∧
  (∀ (l : Bool) (g : Nat) (via : List Via), ready l → x.phase = 1 ∨ x.phase = 2 ∨ x.phase = 3 ∨ x.phase = 5 → x.got = [] → x.busy = 0 →
    x.fetchWait = none →
    let u := s.putIsl k ((s.isl k).emit n)
    let r := e.scanRead x l
    u.barred k n = false → u.translateIsl k r.1 r.2.bytes permR = .ok g via → u.mapCheck g r.2.bytes .plain r.1 = none → gaSpace g ≠ 5 →
    ∃ w y, exec (ev l) s = .next w ∧ y ∈ w.flights ∧ y.agent = .stream k n ∧ y.ga = g ∧ y.size = r.2.bytes ∧ y.op = .load r.2 false 0) ∧
  (NodeReady s k n 0x50 → Stands s k n 0 t → x.phase = 0 →
    (t.kind = kPAIR → tkCoord t.tok < 128 → ∃ u, exec (.array k n) s = .next u ∧
      ((u.isl k).node n).cur = x.cur ++ [(tkCoord t.tok, tkLow t.tok % 2 ^ (8 * aBytes (arrayFmt e.w)))]) ∧
    (t.kind = kSTOP → tkAux t.tok ≠ 0 → x.rows.length < 32 → x.busy < 2 → x.outA = [] → ∃ u g, exec (.array k n) s = .next u ∧
      (u.col (arrayCol k e.w)).gangs = (s.col (arrayCol k e.w)).gangs ++ [g] ∧ g.rows = x.rows ++ [x.cur] ∧
      g.req = some { isl := k, node := n, plane := bit (nwParam e.w) 0, fmt := arrayFmt e.w })) ∧
  (let c := arrayCol k (nodeAt (s.isl k).words n)
   let d := (s.isl k).env k n
   let y := (s.isl k).node n
   ∀ g f, s.gang c id = some g → (s.isl k).live n = true → y.phase ≠ 2 → ((s.col c).plane g.plane).st = .ready f → g.fails = [] →
     badItem ((s.col c).plane g.plane).marks (((List.range 4).map (planeWords f)).flatten) = none → nwCond d.w = false →
     ∃ u, exec (.arrayRequestComplete k n id) s = .next u ∧ u.gang c id = none ∧ ((u.isl k).node n).busy = y.busy - 1 ∧
       ((u.isl k).node n).outA = y.outA ++ (batchTokens (g.products ((s.col c).plane g.plane) f (arrayFmt d.w))).map
         (fun z => { tok := z, from_ := (s.isl k).cyc + 1 : Buf }))

/-- R261, R297, R299 to R303, R306: the links, the router operations, the memory nodes, the barrier and the edge ports. A token leaves an output when
its consumer has room; whole streams move as the conditions say; a memory node makes the access that its tokens name. -/
def Obligations.NodeControl : Prop := ∀ (s : State) (k n : Nat) (t u : ITok) (c : Bool),
  let e := nodeEnv s k n
  let x := nodeState s k n
  let at_ := fun (p : Nat) (y : ITok) => Stands s k n p y
  let cond := CondStands s k n c
  let fold := t.kind = kFOLD
  let phase := fun (next now : Nat) (y : Node) => y.phase = if t.kind = kDONE then next else now
  (∀ b bs d, let i := s.isl k
    noOuts (nwOp (nodeAt i.words n)) = false → (i.node n).outA = b :: bs → (i.node n).outB = [] → (i.node n).condOut = [] → b.from_ ≤ i.cyc →
    consumers i.words n 0 = [d] → i.room n d = true → d.1 ≠ n → d.2 < 3 → nwRep (nodeAt i.words n) = false →
    ((i.emit n).node n).outA = bs ∧
      ((i.emit n).node d.1).input d.2 = (i.node d.1).input d.2 ++ [{ tok := b.tok, from_ := i.cyc + 1 + between n d.1 : Buf }]) ∧
  (NodeReady s k n 0x30 →
    (x.phase = 0 → cond → at_ 0 t → NodeGives (.steer k n) s k n [0] (if fold ∨ c = true then [t] else []) (if fold ∨ c = false then [t] else [])
      (fun y => y.conds = x.conds.drop 1 ∧ phase 0 (if c then 1 else 2) y)) ∧
    (x.phase = 1 → at_ 0 t → NodeGives (.steer k n) s k n [0] [t] (if fold then [t] else []) (phase 0 1)) ∧
    (x.phase = 2 → at_ 0 t → NodeGives (.steer k n) s k n [0] (if fold then [t] else []) [t] (phase 0 2))) ∧
  (NodeReady s k n 0x31 →
    (x.phase = 0 → cond → at_ (if c then 0 else 1) t → NodeGives (.merge k n) s k n [if c then 0 else 1] [t] []
      (fun y => y.conds = x.conds.drop 1 ∧ phase 0 (if c then 1 else 2) y)) ∧
    (x.phase = 1 ∨ x.phase = 2 → at_ (x.phase - 1) t → NodeGives (.merge k n) s k n [x.phase - 1] [t] [] (phase 0 x.phase))) ∧
  (NodeReady s k n 0x32 →
    (x.phase = 0 → at_ 0 t → NodeGives (.carry k n) s k n [0] [t] [] (phase 1 0)) ∧
    (x.phase = 1 → CondStands s k n true → at_ 1 t → NodeGives (.carry k n) s k n [1] [t] [] (phase 1 2)) ∧
    (x.phase = 1 → CondStands s k n false → NodeGives (.carry k n) s k n [] [] [] (fun y => y.phase = 0)) ∧
    (x.phase = 2 → at_ 1 t → NodeGives (.carry k n) s k n [1] [t] [] (phase 1 2))) ∧
  (NodeReady s k n 0x33 →
    (x.phase = 0 → at_ 0 t → x.store.length < 8 → NodeGives (.invariant k n) s k n [0] [] [] (fun y => y.store = x.store ++ [t] ∧ phase 1 0 y)) ∧
    (x.phase = 0 → at_ 0 t → 8 ≤ x.store.length → NodeSteps (.invariant k n) s k n { x := x, fault := some { cause := 9, kind := t.kind } }) ∧
    (x.phase = 1 → CondStands s k n true → NodeGives (.invariant k n) s k n [] x.store [] (fun y => y.store = x.store)) ∧
    (x.phase = 1 → CondStands s k n false → NodeGives (.invariant k n) s k n [] [] [] (fun y => y.store = [] ∧ y.phase = 0))) ∧
  (NodeReady s k n 0x34 → x.phase = 0 → x.dropLeft = [] → cond → at_ 0 t → at_ 1 u → t.mark = none → u.mark = none →
    NodeGives (.select k n) s k n [0, 1] [if c then t else u] []) ∧
  (NodeReady s k n 0x35 →
    (∀ q, q = 1 ∨ q = 2 → x.phase = 0 → at_ 0 u → at_ q t →
      (x.headAt (3 - q) e.cyc = none ∨ (if q = 1 then x.since 1 ≤ x.since 2 else x.since 2 < x.since 1)) →
      NodeGives (.pmenter k n) s k n [0, q] [t] [u] (phase 0 q)) ∧
    (x.phase = 1 ∨ x.phase = 2 → at_ x.phase t → NodeGives (.pmenter k n) s k n [x.phase] [t] [] (phase 0 x.phase))) ∧
  (NodeReady s k n 0x36 → at_ 0 t → (t.kind ≠ kDONE → NodeGives (.pmexit k n) s k n [0] [t] []) ∧
    (t.kind = kDONE → at_ 1 u → NodeGives (.pmexit k n) s k n [0, 1] [t] [u])) ∧
  (NodeReady s k n 0x37 → at_ 0 t → t.data = true →
    (s.mbarBusy k n = false → ∃ w, exec (.mbar k n) s = .next w ∧
      let y := (w.isl k).node n
      y.input 0 = (x.input 0).tail ∧ y.r0 + 1 = ((s.isl k).standingAt n).length ∧
        y.outA = (x.push e.w (e.cyc + 1) [t] []).outA ∧ y.condOut = (x.push e.w (e.cyc + 1) [t] []).condOut) ∧
    (s.mbarBusy k n = true → x.r0 ≠ 0 → NodeGives (.mbar k n) s k n [0] [t] [] (fun y => y.r0 = x.r0 - 1)) ∧
    (s.mbarBusy k n = true → x.r0 = 0 → exec (.mbar k n) s = .next (s.putIsl k ((s.isl k).emit n)))) ∧
  (nwOp (nodeAt (s.isl k).words n) = 0x38 → (s.isl k).live n = true → x.drop = none → exec (.arg k n) s = .next (s.putIsl k ((s.isl k).emit n))) ∧
  (NodeReady s k n 0x39 → x.headAt 0 e.cyc = some t → NodeGives (.sink k n) s k n [0] [] [] (fun y => y.doneSeen = (x.doneSeen || t.kind == kDONE))) ∧
  (∀ tok due rest, NodeReady s k n 0x60 → x.mesh = (tok, due) :: rest → due ≤ s.sched.cycle → gramError (nwParam e.w) (x.gram 0) tok = none →
    NodeGives (.portin k n) s k n [] [plain tok] [] (fun y => y.mesh = rest)) ∧
  (NodeReady s k n 0x61 → at_ 0 t → NodeGives (.portout k n) s k n [0] [t] []) ∧
  (∀ r b bs, let y := (s.isl k).node n
    nwOp (nodeAt (s.isl k).words n) = 0x61 → (s.isl k).live n = true → (s.isl k).run = some r → y.outA = b :: bs → b.from_ ≤ (s.isl k).cyc →
    y.roomFor 8 s.sched.cycle = true → ∃ w, exec (.portout k n) s = .next w ∧
      (s.sched.cycle + classOne (colOf r.thr) k, .channelTokenArrive r.thr (r.chanOf (n / 8)) r.id b.tok.tok) ∈ w.sched.agenda) ∧
  (let y := (s.isl k).node n
   let d := (s.isl k).env k n
   let sz := memBytes d.w
   let off := (nwConst d.w).toNat % 2 ^ 20 + memIndex t * sz
   let g := s.ga 2 k (n / 8 * 2 ^ 20 + off)
   let mem := fun (ev : Instr) (op : Nat) (l : List (Nat × ITok)) => nwOp (nodeAt (s.isl k).words n) = op → (s.isl k).live n = true → y.store = [] →
     y.got = [] → y.busy = 0 → y.drop = none → d.markedHead y = none → d.foldHead y = none → y.outA = [] → y.condOut = [] →
     (∀ p ∈ l, y.headAt p.1 d.cyc = some p.2 ∧ d.check y p.1 p.2 = none ∧ p.2.data = true ∧ (p.1 = 1 → hasValue p.2.kind = true)) →
     off % sz = 0 → off + sz ≤ 2 ^ 20 → s.barred k n = false → s.blocked g = false → s.ownerFree g sz = true →
     ∃ w a, exec ev s = .next w ∧ a ∈ w.flights ∧ a.agent = .stream k n ∧ a.ga = g ∧ a.size = sz ∧ a.op = memOp d.w l
   mem (.mtload k n) 0x40 [(0, t)] ∧ mem (.mtstore k n) 0x41 [(0, t), (1, u)] ∧ mem (.mtrmw k n) 0x42 [(0, t), (1, u)]) ∧
  (∀ w depth y cyc v, y.store = [t] → y.got = [(v, 0)] → t.data = true → nwCond w = false → (Node.memDrain w depth cyc 8 y).store = [] ∧
    (Node.memDrain w depth cyc 8 y).outA = y.outA ++ [{ tok := memResult w depth t v, from_ := cyc : Buf }])

/-- R307, R309, R386, R389 to R397: graphs of an island. GINSTALL reads a block as loads and sends it, the island refuses it with a cause or writes it
into the lowest FREE bank; GARG, GDRAIN and GRECONF reach the island as commands; a reconfiguration makes its bank ACTIVE; invocations start from the
ACTIVE bank and end; a bank in error reloads from its backing copy or is FREE. -/
def Obligations.Islands : Prop := ∀ (s : State) (d a : Reg) (j : BitVec 7) (kb : BitVec 4) (k b n th graph : Nat) (r : InstallReq) (x : W64),
  let i := s.isl k
  let v := (s.rd a).toNat
  let far := bits v 35 32
  let g := bits v 31 0
  let good := bits v 63 36 = 0 ∧ far ≤ 9 ∧ g ≠ 0
  let super := s.isSuper s.me = true
  let sent := fun (ev : Instr) (c : IslCmd) => exec ev s = .next ((s.after (classOne s.cur.col far) (.islandCommand far c)).parkMe .mem .reply)
  let status := fun (u : State) (t : Nat) (e : Reg) (m : Nat) =>
    (s.sched.cycle + 1 + classOne (colOf t) k, Event.invokeAnswer t (.done [(e, BitVec.ofNat 64 m)] [])) ∈ u.sched.agenda
  let same := fun (u : State) => (∀ m, u.thr m = s.thr m) ∧ (∀ m, m ≠ k → u.isl m = s.isl m)
  (∀ ps via, super → s.keptWords = none → v % 16 = 0 → s.rowWatch 16 (rowList v 16 16 1) false = none →
    s.rowPieces 16 (permR ||| permX) (rowList v 16 16 1) ([], []) = .ok (ps, via) →
    Makes (.ginstall d a kb) s { bulkAccess s.me ps v 16 (.gather ps [] (.install d kb.toNat false)) with via := via }) ∧
  (∀ got, let ws := (List.range (bits (blockWord got 0).toNat 111 104 + 2)).map (blockWord got)
    (s.outstanding s.me = [] → s.installRead got a d k true = (s.after (classOne s.cur.col k) (.islandInstall k { thr := s.me, d := d, words := ws })).parkMe .mem .reply) ∧
    (s.outstanding s.me ≠ [] → s.installRead got a d k true = s.parkMe .mem .drain)) ∧
  (good → sent (.garg d a j) (.garg s.me g j.toNat (s.rd (regPlus a 1)) d) ∧ sent (.greconf d a) (.greconf s.me g d) ∧
    (super → sent (.gdrain d a) (.gdrain s.me g d))) ∧
  (bits v 63 36 ≠ 0 ∨ 9 < far ∨ g = 0 → Writes (.garg d a j) s d 1 ∧ Writes (.greconf d a) s d 1 ∧ (super → Writes (.gdrain d a) s d 1)) ∧
  (s.isSuper s.me = false → Traps (.ginstall d a kb) s { cause := 0x18 } ∧ Traps (.gdrain d a) s { cause := 0x18 }) ∧
  (∀ f, i.freeBank = some f →
    (i.installCause r.words = 0 → ∃ u, exec (.islandInstall k r) s = .next u ∧ same u ∧
      (u.isl k).bank f = blockBank r.words .installing (some (r.thr, r.d)) ∧
      (s.sched.cycle + (r.words.length - 1), Event.islandInstallDone k f) ∈ u.sched.agenda) ∧
    (i.installCause r.words ≠ 0 → ∃ u, exec (.islandInstall k r) s = .next u ∧ same u ∧ u.isl k = i ∧ status u r.thr r.d (i.installCause r.words))) ∧
  ((i.bank b).st = .installing → Within (s.backingCopy k b) (16 * ((i.bank b).nodes.length + 1)) →
    s.bytesMoving (s.backingCopy k b) (16 * ((i.bank b).nodes.length + 1)) = false → ∃ u, exec (.islandInstallDone k b) s = .next u ∧
    same u ∧ (u.isl k).bank b = { i.bank b with st := .installed, installer := none } ∧
    (∀ m, m < (i.bank b).nodes.length → u.readN (s.backingCopy k b + 16 * (m + 1)) 16 = ((i.bank b).nodes.getD m 0).toNat) ∧
    (∀ w, (i.bank b).installer = some w → status u w.1 w.2 (b * 256))) ∧
  (∀ f ws, i.queue = f :: ws → i.idle = true → i.waiting = [] →
    (∀ m, i.bankFor f.graph = some m → i.activeBank = some m → f.states = [] → ∃ u, exec (.invocationStart k) s = .next u ∧ same u ∧
      (u.isl k).run = some { f with bank := m } ∧ (u.isl k).queue = ws ∧
      (s.sched.cycle + classOne (colOf f.thr) k, Event.activeNotice f.thr f.id) ∈ u.sched.agenda) ∧
    (i.bankFor f.graph = none → ∃ u, exec (.invocationStart k) s = .next u ∧ same u ∧ (u.isl k).run = i.run ∧ (u.isl k).queue = ws ∧
      let bad := { cause := 0x16, sub := 2, w2 := BitVec.ofNat 64 (f.graph + k * 2 ^ 32) }
      (s.sched.cycle + classOne (colOf f.thr) k, Event.islandFaultTrap f.thr f.id bad) ∈ u.sched.agenda) ∧
    (∀ m, i.heldReconf = none → i.bankFor f.graph = some m → i.activeBank ≠ some m → ∃ u, exec (.reconfiguration k m) s = .next u ∧ same u ∧
      (u.isl k).reconf = some { bank := m, head := true } ∧ (u.isl k).activeBank = none ∧
      (s.sched.cycle + ((i.bank m).nodes.length + 8), Event.reconfigurationDone k m) ∈ u.sched.agenda)) ∧
  (∀ m ws, i.idle = true → i.heldReconf = some (m, ws) → (i.bank m).st = .installed → ∃ u, exec (.reconfiguration k b) s = .next u ∧ same u ∧
    (u.isl k).heldReconf = none ∧ (u.isl k).reconf = some { bank := m, waiters := ws }) ∧
  (∀ m, i.reconf = some m → m.bank = b → m.head = false → m.void = false → (i.bank b).st = .installed → ∃ u, exec (.reconfigurationDone k b) s = .next u ∧ same u ∧
    (u.isl k).activeBank = some b ∧ (u.isl k).bank b = { i.bank b with st := .active } ∧ (u.isl k).reconf = none ∧
    ∀ w ∈ m.waiters, status u w.1 w.2 0) ∧
  (s.hasEnded k = true → i.gargs = [] → ∃ u, exec (.invocationEnd k) s = .next u ∧ same u ∧ (u.isl k).run = none ∧ (u.isl k).nodes = [] ∧
    (u.isl k).banks = i.banks) ∧
  (∀ f m c, s.reportDue k = true → i.run = some f → i.faulting = some (m, c) →
    let detail := bits (i.faultReg m).toNat 47 40 * 256 + bits (i.faultReg m).toNat 39 32
    let w2 := BitVec.ofNat 64 (f.graph + k * 2 ^ 32 + m * 2 ^ 40)
    ∃ u, exec (.nodeFaultReport k) s = .next u ∧ same u ∧ (u.isl k).run = none ∧
      (s.sched.cycle + classOne (colOf f.thr) k, Event.islandFaultTrap f.thr f.id { cause := 0x16, sub := 0x20, detail := detail, w2 := w2 }) ∈
        u.sched.agenda) ∧
  (∀ m, i.liveBank graph = some m →
    (i.run = none → n < (i.bank m).nslots → ∃ u, exec (.islandCommand k (.garg th graph n x d)) s = .next u ∧ same u ∧ status u th d 0 ∧
      (u.isl k).bank m = { i.bank m with args := sset 0 (i.bank m).args n x }) ∧
    ((i.bank m).nslots ≤ n → ∃ u, exec (.islandCommand k (.garg th graph n x d)) s = .next u ∧ u.isl k = i ∧ status u th d 3) ∧
    (∃ u, exec (.islandCommand k (.gdrain th graph d)) s = .next u ∧ same u ∧
      (u.isl k).bank m = { i.bank m with st := .draining, waiters := (i.bank m).waiters ++ [(th, d)] }) ∧
    (i.heldReconf = none → exec (.islandCommand k (.greconf th graph d)) s = .next (s.modIsl k (fun i => { i with heldReconf := some (m, [(th, d)]) })))) ∧
  (i.liveBank graph = none → ∃ u, exec (.islandCommand k (.gdrain th graph d)) s = .next u ∧ u.isl k = i ∧ status u th d 2) ∧
  ((i.bank b).st ≠ .free → (i.bank b).reloading = false → ∃ u, exec (.configError k b n) s = .next u ∧ same u ∧
    (u.isl k).bank b = { i.bank b with reloading := true, errSlot := n } ∧ Later s u (.configReloadDone k b)) ∧
  ((i.bank b).reloading = true → s.bytesMoving (s.backingCopy k b) 0x1000 = false →
    (∀ ws, s.readBacking k b = some ws → crc32c ((ws.map wordBytes).flatten) = (i.bank b).signature → ∃ u, exec (.configReloadDone k b) s = .next u ∧
      same u ∧ (u.isl k).bank b = { i.bank b with nodes := ws, marks := [], reloading := false }) ∧
    (s.readBacking k b = none → ∃ u, exec (.configReloadDone k b) s = .next u ∧ same u ∧ (u.isl k).bank b = {}))

/-- R401 to R406, R411 to R422: barriers, event counters, the sampler's local instructions and the operations of the sequence table. -/
def Obligations.CountersSampler : Prop := ∀ (s : State) (d a : Reg) (n : BitVec 4) (v : VReg) (new : Bool) (t j : Nat) (w : W64),
  let c := s.col s.cur.col
  let bar := c.bar n.toNat
  let x := s.rd a
  let own := fun (u : State) (pc : W64) (y : Thread) => u.thr s.me = done y pc ∧ (∀ m, m ≠ s.me → u.thr m = s.thr m) ∧ u.mem = s.mem ∧
    ∀ m, m ≠ s.cur.col → u.col m = (s.count s.me 0).col m
  let sent := fun (ev : Instr) (op : SeqOp) => ∃ u due, exec ev s = .next u ∧ s.sched.cycle < due ∧
    u.sched.agenda = s.sched.agenda ++ [(due, .sequenceTableOperation s.me op)] ∧ (∀ m, m ≠ s.me → u.thr m = s.thr m) ∧
    u.thr s.me = parked s s.me .mem .reply
  let e := s.seqEntry j
  let seq := fun (op : SeqOp) (e' : SeqEntry) (r : W64) => (s.thr t).wait = .reply → ∃ u due, exec (.sequenceTableOperation t op) s = .next u ∧
    s.sched.cycle < due ∧ u.sched.agenda = s.sched.agenda ++ [(due, .memReply t (.done [(d, r)] []))] ∧
    (∀ m, u.seqEntry m = if m = j then e' else s.seqEntry m) ∧ SameThreads s u
  let y := w.toNat % 2 ^ 32
  let z := w.toNat / 2 ^ 32
  let bad := s.pkg.ineligible z
  let hit := bnat (!bad && z == y && y != 0xFFFFFFFF)
  let toks := bits w.toNat 31 16
  let st := if bits w.toNat 15 8 ≠ 0 then 3 else if s.disp.aborts.contains (w.extractLsb' 32 32) then 1
    else if 2 ^ 32 ≤ e.committed.toNat + toks then 2 else 0
  (∃ u, exec (.barj d n) s = .next u ∧ own u ((self s).pc + 1) ((self s).putS d (BitVec.ofNat 64 (bnat (bcPhase bar)))) ∧
    (let r := (u.col s.cur.col).bar n.toNat
     if bcTarget bar = 0 then r = bar
     else if bcTarget bar ≤ bcCount bar + 1 then bcTarget r = bcTarget bar ∧ bcCount r = 0 ∧ bcPhase r = !bcPhase bar
     else bcTarget r = bcTarget bar ∧ bcCount r = bcCount bar + 1 ∧ bcPhase r = bcPhase bar)) ∧
  (bcTarget bar = 0 ∨ bcPhase bar ≠ x.getLsbD 0 → Completes (.barw a n) s (self s)) ∧
  (bcTarget bar ≠ 0 → bcPhase bar = x.getLsbD 0 → Parks (.barw a n) s .barrier (.barrier n.toNat (x.getLsbD 0))) ∧
  (∃ u, exec (.cntinc n a) s = .next u ∧ own u ((self s).pc + 1) (self s) ∧ (u.col s.cur.col).evCount n.toNat = c.evCount n.toNat + x) ∧
  (x.toNat ≤ (c.evCount n.toNat).toNat → Completes (.cntwait n a) s (self s)) ∧
  ((c.evCount n.toNat).toNat < x.toNat → Parks (.cntwait n a) s .event (.event n.toNat x.toNat)) ∧
  (∃ r, Completes (.snoise v a) s ((self s).putV v r) ∧ ∀ i, i < 16 → lane 32 r i = (fadd fp32 0 (lane 32 (s.rdV v) i)
    (gumbel (noiseWord s.pkg.rngkey ((s.rd (regPlus a 1)).setWidth 16) (x.setWidth 32) (x.extractLsb' 32 32 + BitVec.ofNat 32 i)))).1 % 2 ^ 32) ∧
  (∃ h : W64, Completes (.smaxk d v a new) s ({ self s with hand := h }.putS d h) ∧
    let start := if new then 0xFFFFFFFFFF800000 else (self s).hand
    let id := fun i => (x.toNat + i) % 2 ^ 32
    let val := fun i => lane 32 (s.rdV v) i
    let may := fun i => s.pkg.ineligible (id i) = false ∧ (fdec fp32 (val i)).isNan = false
    (h = start ∨ ∃ i, i < 16 ∧ may i ∧ h = BitVec.ofNat 64 (id i * 2 ^ 32 + val i)) ∧
    ((fdec fp32 (start.toNat % 2 ^ 32)).isNan = false → ∀ i, i < 16 → may i → fpKey (val i) ≤ fpKey (h.toNat % 2 ^ 32) ∧
      (fpKey (val i) = fpKey (h.toNat % 2 ^ 32) → h.toNat / 2 ^ 32 ≤ id i))) ∧
  sent (.rngdraw d a) (.draw (x.toNat % 256) d) ∧ sent (.accept d a) (.accept ((s.rd d).toNat % 256) x d) ∧
  (s.outstanding s.me = [] → sent (.kvcommit d a) (.commit x d)) ∧
  (s.isSuper s.me = true → sent (.genabort a) (.abort (x.toNat % 2 ^ 32))) ∧
  (s.isSuper s.me = false → Traps (.genabort a) s { cause := 0x18 }) ∧
  seq (.draw j d) { e with draw := e.draw + 1, wrap := e.wrap || e.draw == 0xFFFF#16 }
    (arx (s.pkg.rngkey.setWidth 32) (s.pkg.rngkey.extractLsb' 32 32) (e.req ++ e.draw) e.pos) ∧
  seq (.accept j w d) { e with oov := e.oov || bad } (BitVec.ofNat 64 (bnat bad * 4 + hit * 2 + hit)) ∧
  (j = w.toNat % 256 → let e' := if st = 0 then { e with committed := e.committed + BitVec.ofNat 32 toks } else e
    seq (.commit w d) e' (BitVec.ofNat 64 (e'.committed.toNat * 2 ^ 32 + st))) ∧
  ((s.thr t).wait = .reply → ∃ u, exec (.sequenceTableOperation t (.abort j)) s = .next u ∧ u.disp.aborts = abortPut s.disp.aborts (BitVec.ofNat 32 j) ∧
    Later s u (.memReply t (.done [] [])))

/-- R38, R408 to R410, R435, R439: the ends of parks. A park whose condition holds ends: the thread is READY again, or its instruction is complete.
QWAIT parks until its placement is quiet or its limit is reached; a column whose blocked threads have not moved for 4,096 cycles traps DEADLOCK. -/
def Obligations.ParksAndQuiescence : Prop := ∀ (s : State) (d a : Reg) (t c cols isls : Nat) (tokens : Bool) (w : Wait),
  let x := s.thr t
  let limit := (s.rd d).toNat
  let place := (s.rd a).toNat
  let ends := fun (u : State) (r : Thread) => u.thr t = { r with st := s.readySt t, wait := .none, readyFrom := s.cycOf t + 1 } ∧
    (∀ m, m ≠ t → u.thr m = s.thr m) ∧ u.mem = s.mem
  (x.wait = w → s.waitOver t = true →
    ((∃ n, w = .chan n) ∨ (∃ n e, w = .tile n e) ∨ (∃ n, w = .window n) ∨ (∃ n, w = .transit n) ∨ w = .hold ∨ (∃ n, w = .bankBusy n) ∨ w = .masked ∨
      (∃ n i e v, w = .entry n i e v) ∨ (∃ n i, w = .entryFree n i) ∨ (∃ g, w = .patrol g) ∨ w = .drain ∨ w = .retry ∨ (∃ n, w = .queue n) ∨
      (∃ n, w = .invalidations n) → ∃ u, exec (.parkWake t) s = .next u ∧ ends u x) ∧
    ((∃ n p, w = .barrier n p) ∨ (∃ n v, w = .event n v) → ∃ u, exec (.parkWake t) s = .next u ∧
      ends u (if x.parkedAt = s.cycOf t then done x (x.pc + 1) else x)) ∧
    ((∃ sc, w = .fence sc) → x.deferred = [] → ∃ u, exec (.parkWake t) s = .next u ∧ ends u (done x (x.pc + 1)))) ∧
  (x.wait = w → s.waitOver t = false → exec (.parkWake t) s = .next s) ∧
  (s.isSuper s.me = true → place < 2 ^ 31 → ∃ u, exec (.qwait d a) s = .next u ∧
    u.thr s.me = parked s s.me .mem (.quiet (place % 2 ^ 20) (bits place 29 20) (bit place 30) d) ∧
    (∀ m, m ≠ s.me → u.thr m = s.thr m) ∧
    u.sched.agenda = s.sched.agenda ++ (if limit = 0 then [] else [(s.sched.cycle + 16 * limit, .qwaitLimit s.me)])) ∧
  (s.isSuper s.me = true → 2 ^ 31 ≤ place → Traps (.qwait d a) s { cause := 0x15, sub := 0x40 }) ∧
  (s.isSuper s.me = false → Traps (.qwait d a) s { cause := 0x18 }) ∧
  (x.wait = .quiet cols isls tokens d →
    (s.quietFor t cols isls tokens = true → ∃ u, exec (.quiescenceReport t) s = .next u ∧ ends u (done (x.putS d 0) (x.pc + 1))) ∧
    (s.quietFor t cols isls tokens = false → exec (.quiescenceReport t) s = .next s) ∧
    (∃ u v, exec (.qwaitLimit t) s = .next u ∧ ends u (done (x.putS d v) (x.pc + 1)) ∧ v.getLsbD 63 = true ∧
      (∀ k, k < 20 → v.getLsbD k = (bit cols k && (s.col k).hist.seen k t tokens)) ∧
      (∀ k, k < 10 → v.getLsbD (20 + k) = (bit isls k && (s.isl k).hist.seen (20 + k) t tokens)))) ∧
  (∀ b l, s.deadlockDue c = true → s.blockedSlots c = b :: l → ∃ (u : State) (i : TrapInfo), exec (.deadlock c) s = .next (u.trap (64 * c + b.1) i) ∧ (∀ m, u.thr m = s.thr m) ∧
    (∀ q, u.core q = s.core q) ∧ u.mem = s.mem ∧ i.cause = 0x17 ∧
    i.w2 = BitVec.ofNat 64 (2 ^ b.1 + l.foldl (fun v e => v + 2 ^ e.1) 0) ∧ (u.col c).moved = s.sched.cycle + 1)

/-- R437, R438, R440 to R447: GATE and context images. GATE parks until every unit named has answered, and each unit's gate is set or clear; CTXSAVE
writes the image of its target and leaves the target EMPTY, or reports a status; CTXLOAD reads an image and restores its target. -/
def Obligations.Contexts : Prop := ∀ (s : State) (a d : Reg) (opn : Bool) (id n c m : Nat) (g : Nat) (via : List Via) (got : Sparse Byte),
  let v := (s.rd a).toNat
  let us := gateUnits v
  let sel := s.rd d
  let t := selThread sel.toNat
  let size := selSize sel.toNat
  let ps := s.pieces (inWindow v) g v 0 size
  let super := s.isSuper s.me = true
  let ok := fun (save : Bool) => v % 64 = 0 ∧ selBad sel.toNat = false ∧ s.watchpoint s.me v size (!save) save = none ∧ s.mapExtent g size .bulk v = none
  let sends := fun (image : Sparse Byte) (u : State) => exec (.ctxsave d a) s = .next u ∧ ∃ f, f ∈ u.flights ∧ f.agent = .thread s.me ∧ f.size = size ∧
    SameOp f.op (.scatter ps image false (.done [(d, 0)] []))
  (super → v < 2 ^ 34 → bits v 31 13 = 0 → bits v 12 8 ≤ 19 → us ≠ [] → ∃ u, exec (.gate a opn) s = .next u ∧
    u.thr s.me = parked s s.me .mem .reply ∧
    u.disp.gateWaits = s.disp.gateWaits ++ [(s.sched.seq, s.me, us.length)] ∧ ∀ x ∈ us, Later s u (.gateArrive s.sched.seq x opn)) ∧
  (super → v < 2 ^ 34 → bits v 31 13 = 0 → bits v 12 8 ≤ 19 → us = [] → Completes (.gate a opn) s (self s)) ∧
  (super → 2 ^ 34 ≤ v → Traps (.gate a opn) s { cause := 0x15, sub := 0x40 }) ∧
  (s.isSuper s.me = false → Traps (.gate a opn) s { cause := 0x18 } ∧ Traps (.ctxsave d a) s { cause := 0x18 } ∧ Traps (.ctxload d a) s { cause := 0x18 }) ∧
  (∃ u, exec (.gateArrive id .dealer opn) s = .next u ∧ u.disp.dealerGate = !opn ∧ SameThreads s u) ∧
  (∃ u, exec (.gateArrive id .launch opn) s = .next u ∧ u.disp.launchGate = !opn ∧ SameThreads s u) ∧
  (∃ u, exec (.gateArrive id (.chans c m) opn) s = .next u ∧ SameThreads s u ∧ ∀ o, o < 8 → u.out c o = if bit m o then { s.out c o with gate := !opn } else s.out c o) ∧
  (∀ k, s.disp.gateWaits.find? (fun x => x.1 == id) = some (id, n, k) →
    (k ≤ 1 → ∃ u, exec (.gateAck id) s = .next u ∧ (∀ p, p ≠ n → u.thr p = s.thr p) ∧
      u.thr n = { done (s.thr n) ((s.thr n).pc + 1) with st := s.readySt n, wait := .none, readyFrom := s.cycOf n + 1 }) ∧
    (2 ≤ k → ∃ u, exec (.gateAck id) s = .next u ∧ (id, n, k - 1) ∈ u.disp.gateWaits ∧ SameThreads s u)) ∧
  (super → (self s).deferred = [] → ok true → s.translate s.me v size permW = .ok g via →
    (s.saveStatus sel.toNat ≠ 0 → Writes (.ctxsave d a) s d (BitVec.ofNat 64 (s.saveStatus sel.toNat))) ∧
    (s.saveStatus sel.toNat = 0 → s.outstanding s.me = [] →
      (selKind sel.toNat = 0 → s.settled t = true → ∃ u, sends (s.saveThread t).1 u ∧ (u.thr t).st = .empty) ∧
      (selKind sel.toNat = 1 → ∃ u, sends (s.saveCode sel.toNat) u) ∧
      (selKind sel.toNat = 2 → ∃ u, sends (s.saveColumn (selCol sel.toNat)).1 u ∧ (u.col (selCol sel.toNat)).acc = []))) ∧
  (∀ i j, i < 32 → j < 8 → sget 0 (s.saveThread t).1 (8 * i + j) = ((s.thr t).sreg (BitVec.ofNat 5 i)).extractLsb' (8 * j) 8) ∧
  (super → ok false → s.translate s.me v size permR = .ok g via →
    Makes (.ctxload d a) s { bulkAccess s.me ps v size (.gather ps [] (.context d sel)) with via := via }) ∧
  (imageOk sel.toNat got = false → s.contextRead got d sel = (s.wr d 3).finish) ∧
  (imageOk sel.toNat got = true → selKind sel.toNat = 0 → s.outstanding s.me = [] → (s.thr t).st = .empty → t ≠ s.me → bits (gotWord got 180).toNat 63 60 = 1 →
    let u := s.contextRead got d sel
    (u.thr t).st = s.readySt t ∧ (u.thr t).pc = gotWord got 176 ∧ (∀ r : Reg, r ≠ 0 → (u.thr t).sreg r = gotWord got r.toNat) ∧
      u.thr s.me = done ((self s).putS d 0) ((self s).pc + 1))

/-- R28, R339, R340, R425, R427, R430 to R432: launches, and freezes, stops, steps and releases. The launch queue takes the entry at its head; slots of
an image that is installed start; a trigger gates its partition 24 cycles later, or a stopped column at the next multiple of 16; a release lets the
partitions run from the cycle in which they stood; a step runs one column for 16 cycles. -/
def Obligations.LaunchAndFreeze : Prop := ∀ (s : State) (cols isls core c k e : Nat),
  let col := s.col c
  let isl := s.isl k
  (s.launchTakeable = true → ∃ u, exec .launchTakeEntry s = .next u ∧ u.pkg.lqhead = s.pkg.lqhead + 1 ∧ SameThreads s u ∧
    (if (s.lqWord s.pkg.lqhead.toNat 5).toNat % 256 = 1 then u.disp.loading = some s.pkg.lqhead.toNat ∧ (u.lqWord s.pkg.lqhead.toNat 5).toNat = 2 ∧
        (u.lqWord s.pkg.lqhead.toNat 6) = s.time ∧ Later s u .launchInstallDone
      else u.pkg.lqskip = true ∧ u.disp.loading = s.disp.loading)) ∧
  (s.disp.loading = some e →
    let refused := fun (r : LaunchRefusal) => ∃ u, exec .launchInstallDone s = .next u ∧ u.disp.loading = none ∧
      u.lqWord e 5 = BitVec.ofNat 64 (r.vc % 32 * 2 ^ 24 + r.detail % 256 * 2 ^ 16 + r.code * 2 ^ 8 + 5) ∧ u.lqWord e 7 = s.time ∧
      bit u.pkg.intstat.toNat 0 = true ∧ ∀ m, u.thr m = s.thr m
    let sends := fun (u : State) (op : AccOp) => exec .launchInstallDone s = .next u ∧ (∀ m, u.thr m = s.thr m) ∧ u.mem = s.mem ∧
      ∃ a ∈ u.flights, a.agent = .launch ∧ SameOp a.op op
    let image := (s.lqWord e 0).toNat
    let badWord0 := 2 ^ 52 ≤ image ∨ image % 64 ≠ 0 ∨ 4 < gaSpace image ∨ (s.mapCheck image 64 .bulk 0).isSome = true
    (s.disp.data = none → s.disp.reading = none → (badWord0 → refused { code := 4 }) ∧
      (¬badWord0 → ∃ u, sends u (.gather (s.pieces false image image 0 64) [] .image) ∧ u.disp.reading = some (s.sched.seq, false))) ∧
    (∀ (seq : Nat) (whole bad : Bool) (got : Sparse Byte), s.disp.data = none → s.disp.reading = some (seq, whole) → s.readDone seq = some (got, bad) →
      let len := imgLe got 12 4
      (bad = true → refused { code := 4 }) ∧
      (bad = false → whole = false → headerOk got = false → refused { code := 1 }) ∧
      (bad = false → whole = false → headerOk got = true → (s.mapCheck image len .bulk 0).isSome = true → refused { code := 4 }) ∧
      (bad = false → whole = false → headerOk got = true → s.mapCheck image len .bulk 0 = none → len ≠ 64 →
        ∃ u, sends u (.gather (s.pieces false (image + 64) (image + 64) 64 (len - 64)) got .image) ∧ u.disp.reading = some (s.sched.seq, true)) ∧
      (∀ r, bad = false → whole = true → (s.dropFlight seq).launchRefused e got = some r → refused r)) ∧
    (∀ l, s.disp.data = some l → l.flight.any (fun k => (s.flight k).isSome) = false →
      (l.todo = [] → ∃ u, exec .launchInstallDone s = .next u ∧ u.disp.loading = none ∧ (u.lqWord e 5).toNat = 3 ∧
        u.disp.running = s.disp.running ++ [(e, l.cols)] ∧ (∀ m, (∀ x ∈ l.starts, x.1 ≠ m) → u.thr m = s.thr m) ∧
        ∀ x ∈ l.starts, (∀ y ∈ l.starts, y.1 = x.1 → y = x) → u.thr x.1 = started s x.1 (BitVec.ofNat 64 x.2)) ∧
      (∀ x xs g via, l.todo = x :: xs → s.dataGa x = .ok g via → s.mapCheck g x.bytes.length .bulk 0 = none → ∃ u,
        sends u (.scatter (s.pieces (inWindow x.va) g x.va 0 x.bytes.length) (listTable x.bytes) true (.done [] [])) ∧
        u.disp.data = some { l with todo := xs, flight := some s.sched.seq }) ∧
      (∀ x xs f, l.todo = x :: xs → s.dataGa x = .fault f → refused { code := 8, vc := x.vc }))) ∧
  (c < 20 → k < 10 →
    (∃ u, exec (.freeze cols isls) s = .next u ∧ SameThreads s u ∧
      u.col c = (if bit cols c && !col.frozen && col.gateDue.isNone then { col with gateDue := some (col.cyc, false, false) } else col) ∧
      u.isl k = if bit isls k && !isl.frozen && isl.gateDue.isNone then { isl with gateDue := some isl.cyc } else isl) ∧
    (∃ u, exec (.stopTheColumn cols isls) s = .next u ∧ SameThreads s u ∧
      (u.col c).gateDue = if bit cols c && !col.frozen && col.gateDue.isNone then some (col.cyc, true, false) else col.gateDue) ∧
    (∃ u, exec (.release cols isls) s = .next u ∧ u.mem = s.mem ∧ (u.col c).frozen = (col.frozen && !bit cols c) ∧ (u.col c).cyc = col.cyc ∧
      (u.isl k).frozen = (isl.frozen && !bit isls k) ∧ (u.isl k).cyc = isl.cyc ∧ (∀ q, q < 4 → bit cols c = true → (u.core (4 * c + q)).dbl = false)) ∧
    (∃ u, exec (.step cols core) s = .next u ∧ u.mem = s.mem ∧
      (if bit cols c && col.frozen then (u.col c).frozen = false ∧ (u.col c).stepCore = some (core % 4) else (u.col c).stepCore = col.stepCore) ∧
      (u.col c).cyc = col.cyc)) ∧
  (∀ t stop byTrap, col.gateDue = some (t, stop, byTrap) → col.frozen = false → gateCycle t stop ≤ col.cyc → ∃ u,
    exec (.partitionGate (.column c)) s = .next u ∧ SameThreads s u ∧ (u.col c).frozen = true ∧ (u.col c).cyc = col.cyc ∧
    (u.col c).fcyc = BitVec.ofNat 64 col.cyc ∧ (u.col c).fskid = BitVec.ofNat 5 ((if stop then 16 else 0) + (col.cyc - (t + 24)))) ∧
  (∀ t, isl.gateDue = some t → isl.frozen = false → t + 24 ≤ isl.cyc → ∃ u, exec (.partitionGate (.island k)) s = .next u ∧ SameThreads s u ∧
    (u.isl k).frozen = true ∧ (u.isl k).ifcyc = BitVec.ofNat 64 isl.cyc) ∧
  (col.stepCore.isSome = true → col.frozen = false → col.fcyc.toNat + 16 ≤ col.cyc → ∃ u, exec (.stepEnd c) s = .next u ∧ SameThreads s u ∧
    (u.col c).frozen = true ∧ (u.col c).stepCore = none ∧ (u.col c).fcyc = BitVec.ofNat 64 col.cyc) ∧
  (∃ u, exec .freezePinAssert s = .next u ∧ SameThreads s u ∧ (s.sched.stopped = false → u.sched.pinDue = some (s.sched.cycle + 24))) ∧
  (∃ u, exec .freezePinRelease s = .next u ∧ SameThreads s u ∧ u.sched.stopped = s.mgmt.off ∧ u.sched.pinDue = none ∧ u.pkg.pin = false)

/-- R191, R199, R453 to R462: the host port and the links. A BAR2 read returns the bytes of memory once its owners have read them, a BAR2 write writes its
enabled bytes at theirs, registers are reached at once, and a request behind one under way keeps its place; unsupported requests set bits of HPERR; a failed window access ends; packets of another package become accesses here or are passed on; a link that goes down ends
what was awaited from beyond it. -/
def Obligations.HostAndChain : Prop := ∀ (s : State) (off n ga src dst seq v : Nat) (data : List (Option Byte)) (west : Bool),
  let g := s.bar2Ga off
  let free := s.host.held = [] ∧ s.host.busy = none
  let leaves := fun (ev : Instr) (op : AccOp) => ∃ u, exec ev s = .next u ∧ SameThreads s u ∧ u.host.busy = some s.sched.seq ∧
    ∃ a ∈ u.flights, a.agent = .host ∧ a.seq = s.sched.seq ∧ SameOp a.op op
  let ends := fun (u : State) => exec (.ownerAccess seq) s = .next u ∧ u.flight seq = none ∧ u.host.busy = none ∧ ∀ m, u.thr m = s.thr m
  (0 < n → n ≤ 4096 →
    (free → s.mapCheck g n .plain 0 = none → (gaSpace g ≠ 5 → leaves (.hostBar2Read off n) (.gather (s.pieces false g 0 0 n) [] .host)) ∧
      (gaSpace g = 5 → exec (.hostBar2Read off n) s = .next ((s.bar2Clear g n).tell (.bar2Data (s.bar2Bytes g n) false)))) ∧
    (¬free → exec (.hostBar2Read off n) s = .next { s with host := { s.host with held := s.host.held ++ [.hostBar2Read off n] } })) ∧
  (s.pkg.rcctl = 0 → 0 < data.length → data.length ≤ 512 →
    (free → s.mapCheck g data.length .plain 0 = none →
      (gaSpace g ≠ 5 → leaves (.hostBar2Write off data) (.hostWrite (s.pieces false g 0 0 data.length) data)) ∧
      (gaSpace g = 5 → exec (.hostBar2Write off data) s = .next (s.bar2Regs g data))) ∧
    (¬free → exec (.hostBar2Write off data) s = .next { s with host := { s.host with held := s.host.held ++ [.hostBar2Write off data] } })) ∧
  (∀ a x, s.flight seq = some a → s.standing a = true → a.agent = .host → x.piped = false → x.due ≤ s.sched.cycle →
    s.pieceReady x = true → (∀ k m, s.owner x.ga ≠ .tile k m) →
    (∀ got, a.op = .gather [x] got .host → ∃ u, ends u ∧
      u.host.out = s.host.out ++ [.bar2Data (bytesUpTo (s.readPiece x got) a.size) (a.bad.isSome || (s.badWord x.ga x.n).isSome)]) ∧
    (a.op = .hostWrite [x] data → Within x.ga x.n → ∃ u, ends u ∧
      (∀ i, i < x.n → u.byte (x.ga + i) = (data.getD (x.off + i) none).getD (s.byte (x.ga + i))) ∧
      ∀ h, gaSpace h < 4 → Outside x.ga x.n h → u.byte h = s.byte h)) ∧
  (4096 < n → ∃ u l, exec (.hostBar2Read off n) s = .next u ∧ u.host.out = s.host.out ++ .unsupported :: l ∧ bit u.pkg.hperr.toNat 3 = true) ∧
  (512 < data.length → ∃ u, exec (.hostBar2Write off data) s = .next u ∧ SameThreads s u ∧ bit u.pkg.hperr.toNat 2 = true) ∧
  (∃ u l, exec (.hostUnsupportedRequest true) s = .next u ∧ SameThreads s u ∧ u.host.out = s.host.out ++ .unsupported :: l ∧
    bit u.pkg.hperr.toNat 3 = true) ∧
  (∃ u, exec (.hostUnsupportedRequest false) s = .next u ∧ SameThreads s u ∧ bit u.pkg.hperr.toNat 2 = true) ∧
  (∀ a m, s.flight seq = some a → s.atHost a = true → a.agent = .thread m →
    (a.op.isWrite = false → a.op.inPieces = false → ∃ u, exec (.hostWindowTimeout seq) s = .next u ∧ u.flight seq = none ∧ SameThreads s u ∧
      bit u.pkg.hperr.toNat 1 = true ∧ Later s u (.memReply m (.trap { cause := 0x08, sub := 3, w2 := BitVec.ofNat 64 a.va }))) ∧
    (∀ l got v, a.op = .gather l got (.tile v) → ∃ u f, exec (.hostWindowTimeout seq) s = .next u ∧ SameThreads s u ∧
      bit u.pkg.hperr.toNat 1 = true ∧ u.flight seq = some f ∧ f.waiting = true ∧ f.op = .gather [] got (.tile v) ∧ f.bad.isSome = true) ∧
    (a.op.isWrite = true → ∃ u, exec (.hostWindowStoreFail seq) s = .next u ∧ SameThreads s u ∧ bit u.pkg.hperr.toNat 0 = true ∧
      (a.op.inPieces = false → u.flight seq = none))) ∧
  exec (.deviceControl2Write v) s = .next { s with host := { s.host with timeoutMs := v } } ∧
  (s.pkg.rcctl = 0 → (if src < s.pkg.pkgNo.toNat then s.pkg.westUp else s.pkg.eastUp) = true →
    (dst = s.pkg.pkgNo.toNat → ∃ u a, exec (.chainPacket src dst seq (.load ga n)) s = .next u ∧ SameThreads s u ∧ a ∈ u.flights ∧
      a.agent = .chain src ∧ a.ga = ga ∧ a.size = n ∧ a.pc = seq) ∧
    (dst ≠ s.pkg.pkgNo.toNat → s.linkUp dst = true → ∃ u, exec (.chainPacket src dst seq (.load ga n)) s = .next u ∧ SameThreads s u ∧
      u.host.out = s.host.out ++ [.chain dst src seq (.load ga n)])) ∧
  (∃ u, exec (.chainLinkDown west) s = .next u ∧ (if west then u.pkg.westUp else u.pkg.eastUp) = false ∧ bit u.pkg.intstat.toNat 6 = true ∧
    ∀ a ∈ s.lostFlights west, ∀ m z sg d, a.agent = .thread m → a.op = .load z sg d →
      (s.sched.cycle, Event.memReply m (.trap { cause := 0x08, sub := 4, w2 := BitVec.ofNat 64 a.va })) ∈ u.sched.agenda) ∧
  (n = 8 ∨ n = 16 → (if west then s.host.westLost else s.host.eastLost) = false → ∃ u, exec (.ucieLinkRetrain west n) s = .next u ∧ SameThreads s u ∧
    (if west then u.pkg.westUp else u.pkg.eastUp) = true ∧ (if west then u.host.widthWest else u.host.widthEast) = n) ∧
  ((if west then s.host.westLost else s.host.eastLost) = true → exec (.ucieLinkRetrain west n) s = .next s) ∧
  (s.pkg.pkgNo = 0 → s.pkg.eastUp = true → exec .timeSyncSend s = .next (s.tell (.chainTime s.time.toNat))) ∧
  (s.pkg.pkgNo ≠ 0 → s.pkg.westUp = true → ∃ u, exec (.timeSyncReceive v) s = .next u ∧ SameThreads s u ∧
    u.host.slew = (18 * v : Int) - s.sched.time ∧ u.host.out = s.host.out ++ if s.pkg.eastUp then [.chainTime v] else [])

/-- R244 to R249, R467 to R470: retention, the patrol tester, clock steps and cooling. -/
def Obligations.PowerAndPatrol : Prop := ∀ (s : State) (c g till watts mhz sensor temp : Nat) (p : PatrolSeg) (exit top : Bool),
  let r := s.segRange p
  let free := fun (u : State) => u.eng.patrol.seg = none ∧ u.eng.patrol.releasing = false
  let works := if top then topWorks s else bottomWorks s
  let fails := fun (m : Mark) => m = .uncorrectable ∨ m = .poison
  (c < 20 → g < 32 → s.retentionDue c g = true → ∃ u, exec (.retentionEnter c g) s = .next u ∧ SameThreads s u ∧
    (u.col c).retOf g = .entering (s.sched.cycle + 80 * s.pkg.mhz) false) ∧
  (s.mem.wf = true → c < 20 → g < 32 → (s.col c).retOf g = .entering till exit → till ≤ s.sched.cycle → ∃ u,
    exec (.retentionEnterDone c g) s = .next u ∧ (∀ m, u.thr m = s.thr m) ∧ u.mem.bytes = s.mem.bytes ∧ u.mem.blocks = s.mem.blocks ∧
    (∀ w, sget .clean u.mem.marks w = if s.inSegment c g w = true ∧ sget .clean s.mem.marks w = .correctable then .clean else sget .clean s.mem.marks w) ∧
    (u.col c).retOf g = if exit then .leaving (s.sched.cycle + 80 * s.pkg.mhz) else .retained) ∧
  (s.mem.wf = true → c < 20 → g < 32 → (s.col c).retOf g = .leaving till → till ≤ s.sched.cycle → ∃ u, exec (.retentionExitDone c g) s = .next u ∧
    (u.col c).retOf g = .normal ∧ (∀ m, u.thr m = s.thr m) ∧ u.mem.bytes = s.mem.bytes ∧
    (∀ b, sget .clean u.mem.blocks b = if s.inSegment c g (8 * b) then .clean else sget .clean s.mem.blocks b) ∧
    ∀ w, sget .clean u.mem.marks w = if s.inSegment c g w = true ∧ fails (sget .clean s.mem.blocks (w / 8)) then .poison else sget .clean s.mem.marks w) ∧
  (s.claimable p = true → ∃ u, exec (.patrolClaim p) s = .next u ∧ u.eng.patrol.seg = some p ∧ u.eng.patrol.chunk = 0 ∧
    (∀ i, i < r.2 → u.byte (r.1 + i) = 0 ∧ u.full (r.1 + i) = false) ∧ (∀ h, gaSpace h < 4 → Outside r.1 r.2 h → u.byte h = s.byte h) ∧
    ∀ m, u.thr m = s.thr m) ∧
  (s.eng.patrol.seg = some p →
    ((s.eng.patrol.chunk + 1) * 65536 < r.2 → ∃ u, exec (.patrolChunkDone []) s = .next u ∧ SameThreads s u ∧ u.eng.patrol.seg = some p ∧
      u.eng.patrol.chunk = s.eng.patrol.chunk + 1) ∧
    (r.2 ≤ (s.eng.patrol.chunk + 1) * 65536 → ∃ u, exec (.patrolChunkDone []) s = .next u ∧ SameThreads s u ∧ free u)) ∧
  (s.eng.patrol.releasing = true →
    (s.eng.patrol.releaseAt = none → 0 < s.pkg.mhz → ∃ u n, exec .patrolRelease s = .next u ∧ SameThreads s u ∧ u.eng.patrol.releaseAt = some n ∧
      s.sched.cycle < n ∧ n ≤ s.sched.cycle + 2 * s.pkg.mhz) ∧
    (∀ n, s.eng.patrol.releaseAt = some n → n ≤ s.sched.cycle → ∃ u, exec .patrolRelease s = .next u ∧ SameThreads s u ∧ free u)) ∧
  (bottomWorks s = true → s.mgmt.pendingMhz = none →
    (s.pkg.cap < watts → ∃ u, exec (.powerWindow watts) s = .next u ∧ SameThreads s u ∧ u.mgmt.cleanWindows = 0 ∧
      (stepDown s.pkg.mhz ≠ s.pkg.mhz → Later s u (.clockStepChange (stepDown s.pkg.mhz)))) ∧
    (watts ≤ s.pkg.cap → 10 * watts < 9 * s.pkg.cap → ∃ u, exec (.powerWindow watts) s = .next u ∧ SameThreads s u ∧
      (s.mgmt.cleanWindows < 9 → u.mgmt.cleanWindows = s.mgmt.cleanWindows + 1) ∧
      (9 ≤ s.mgmt.cleanWindows → stepUp s.pkg.mhz ≠ s.pkg.mhz → Later s u (.clockStepChange (stepUp s.pkg.mhz))))) ∧
  (mhz = 1800 ∨ mhz = 1500 ∨ mhz = 1200 ∨ mhz = 900 → mhz ≠ s.pkg.mhz → s.mgmt.pendingMhz = none →
    (s.sched.cycle % 16 = 0 → s.sched.pos = 0 → ∃ u, exec (.clockStepChange mhz) s = .next u ∧ (∀ m, u.thr m = s.thr m) ∧
      u.mgmt.pendingMhz = some mhz ∧ u.pkg.mhz = s.pkg.mhz ∧ u.sched.agenda = (s.sched.cycle, .newClockRuns) :: s.sched.agenda) ∧
    (s.sched.cycle % 16 ≠ 0 → exec (.clockStepChange mhz) s = .next (s.post ((s.sched.cycle + 16) / 16 * 16) (.clockStepChange mhz)))) ∧
  (s.mgmt.pendingMhz = some mhz → ∃ u, exec .newClockRuns s = .next u ∧ SameThreads s u ∧ u.pkg.mhz = mhz ∧ u.mgmt.pendingMhz = none ∧
    u.sched.cycle = s.sched.cycle ∧ u.sched.time = s.sched.time + 36000) ∧
  (works = true → ∃ u, exec (.coolingLoopLost top sensor temp) s = .next u ∧ (∀ m, u.thr m = s.thr m) ∧
    u.pkg.loops = s.pkg.loops &&& (if top then 1 else 2) ∧ u.pkg.vhalf = !u.pkg.loops.getLsbD 1 ∧
    u.pkg.cap = min s.mgmt.mgmtCap (if !u.pkg.loops.getLsbD 0 then 150 else if !u.pkg.loops.getLsbD 1 then 180 else 300)) ∧
  (works = false → s.mgmt.off = false → ∃ u, exec (.coolingLoopRestored top sensor temp) s = .next u ∧ (∀ m, u.thr m = s.thr m) ∧
    u.pkg.loops = s.pkg.loops ||| (if top then 2 else 1) ∧ u.pkg.vhalf = !u.pkg.loops.getLsbD 1) ∧
  (s.mgmt.off = false → (temp ≤ 1600 → exec (.junctionHot sensor temp) s = .next s) ∧
    (1600 < temp → temp ≤ 1760 → exec (.junctionHot sensor temp) s = .next (s.thermal 0x15 sensor temp)) ∧
    (1760 < temp → ∃ u, exec (.junctionHot sensor temp) s = .next u ∧ u.mgmt.off = true ∧ u.sched.pinDue = some (s.sched.cycle + 24)))

/-- R250, R251, R463 to R466, R472: the management side-band, resets, bring-up and replay. -/
def Obligations.Management : Prop := ∀ (s : State) (c bank row off n i watts sensor cmd : Nat) (mask : BitVec 32) (en : Bool) (pkg count : BitVec 4)
    (nonce : List Byte) (err : BitVec 8),
  let answered := fun (u : State) (code : Nat) => u.host.out = s.host.out ++ [.mgmt code []]
  let does := fun (ev : Instr) (P : State → Prop) => ∃ u, exec ev s = .next u ∧ answered u 0 ∧ P u
  let turned := fun (ev : Instr) (code : Nat) => exec ev s = .next (s.tell (.mgmt code []))
  let g := s.ga 0 c (bank * 2 ^ 23) + 1024 * row
  (s.mgmt.off = true → turned (.setret c mask) 4 ∧ turned (.patrol en) 4 ∧ turned (.repair c bank row) 4 ∧ turned (.powercap watts) 4 ∧
    turned (.chainnum pkg count) 4 ∧ turned (.replay en) 4 ∧ turned (.attest nonce) 4 ∧ turned (.extend i nonce) 4) ∧
  (s.mgmt.off = false →
    (c < 20 → does (.setret c mask) (fun u => SameThreads s u ∧ (u.col c).retMask = mask)) ∧ (20 ≤ c → turned (.setret c mask) 2) ∧
    does (.patrol en) (fun u => SameThreads s u ∧ u.eng.patrol.enabled = en ∧ u.eng.patrol.seg = s.eng.patrol.seg ∧
      (en = false → s.eng.patrol.seg.isSome = true → u.eng.patrol.releasing = true)) ∧
    (c < 20 → bank < 64 → row < 8192 → s.sparesUsed c bank < 16 →
      (s.repairNow c bank = true → does (.repair c bank row) (fun u => u.eng.repairs = s.eng.repairs ++ [(c, bank, row)] ∧
        (∀ j, j < 1024 → u.byte (g + j) = 0) ∧ (∀ h, gaSpace h < 4 → Outside g 1024 h → u.byte h = s.byte h) ∧ ∀ m, u.thr m = s.thr m)) ∧
      (s.repairNow c bank = false → does (.repair c bank row) (fun u => u.eng.repairsLater = s.eng.repairsLater ++ [(c, bank, row)] ∧ SameThreads s u))) ∧
    (100 ≤ watts → watts ≤ 300 → does (.powercap watts) (fun u => SameThreads s u ∧ u.mgmt.mgmtCap = watts ∧ u.pkg.cap = min watts (coolCap s))) ∧
    (watts < 100 ∨ 300 < watts → turned (.powercap watts) 2) ∧
    (s.pkg.bootstat.getLsbD 7 = false → pkg.toNat ≤ count.toNat → does (.chainnum pkg count) (fun u => SameThreads s u ∧ u.pkg.pkgNo = pkg ∧
      u.pkg.pkgCount = count)) ∧
    (s.pkg.bootstat.getLsbD 7 = true → turned (.chainnum pkg count) 2) ∧
    does (.replay en) (fun u => SameThreads s u ∧ bit u.pkg.rcctl.toNat 2 = en) ∧
    (nonce.length = 32 → exec (.attest nonce) s = .next (s.tell (.mgmt 0 (measBytes s ++ nonce ++ Config.signature (measBytes s ++ nonce) ++
      Config.certificate)))) ∧
    (4 ≤ i → i ≤ 7 → nonce.length = 64 → does (.extend i nonce) (fun u => SameThreads s u ∧ ∀ m, m < 8 → u.mgmt.meas.toList.getD m 0 =
      if m = i then Config.shake256 ((List.range 64).map (fun j => (s.mgmt.meas.toList.getD i 0).extractLsb' (8 * j) 8) ++ nonce)
      else s.mgmt.meas.toList.getD m 0)) ∧
    (∃ u, exec .conventionalReset s = .next u ∧ exec .hotReset s = .next u ∧ exec .functionLevelReset s = .next u ∧ u.mem.bytes = s.mem.bytes ∧
      (s.mem.blocks = [] → u.mem.marks = s.mem.marks) ∧ u.mem.fe = [] ∧ u.threads = State.reset.threads ∧ u.flights = [] ∧
      u.mgmt.meas = s.mgmt.meas ∧ u.pkg = State.reset.pkg ∧ (∀ k, u.isl k = {}))) ∧
  does (.firmwareUpdate nonce) (fun u => u.mgmt.firmware = some nonce ∧ SameThreads s u) ∧
  exec (.scanmap off n) s = .next (s.tell (.mgmt 0 ((upFrom off n).map Config.scanMap))) ∧
  exec (.pldmBase cmd) s = .next (s.tell (.mgmt 0 (Config.pldmBase cmd))) ∧
  (∃ u data, exec (.platformMonitoring sensor) s = .next u ∧ u.host.out = s.host.out ++ [.mgmt 0 data] ∧ SameThreads s u) ∧
  (∃ u, exec .reset s = .next u ∧ answered u 0 ∧ u.threads = State.reset.threads ∧ u.cores = State.reset.cores ∧ u.cols = State.reset.cols ∧
    u.isls = State.reset.isls ∧ u.tables = State.reset.tables ∧ u.mem.bytes = [] ∧ u.mem.fe = [] ∧ u.mem.marks = [] ∧ u.mem.blocks = [] ∧
    u.flights = [] ∧ u.disp = State.reset.disp ∧ u.pkg = State.reset.pkg ∧ u.mgmt.off = false) ∧
  (s.stage < 5 → bits s.pkg.bootstat.toNat 15 8 = 0 →
    (err ≠ 0 → exec (.bootStage err) s = .next (s.putBoot err.toNat s.stage)) ∧
    (s.stage = 1 → ∃ u, exec (.bootStage 0) s = .next u ∧ u.stage = 2 ∧ u.mem.bytes = [] ∧ u.mem.fe = [] ∧ u.mem.marks = []) ∧
    (s.stage = 4 → ∃ u, exec (.bootStage 0) s = .next u ∧ u.pkg.bootstat = 0x85) ∧
    (s.stage = 0 → s.mgmt.warm = false → firmwareError s ≠ 0 → exec (.bootStage 0) s = .next (s.putBoot (firmwareError s) 1))) ∧
  (s.replayDue = true → bits (s.readN (s.replayGa + 8) 8) 63 60 = 1 →
    let off := s.readN (s.replayGa + 8) 8 % 2 ^ 52
    let k := 16 * (bits (s.readN (s.replayGa + 8) 8) 59 54 + 1)
    let a := s.bar2Ga off
    let data := (upFrom 0 k).map (fun j => some (s.byte (s.replayGa + 16 + j)))
    s.mapCheck a k .plain 0 = none → gaSpace a ≠ 5 → ∃ u, exec .replayApply s = .next u ∧ u.host.replayAt = s.host.replayAt + 1 + k / 16 ∧
      SameThreads s u ∧ u.host.busy = some s.sched.seq ∧ ∃ x ∈ u.flights, x.agent = .host ∧ SameOp x.op (.hostWrite (s.pieces false a 0 0 k) data))

/-- R77 to R83, R111, R116, R121, R127, R132, R159, R169, R182, R203, R213, R270, R276, R329, R344, R366, R397, R406, R414, R437: words written out from the
encodings decode to the instructions that they stand for, and a word of a reserved major opcode, function or field to none. -/
def Obligations.DecodeWords : Prop :=
  decode 0x00841801#32 = .ok (.add 4 4 3) ∧ decode 0x1463FFFF#32 = .ok (.addi 3 3 0xFFFF) ∧ decode 0x0CB42004#32 = .ok (.bext 5 20 4) ∧
  decode 0x28220000#32 = .ok (.cmpi 1 .eq 2 0) ∧ decode 0x3CC50042#32 = .ok (.fcvt 6 5 .bf16 .fp32) ∧ decode 0x405FFFE8#32 = .ok (.bra false 2 0x1FFFE8) ∧
  decode 0x487FFFFE#32 = .ok (.loop 3 0x1FFFFE) ∧ decode 0x4C810811#32 = .ok (.por 4 1 1) ∧ decode 0x548D0B01#32 = .ok (.vfadd .f32 3 2 3 4) ∧
  decode 0x7440204D#32 = .ok (.vins .bf16 0 1 13 0) ∧ decode 0x79980000#32 = .ok (.tld 12 24 0) ∧ decode 0x7C240439#32 = .ok (.mgo .bf16 1 4 false 3 true false 0) ∧
  decode 0x7E008F40#32 = .ok (.moutMemory .bf16 16 0 17 false) ∧ decode 0x88074000#32 = .ok (.crwr 7 0) ∧ decode 0x8DAC3002#32 = .ok (.tresume 13 12 .kill) ∧
  decode 0x90A44A04#32 = .ok (.ldAcq .w .col 5 4 4) ∧ decode 0x99227003#32 = .ok (.stf .d 9 2 3) ∧ decode 0xA4667240#32 = .ok (.vamo .fadd .f32 3 6) ∧
  decode 0xA8841050#32 = .ok (.crecv 4 5 1) ∧ decode 0xAD109000#32 = .ok (.invoke 8 2 4 2) ∧ decode 0xB0050402#32 = .ok (.xbind 2 5 4) ∧
  decode 0xB4602001#32 = .ok (.engstat 3 true) ∧ decode 0xB8850000#32 = .ok (.spawn 4 5) ∧ decode 0xBC4A0005#32 = .ok (.rgset 2 (.entry 5) 10) ∧
  decode 0xC0852C00#32 = .ok (.rginv .pkg false 4 5) ∧ decode 0xC4640002#32 = .ok (.ginstall 3 4 2) ∧ decode 0xC8A00003#32 = .ok (.barj 5 3) ∧
  decode 0xCC862012#32 = .ok (.smaxk 4 2 6 true) ∧ decode 0xD0A61000#32 = .ok (.qwait 5 6) ∧ decode 0x00000000#32 = .ok .ill ∧
  decode 0xD4000000#32 = .error .reservedMajor ∧ decode 0x00000010#32 = .error .reservedFn ∧ decode 0x42000001#32 = .ok (.bra true 0 1) ∧
  decode 0x41000001#32 = .error .reservedField

/-- R77 to R83: decoding and encoding agree. Decoding the word that the encoder gives a well-formed instruction gives the instruction back, with every
operand at every value that the encoding admits; and an instruction that the decoder reads from a word is well formed, with that word as its encoding, so
that no two words are one instruction and no bit of a word is passed over. -/
def Obligations.DecodeOfEncode : Prop := (∀ i w, WellFormed i = true → encode i = some w → decode w = .ok i) ∧
  ∀ w i, decode w = .ok i → WellFormed i = true ∧ encode i = some w

/-- R29, R103, R105, R183, R465: the state after reset. Every slot is EMPTY with the initial values of its registers, every range table entry is INVALID,
no island holds a graph, every transit channel is unbound, the dealer heap and the trap queues are empty, BOOTSTAT is 0, every word of the memories is
zero, clean and EMPTY; and no slot issues and no launch is taken. -/
def Obligations.ResetState : Prop :=
  let s := State.reset
  (∀ t, (s.thr t).st = .empty ∧ (∀ r, (s.thr t).sreg r = 0) ∧ (∀ v, (s.thr t).vreg v = 0) ∧ (∀ p : PReg, p ≠ 0 → (s.thr t).pred p = false) ∧
    (∀ c, ((s.thr t).chan c).st = .unbound ∧ ((s.thr t).chan c).head = none) ∧ (s.thr t).seg = 0 ∧ (s.thr t).hand = 0xFFFFFFFFFF800000 ∧
    (s.thr t).fpm = 0) ∧
  (∀ n i, (s.entry n i).st = .invalid) ∧ (∀ k b, ((s.isl k).bank b).st = .free) ∧ (∀ c i, (s.out c i).bound = false ∧ (s.inc c i).bound = false) ∧
  s.disp.heap = [] ∧ s.disp.seqs = [] ∧ (∀ q, (s.core q).tq = [] ∧ (s.core q).code = []) ∧ s.pkg.bootstat = 0 ∧
  (∀ g, gaSpace g < 4 → s.byte g = 0 ∧ s.full g = false ∧ s.mark g = .clean) ∧ (∀ q, s.issues q = false) ∧ s.launchTakeable = false

/-- At reset the memories stand in canonical form and no trap queue holds too many records. -/
def Obligations.ResetSound : Prop := Sound State.reset

/-- The invariant of the machine (R183, and the canonical form of its memories): whatever the state, a step that goes on keeps every memory in canonical
form, and no trap queue ever holds more than 16 records. -/
def Obligations.StepKeepsSound : Prop := ∀ s t, Sound s → step s = .next t → Sound t

/-- R36, R85, R83: a step runs the decoded instruction. When the device runs, no event is due and core `q` is the next to issue, the step takes the word at
the PC of the slot that owns the cycle: it traps as the issue checks say, or else is `exec` of the instruction that the word decodes to, a reserved word
being RESERVED_ENCODING, in the state that records which slot issues and lets its present CTAG count (R367). The word that `withFetchWord` places is
the one that the next step runs. -/
def Obligations.StepRunsDecoded : Prop := ∀ (s : State) (q : Nat),
  let u := s.setIssuing q
  let n := (s.col (q / 4)).cyc % 16
  let w := s.wordAt (16 * q + n)
  (s.sched.stopped = false → s.takeDue s.sched.agenda = none → s.sched.pos < 80 → s.nextIssuer s.sched.pos (80 - s.sched.pos) = some q →
    u.cur = { col := q / 4, core := q % 4, slot := n, word := w } ∧ u.me = 16 * q + n ∧ u.sched.pos = q + 1 ∧ u.mem = s.mem ∧
    (∀ m, u.thr m = if m = u.me then { s.thr m with ctagWas := none } else s.thr m) ∧
    (∀ i, u.issueTrap = some i → step s = .next (u.takeAsync.trapMe i)) ∧
    (u.issueTrap = none → (∀ i, decode w = .ok i → step s = exec i u) ∧ (∀ e, decode w = .error e → step s = exec (.reservedEncoding w) u))) ∧
  (∀ x i, decode (BitVec.ofNat 32 x) = .ok i → x < 2 ^ 32 → step (s.withFetchWord 32 x) = exec i ((s.withFetchWord 32 x).setIssuing 0))
end

