-- ==== Sys2Proof/Laws/Sparse.lean ====
section
/-! SUPPORT. The sparse tables: what a table holds after a write, and that a write keeps the canonical form. -/
namespace Sys2Proof

variable {α : Type}

theorem sget_sdel (d : α) (m : Sparse α) (i j : Nat) : sget d (sdel m i) j = if j = i then d else sget d m j := by
  induction m with
  | nil => simp [sdel, sget]
  | cons p t ih =>
    obtain ⟨k, w⟩ := p
    by_cases hk : k = i
    · subst hk
      by_cases hj : j = k
      · rw [hj]; simpa [sdel, hj] using ih
      · simp [sdel, ih, sget, hj, Ne.symm hj]
    · by_cases hj : j = i
      · subst hj; simp [sdel, hk, sget, ih]
      · simp [sdel, hk, sget, ih, hj]

theorem sget_sins_same (d : α) (m : Sparse α) (i : Nat) (v : α) (h : sget d m i = d) (hn : ∀ e ∈ m, e.1 ≠ i) :
    sget d (sins m i v) i = v := by
  induction m with
  | nil => simp [sins, sget]
  | cons p t ih =>
    obtain ⟨k, w⟩ := p
    have hk : k ≠ i := hn (k, w) (by simp)
    by_cases hlt : i < k
    · simp [sins, hlt, sget]
    · simp only [sins, hlt, if_false, sget, hk]
      exact ih (by simpa [sget, hk] using h) (fun e he => hn e (by simp [he]))

theorem sget_sins_other (d : α) (m : Sparse α) (i j : Nat) (v : α) (h : j ≠ i) : sget d (sins m i v) j = sget d m j := by
  induction m with
  | nil => simp [sins, sget, Ne.symm h]
  | cons p t ih =>
    obtain ⟨k, w⟩ := p
    by_cases hlt : i < k
    · simp [sins, hlt, sget, Ne.symm h]
    · simp [sins, hlt, sget, ih]

theorem sdel_ne (m : Sparse α) (i : Nat) : ∀ e ∈ sdel m i, e.1 ≠ i := by
  induction m with
  | nil => simp [sdel]
  | cons p t ih =>
    obtain ⟨k, w⟩ := p
    by_cases hk : k = i
    · simpa [sdel, hk] using ih
    · intro e he
      simp only [sdel, hk, if_false, List.mem_cons] at he
      rcases he with rfl | he
      · exact hk
      · exact ih e he

variable [DecidableEq α]

/-- What a table holds after a write: the new item at its number, and every other item as before. -/
theorem sget_sset (d : α) (m : Sparse α) (i j : Nat) (v : α) : sget d (sset d m i v) j = if j = i then v else sget d m j := by
  unfold sset
  by_cases hv : v = d
  · simp [hv, sget_sdel]
  · by_cases hj : j = i
    · subst hj
      simp only [hv, if_false, if_true]
      exact sget_sins_same d _ j v (by simp [sget_sdel]) (sdel_ne m j)
    · simp only [hv, if_false, hj]
      rw [sget_sins_other d _ i j v hj, sget_sdel, if_neg hj]

@[simp] theorem sget_sset_same (d : α) (m : Sparse α) (i : Nat) (v : α) : sget d (sset d m i v) i = v := by simp [sget_sset]

theorem sget_sset_other (d : α) (m : Sparse α) (i j : Nat) (v : α) (h : j ≠ i) : sget d (sset d m i v) j = sget d m j := by
  simp [sget_sset, h]

/-- A lower bound that is weakened keeps the form. -/
theorem swfFrom_weaken (d : α) (a b : Option Nat) (m : Sparse α) (hab : ∀ y, b = some y → ∃ x, a = some x ∧ y ≤ x)
    (h : swfFrom d a m = true) : swfFrom d b m = true := by
  cases m with
  | nil => cases b <;> rfl
  | cons p t =>
    obtain ⟨k, w⟩ := p
    cases b with
    | none => cases a <;> simp_all [swfFrom]
    | some y =>
      obtain ⟨x, hx, hle⟩ := hab y rfl
      subst hx
      simp only [swfFrom, Bool.and_eq_true, decide_eq_true_eq] at h ⊢
      exact ⟨⟨by omega, h.1.2⟩, h.2⟩

theorem swfFrom_cons (d : α) (lo : Option Nat) (k : Nat) (v : α) (t : Sparse α) :
    swfFrom d lo ((k, v) :: t) = true ↔ (∀ x, lo = some x → x < k) ∧ v ≠ d ∧ swfFrom d (some k) t = true := by
  cases lo <;> simp [swfFrom, and_assoc]

theorem swfFrom_sdel (d : α) (m : Sparse α) (i : Nat) : ∀ lo, swfFrom d lo m = true → swfFrom d lo (sdel m i) = true := by
  induction m with
  | nil => intro lo h; exact h
  | cons p t ih =>
    obtain ⟨k, w⟩ := p
    intro lo h
    rw [swfFrom_cons] at h
    obtain ⟨hl, hw, ht⟩ := h
    by_cases hk : k = i
    · simp only [sdel, hk, if_true]
      exact ih lo (swfFrom_weaken d (some k) lo t (fun y hy => ⟨k, rfl, Nat.le_of_lt (hl y hy)⟩) ht)
    · simp only [sdel, hk, if_false]
      rw [swfFrom_cons]
      exact ⟨hl, hw, ih (some k) ht⟩

theorem swfFrom_sins (d : α) (i : Nat) (v : α) (hv : v ≠ d) (m : Sparse α) :
    ∀ lo, (∀ x, lo = some x → x < i) → (∀ e ∈ m, e.1 ≠ i) → swfFrom d lo m = true → swfFrom d lo (sins m i v) = true := by
  induction m with
  | nil =>
    intro lo hlo _ _
    simp only [sins]
    rw [swfFrom_cons]
    exact ⟨hlo, hv, rfl⟩
  | cons p t ih =>
    obtain ⟨k, w⟩ := p
    intro lo hlo hne h
    rw [swfFrom_cons] at h
    by_cases hlt : i < k
    · simp only [sins, hlt, if_true]
      rw [swfFrom_cons, swfFrom_cons]
      exact ⟨hlo, hv, by simpa using hlt, h.2.1, h.2.2⟩
    · have hk : k ≠ i := hne (k, w) (by simp)
      simp only [sins, hlt, if_false]
      rw [swfFrom_cons]
      exact ⟨h.1, h.2.1, ih (some k) (by intro x hx; cases hx; omega) (fun e he => hne e (by simp [he])) h.2.2⟩

/-- A write keeps the canonical form. -/
theorem swf_sset (d : α) (m : Sparse α) (i : Nat) (v : α) (h : swf d m = true) : swf d (sset d m i v) = true := by
  unfold sset
  split
  · exact swfFrom_sdel d m i none h
  · exact swfFrom_sins d i v ‹_› _ none (by simp) (sdel_ne m i) (swfFrom_sdel d m i none h)

/-- A number at or below the lower bound is not listed. -/
theorem sget_none_of_lt (d : α) (lo : Nat) (m : Sparse α) (h : swfFrom d (some lo) m = true) (j : Nat) (hj : j ≤ lo) : sget d m j = d := by
  induction m generalizing lo with
  | nil => rfl
  | cons p t ih =>
    obtain ⟨k, w⟩ := p
    rw [swfFrom_cons] at h
    have hk : lo < k := h.1 lo rfl
    have : k ≠ j := by omega
    simp only [sget, this, if_false]
    exact ih k h.2.2 (by omega)

/-- A table without some of its items. -/
theorem swfFrom_filter (d : α) (f : Nat × α → Bool) (m : Sparse α) : ∀ lo, swfFrom d lo m = true → swfFrom d lo (m.filter f) = true := by
  induction m with
  | nil => intro lo h; exact h
  | cons p t ih =>
    obtain ⟨k, w⟩ := p
    intro lo h
    rw [swfFrom_cons] at h
    obtain ⟨hl, hw, ht⟩ := h
    simp only [List.filter_cons]
    split
    · rw [swfFrom_cons]
      exact ⟨hl, hw, ih (some k) ht⟩
    · exact ih lo (swfFrom_weaken d (some k) lo t (fun y hy => ⟨k, rfl, Nat.le_of_lt (hl y hy)⟩) ht)

theorem swf_filter (d : α) (f : Nat × α → Bool) (m : Sparse α) (h : swf d m = true) : swf d (m.filter f) = true := swfFrom_filter d f m none h

/-- Many writes keep the canonical form. -/
theorem swf_foldl {β : Type} (d : α) (k : β → Nat) (v : β → α) (l : List β) (m : Sparse α) (h : swf d m = true) :
    swf d (l.foldl (fun m x => sset d m (k x) (v x)) m) = true := by
  induction l generalizing m with
  | nil => exact h
  | cons x xs ih => exact ih _ (swf_sset d m _ _ h)

omit [DecidableEq α] in
/-- A table with a function over its items that keeps the default. -/
theorem sget_map (d : α) (f : α → α) (hf : f d = d) (m : Sparse α) (i : Nat) :
    sget d (m.map (fun e => (e.1, f e.2))) i = f (sget d m i) := by
  induction m with
  | nil => exact hf.symm
  | cons p t ih =>
    obtain ⟨k, w⟩ := p
    simp only [List.map_cons, sget, ih]
    split <;> rfl

theorem swf_nil (d : α) : swf d ([] : Sparse α) = true := rfl

end Sys2Proof
end

