-- ==== Sys2Proof/Laws/State.lean ====
section
/-! SUPPORT. What each update of the state leaves alone: one lemma per field and update, each true by unfolding. -/
namespace Sys2Proof.Machine

@[simp] theorem State.putThr_sched (s : State) (t : Nat) (x : Thread) : (s.putThr t x).sched = s.sched := rfl
@[simp] theorem State.putThr_cur (s : State) (t : Nat) (x : Thread) : (s.putThr t x).cur = s.cur := rfl
@[simp] theorem State.putThr_cores (s : State) (t : Nat) (x : Thread) : (s.putThr t x).cores = s.cores := rfl
@[simp] theorem State.putThr_cols (s : State) (t : Nat) (x : Thread) : (s.putThr t x).cols = s.cols := rfl
@[simp] theorem State.putThr_isls (s : State) (t : Nat) (x : Thread) : (s.putThr t x).isls = s.isls := rfl
@[simp] theorem State.putThr_tables (s : State) (t : Nat) (x : Thread) : (s.putThr t x).tables = s.tables := rfl
@[simp] theorem State.putThr_mem (s : State) (t : Nat) (x : Thread) : (s.putThr t x).mem = s.mem := rfl
@[simp] theorem State.putThr_flights (s : State) (t : Nat) (x : Thread) : (s.putThr t x).flights = s.flights := rfl
@[simp] theorem State.putThr_pkg (s : State) (t : Nat) (x : Thread) : (s.putThr t x).pkg = s.pkg := rfl
@[simp] theorem State.putThr_disp (s : State) (t : Nat) (x : Thread) : (s.putThr t x).disp = s.disp := rfl
@[simp] theorem State.putThr_eng (s : State) (t : Nat) (x : Thread) : (s.putThr t x).eng = s.eng := rfl
@[simp] theorem State.putThr_host (s : State) (t : Nat) (x : Thread) : (s.putThr t x).host = s.host := rfl
@[simp] theorem State.putThr_mgmt (s : State) (t : Nat) (x : Thread) : (s.putThr t x).mgmt = s.mgmt := rfl
@[simp] theorem State.putThr_start (s : State) (t : Nat) (x : Thread) : (s.putThr t x).start = s.start := rfl
@[simp] theorem State.putThr_core (s : State) (t : Nat) (x : Thread) (m : Nat) : (s.putThr t x).core m = s.core m := rfl
@[simp] theorem State.putThr_col (s : State) (t : Nat) (x : Thread) (m : Nat) : (s.putThr t x).col m = s.col m := rfl
@[simp] theorem State.putThr_isl (s : State) (t : Nat) (x : Thread) (m : Nat) : (s.putThr t x).isl m = s.isl m := rfl
@[simp] theorem State.putThr_me (s : State) (t : Nat) (x : Thread) : (s.putThr t x).me = s.me := rfl
@[simp] theorem State.putThr_myCore (s : State) (t : Nat) (x : Thread) : (s.putThr t x).myCore = s.myCore := rfl
@[simp] theorem State.putThr_time (s : State) (t : Nat) (x : Thread) : (s.putThr t x).time = s.time := rfl

@[simp] theorem State.modThr_sched (s : State) (t : Nat) (f : Thread → Thread) : (s.modThr t f).sched = s.sched := rfl
@[simp] theorem State.modThr_cur (s : State) (t : Nat) (f : Thread → Thread) : (s.modThr t f).cur = s.cur := rfl
@[simp] theorem State.modThr_cores (s : State) (t : Nat) (f : Thread → Thread) : (s.modThr t f).cores = s.cores := rfl
@[simp] theorem State.modThr_cols (s : State) (t : Nat) (f : Thread → Thread) : (s.modThr t f).cols = s.cols := rfl
@[simp] theorem State.modThr_isls (s : State) (t : Nat) (f : Thread → Thread) : (s.modThr t f).isls = s.isls := rfl
@[simp] theorem State.modThr_tables (s : State) (t : Nat) (f : Thread → Thread) : (s.modThr t f).tables = s.tables := rfl
@[simp] theorem State.modThr_mem (s : State) (t : Nat) (f : Thread → Thread) : (s.modThr t f).mem = s.mem := rfl
@[simp] theorem State.modThr_flights (s : State) (t : Nat) (f : Thread → Thread) : (s.modThr t f).flights = s.flights := rfl
@[simp] theorem State.modThr_pkg (s : State) (t : Nat) (f : Thread → Thread) : (s.modThr t f).pkg = s.pkg := rfl
@[simp] theorem State.modThr_disp (s : State) (t : Nat) (f : Thread → Thread) : (s.modThr t f).disp = s.disp := rfl
@[simp] theorem State.modThr_eng (s : State) (t : Nat) (f : Thread → Thread) : (s.modThr t f).eng = s.eng := rfl
@[simp] theorem State.modThr_host (s : State) (t : Nat) (f : Thread → Thread) : (s.modThr t f).host = s.host := rfl
@[simp] theorem State.modThr_mgmt (s : State) (t : Nat) (f : Thread → Thread) : (s.modThr t f).mgmt = s.mgmt := rfl
@[simp] theorem State.modThr_start (s : State) (t : Nat) (f : Thread → Thread) : (s.modThr t f).start = s.start := rfl
@[simp] theorem State.modThr_core (s : State) (t : Nat) (f : Thread → Thread) (m : Nat) : (s.modThr t f).core m = s.core m := rfl
@[simp] theorem State.modThr_col (s : State) (t : Nat) (f : Thread → Thread) (m : Nat) : (s.modThr t f).col m = s.col m := rfl
@[simp] theorem State.modThr_isl (s : State) (t : Nat) (f : Thread → Thread) (m : Nat) : (s.modThr t f).isl m = s.isl m := rfl
@[simp] theorem State.modThr_me (s : State) (t : Nat) (f : Thread → Thread) : (s.modThr t f).me = s.me := rfl
@[simp] theorem State.modThr_myCore (s : State) (t : Nat) (f : Thread → Thread) : (s.modThr t f).myCore = s.myCore := rfl
@[simp] theorem State.modThr_time (s : State) (t : Nat) (f : Thread → Thread) : (s.modThr t f).time = s.time := rfl

@[simp] theorem State.putCore_sched (s : State) (q : Nat) (x : Core) : (s.putCore q x).sched = s.sched := rfl
@[simp] theorem State.putCore_cur (s : State) (q : Nat) (x : Core) : (s.putCore q x).cur = s.cur := rfl
@[simp] theorem State.putCore_threads (s : State) (q : Nat) (x : Core) : (s.putCore q x).threads = s.threads := rfl
@[simp] theorem State.putCore_cols (s : State) (q : Nat) (x : Core) : (s.putCore q x).cols = s.cols := rfl
@[simp] theorem State.putCore_isls (s : State) (q : Nat) (x : Core) : (s.putCore q x).isls = s.isls := rfl
@[simp] theorem State.putCore_tables (s : State) (q : Nat) (x : Core) : (s.putCore q x).tables = s.tables := rfl
@[simp] theorem State.putCore_mem (s : State) (q : Nat) (x : Core) : (s.putCore q x).mem = s.mem := rfl
@[simp] theorem State.putCore_flights (s : State) (q : Nat) (x : Core) : (s.putCore q x).flights = s.flights := rfl
@[simp] theorem State.putCore_pkg (s : State) (q : Nat) (x : Core) : (s.putCore q x).pkg = s.pkg := rfl
@[simp] theorem State.putCore_disp (s : State) (q : Nat) (x : Core) : (s.putCore q x).disp = s.disp := rfl
@[simp] theorem State.putCore_eng (s : State) (q : Nat) (x : Core) : (s.putCore q x).eng = s.eng := rfl
@[simp] theorem State.putCore_host (s : State) (q : Nat) (x : Core) : (s.putCore q x).host = s.host := rfl
@[simp] theorem State.putCore_mgmt (s : State) (q : Nat) (x : Core) : (s.putCore q x).mgmt = s.mgmt := rfl
@[simp] theorem State.putCore_start (s : State) (q : Nat) (x : Core) : (s.putCore q x).start = s.start := rfl
@[simp] theorem State.putCore_thr (s : State) (q : Nat) (x : Core) (m : Nat) : (s.putCore q x).thr m = s.thr m := rfl
@[simp] theorem State.putCore_col (s : State) (q : Nat) (x : Core) (m : Nat) : (s.putCore q x).col m = s.col m := rfl
@[simp] theorem State.putCore_isl (s : State) (q : Nat) (x : Core) (m : Nat) : (s.putCore q x).isl m = s.isl m := rfl
@[simp] theorem State.putCore_me (s : State) (q : Nat) (x : Core) : (s.putCore q x).me = s.me := rfl
@[simp] theorem State.putCore_myCore (s : State) (q : Nat) (x : Core) : (s.putCore q x).myCore = s.myCore := rfl
@[simp] theorem State.putCore_time (s : State) (q : Nat) (x : Core) : (s.putCore q x).time = s.time := rfl

@[simp] theorem State.modCore_sched (s : State) (q : Nat) (f : Core → Core) : (s.modCore q f).sched = s.sched := rfl
@[simp] theorem State.modCore_cur (s : State) (q : Nat) (f : Core → Core) : (s.modCore q f).cur = s.cur := rfl
@[simp] theorem State.modCore_threads (s : State) (q : Nat) (f : Core → Core) : (s.modCore q f).threads = s.threads := rfl
@[simp] theorem State.modCore_cols (s : State) (q : Nat) (f : Core → Core) : (s.modCore q f).cols = s.cols := rfl
@[simp] theorem State.modCore_isls (s : State) (q : Nat) (f : Core → Core) : (s.modCore q f).isls = s.isls := rfl
@[simp] theorem State.modCore_tables (s : State) (q : Nat) (f : Core → Core) : (s.modCore q f).tables = s.tables := rfl
@[simp] theorem State.modCore_mem (s : State) (q : Nat) (f : Core → Core) : (s.modCore q f).mem = s.mem := rfl
@[simp] theorem State.modCore_flights (s : State) (q : Nat) (f : Core → Core) : (s.modCore q f).flights = s.flights := rfl
@[simp] theorem State.modCore_pkg (s : State) (q : Nat) (f : Core → Core) : (s.modCore q f).pkg = s.pkg := rfl
@[simp] theorem State.modCore_disp (s : State) (q : Nat) (f : Core → Core) : (s.modCore q f).disp = s.disp := rfl
@[simp] theorem State.modCore_eng (s : State) (q : Nat) (f : Core → Core) : (s.modCore q f).eng = s.eng := rfl
@[simp] theorem State.modCore_host (s : State) (q : Nat) (f : Core → Core) : (s.modCore q f).host = s.host := rfl
@[simp] theorem State.modCore_mgmt (s : State) (q : Nat) (f : Core → Core) : (s.modCore q f).mgmt = s.mgmt := rfl
@[simp] theorem State.modCore_start (s : State) (q : Nat) (f : Core → Core) : (s.modCore q f).start = s.start := rfl
@[simp] theorem State.modCore_thr (s : State) (q : Nat) (f : Core → Core) (m : Nat) : (s.modCore q f).thr m = s.thr m := rfl
@[simp] theorem State.modCore_col (s : State) (q : Nat) (f : Core → Core) (m : Nat) : (s.modCore q f).col m = s.col m := rfl
@[simp] theorem State.modCore_isl (s : State) (q : Nat) (f : Core → Core) (m : Nat) : (s.modCore q f).isl m = s.isl m := rfl
@[simp] theorem State.modCore_me (s : State) (q : Nat) (f : Core → Core) : (s.modCore q f).me = s.me := rfl
@[simp] theorem State.modCore_myCore (s : State) (q : Nat) (f : Core → Core) : (s.modCore q f).myCore = s.myCore := rfl
@[simp] theorem State.modCore_time (s : State) (q : Nat) (f : Core → Core) : (s.modCore q f).time = s.time := rfl

@[simp] theorem State.putCol_sched (s : State) (c : Nat) (x : Col) : (s.putCol c x).sched = s.sched := rfl
@[simp] theorem State.putCol_cur (s : State) (c : Nat) (x : Col) : (s.putCol c x).cur = s.cur := rfl
@[simp] theorem State.putCol_threads (s : State) (c : Nat) (x : Col) : (s.putCol c x).threads = s.threads := rfl
@[simp] theorem State.putCol_cores (s : State) (c : Nat) (x : Col) : (s.putCol c x).cores = s.cores := rfl
@[simp] theorem State.putCol_isls (s : State) (c : Nat) (x : Col) : (s.putCol c x).isls = s.isls := rfl
@[simp] theorem State.putCol_tables (s : State) (c : Nat) (x : Col) : (s.putCol c x).tables = s.tables := rfl
@[simp] theorem State.putCol_mem (s : State) (c : Nat) (x : Col) : (s.putCol c x).mem = s.mem := rfl
@[simp] theorem State.putCol_flights (s : State) (c : Nat) (x : Col) : (s.putCol c x).flights = s.flights := rfl
@[simp] theorem State.putCol_pkg (s : State) (c : Nat) (x : Col) : (s.putCol c x).pkg = s.pkg := rfl
@[simp] theorem State.putCol_disp (s : State) (c : Nat) (x : Col) : (s.putCol c x).disp = s.disp := rfl
@[simp] theorem State.putCol_eng (s : State) (c : Nat) (x : Col) : (s.putCol c x).eng = s.eng := rfl
@[simp] theorem State.putCol_host (s : State) (c : Nat) (x : Col) : (s.putCol c x).host = s.host := rfl
@[simp] theorem State.putCol_mgmt (s : State) (c : Nat) (x : Col) : (s.putCol c x).mgmt = s.mgmt := rfl
@[simp] theorem State.putCol_start (s : State) (c : Nat) (x : Col) : (s.putCol c x).start = s.start := rfl
@[simp] theorem State.putCol_thr (s : State) (c : Nat) (x : Col) (m : Nat) : (s.putCol c x).thr m = s.thr m := rfl
@[simp] theorem State.putCol_core (s : State) (c : Nat) (x : Col) (m : Nat) : (s.putCol c x).core m = s.core m := rfl
@[simp] theorem State.putCol_isl (s : State) (c : Nat) (x : Col) (m : Nat) : (s.putCol c x).isl m = s.isl m := rfl
@[simp] theorem State.putCol_me (s : State) (c : Nat) (x : Col) : (s.putCol c x).me = s.me := rfl
@[simp] theorem State.putCol_myCore (s : State) (c : Nat) (x : Col) : (s.putCol c x).myCore = s.myCore := rfl
@[simp] theorem State.putCol_time (s : State) (c : Nat) (x : Col) : (s.putCol c x).time = s.time := rfl

@[simp] theorem State.modCol_sched (s : State) (c : Nat) (f : Col → Col) : (s.modCol c f).sched = s.sched := rfl
@[simp] theorem State.modCol_cur (s : State) (c : Nat) (f : Col → Col) : (s.modCol c f).cur = s.cur := rfl
@[simp] theorem State.modCol_threads (s : State) (c : Nat) (f : Col → Col) : (s.modCol c f).threads = s.threads := rfl
@[simp] theorem State.modCol_cores (s : State) (c : Nat) (f : Col → Col) : (s.modCol c f).cores = s.cores := rfl
@[simp] theorem State.modCol_isls (s : State) (c : Nat) (f : Col → Col) : (s.modCol c f).isls = s.isls := rfl
@[simp] theorem State.modCol_tables (s : State) (c : Nat) (f : Col → Col) : (s.modCol c f).tables = s.tables := rfl
@[simp] theorem State.modCol_mem (s : State) (c : Nat) (f : Col → Col) : (s.modCol c f).mem = s.mem := rfl
@[simp] theorem State.modCol_flights (s : State) (c : Nat) (f : Col → Col) : (s.modCol c f).flights = s.flights := rfl
@[simp] theorem State.modCol_pkg (s : State) (c : Nat) (f : Col → Col) : (s.modCol c f).pkg = s.pkg := rfl
@[simp] theorem State.modCol_disp (s : State) (c : Nat) (f : Col → Col) : (s.modCol c f).disp = s.disp := rfl
@[simp] theorem State.modCol_eng (s : State) (c : Nat) (f : Col → Col) : (s.modCol c f).eng = s.eng := rfl
@[simp] theorem State.modCol_host (s : State) (c : Nat) (f : Col → Col) : (s.modCol c f).host = s.host := rfl
@[simp] theorem State.modCol_mgmt (s : State) (c : Nat) (f : Col → Col) : (s.modCol c f).mgmt = s.mgmt := rfl
@[simp] theorem State.modCol_start (s : State) (c : Nat) (f : Col → Col) : (s.modCol c f).start = s.start := rfl
@[simp] theorem State.modCol_thr (s : State) (c : Nat) (f : Col → Col) (m : Nat) : (s.modCol c f).thr m = s.thr m := rfl
@[simp] theorem State.modCol_core (s : State) (c : Nat) (f : Col → Col) (m : Nat) : (s.modCol c f).core m = s.core m := rfl
@[simp] theorem State.modCol_isl (s : State) (c : Nat) (f : Col → Col) (m : Nat) : (s.modCol c f).isl m = s.isl m := rfl
@[simp] theorem State.modCol_me (s : State) (c : Nat) (f : Col → Col) : (s.modCol c f).me = s.me := rfl
@[simp] theorem State.modCol_myCore (s : State) (c : Nat) (f : Col → Col) : (s.modCol c f).myCore = s.myCore := rfl
@[simp] theorem State.modCol_time (s : State) (c : Nat) (f : Col → Col) : (s.modCol c f).time = s.time := rfl

@[simp] theorem State.putIsl_sched (s : State) (k : Nat) (x : Isl) : (s.putIsl k x).sched = s.sched := rfl
@[simp] theorem State.putIsl_cur (s : State) (k : Nat) (x : Isl) : (s.putIsl k x).cur = s.cur := rfl
@[simp] theorem State.putIsl_threads (s : State) (k : Nat) (x : Isl) : (s.putIsl k x).threads = s.threads := rfl
@[simp] theorem State.putIsl_cores (s : State) (k : Nat) (x : Isl) : (s.putIsl k x).cores = s.cores := rfl
@[simp] theorem State.putIsl_cols (s : State) (k : Nat) (x : Isl) : (s.putIsl k x).cols = s.cols := rfl
@[simp] theorem State.putIsl_tables (s : State) (k : Nat) (x : Isl) : (s.putIsl k x).tables = s.tables := rfl
@[simp] theorem State.putIsl_mem (s : State) (k : Nat) (x : Isl) : (s.putIsl k x).mem = s.mem := rfl
@[simp] theorem State.putIsl_flights (s : State) (k : Nat) (x : Isl) : (s.putIsl k x).flights = s.flights := rfl
@[simp] theorem State.putIsl_pkg (s : State) (k : Nat) (x : Isl) : (s.putIsl k x).pkg = s.pkg := rfl
@[simp] theorem State.putIsl_disp (s : State) (k : Nat) (x : Isl) : (s.putIsl k x).disp = s.disp := rfl
@[simp] theorem State.putIsl_eng (s : State) (k : Nat) (x : Isl) : (s.putIsl k x).eng = s.eng := rfl
@[simp] theorem State.putIsl_host (s : State) (k : Nat) (x : Isl) : (s.putIsl k x).host = s.host := rfl
@[simp] theorem State.putIsl_mgmt (s : State) (k : Nat) (x : Isl) : (s.putIsl k x).mgmt = s.mgmt := rfl
@[simp] theorem State.putIsl_start (s : State) (k : Nat) (x : Isl) : (s.putIsl k x).start = s.start := rfl
@[simp] theorem State.putIsl_thr (s : State) (k : Nat) (x : Isl) (m : Nat) : (s.putIsl k x).thr m = s.thr m := rfl
@[simp] theorem State.putIsl_core (s : State) (k : Nat) (x : Isl) (m : Nat) : (s.putIsl k x).core m = s.core m := rfl
@[simp] theorem State.putIsl_col (s : State) (k : Nat) (x : Isl) (m : Nat) : (s.putIsl k x).col m = s.col m := rfl
@[simp] theorem State.putIsl_me (s : State) (k : Nat) (x : Isl) : (s.putIsl k x).me = s.me := rfl
@[simp] theorem State.putIsl_myCore (s : State) (k : Nat) (x : Isl) : (s.putIsl k x).myCore = s.myCore := rfl
@[simp] theorem State.putIsl_time (s : State) (k : Nat) (x : Isl) : (s.putIsl k x).time = s.time := rfl

@[simp] theorem State.modIsl_sched (s : State) (k : Nat) (f : Isl → Isl) : (s.modIsl k f).sched = s.sched := rfl
@[simp] theorem State.modIsl_cur (s : State) (k : Nat) (f : Isl → Isl) : (s.modIsl k f).cur = s.cur := rfl
@[simp] theorem State.modIsl_threads (s : State) (k : Nat) (f : Isl → Isl) : (s.modIsl k f).threads = s.threads := rfl
@[simp] theorem State.modIsl_cores (s : State) (k : Nat) (f : Isl → Isl) : (s.modIsl k f).cores = s.cores := rfl
@[simp] theorem State.modIsl_cols (s : State) (k : Nat) (f : Isl → Isl) : (s.modIsl k f).cols = s.cols := rfl
@[simp] theorem State.modIsl_tables (s : State) (k : Nat) (f : Isl → Isl) : (s.modIsl k f).tables = s.tables := rfl
@[simp] theorem State.modIsl_mem (s : State) (k : Nat) (f : Isl → Isl) : (s.modIsl k f).mem = s.mem := rfl
@[simp] theorem State.modIsl_flights (s : State) (k : Nat) (f : Isl → Isl) : (s.modIsl k f).flights = s.flights := rfl
@[simp] theorem State.modIsl_pkg (s : State) (k : Nat) (f : Isl → Isl) : (s.modIsl k f).pkg = s.pkg := rfl
@[simp] theorem State.modIsl_disp (s : State) (k : Nat) (f : Isl → Isl) : (s.modIsl k f).disp = s.disp := rfl
@[simp] theorem State.modIsl_eng (s : State) (k : Nat) (f : Isl → Isl) : (s.modIsl k f).eng = s.eng := rfl
@[simp] theorem State.modIsl_host (s : State) (k : Nat) (f : Isl → Isl) : (s.modIsl k f).host = s.host := rfl
@[simp] theorem State.modIsl_mgmt (s : State) (k : Nat) (f : Isl → Isl) : (s.modIsl k f).mgmt = s.mgmt := rfl
@[simp] theorem State.modIsl_start (s : State) (k : Nat) (f : Isl → Isl) : (s.modIsl k f).start = s.start := rfl
@[simp] theorem State.modIsl_thr (s : State) (k : Nat) (f : Isl → Isl) (m : Nat) : (s.modIsl k f).thr m = s.thr m := rfl
@[simp] theorem State.modIsl_core (s : State) (k : Nat) (f : Isl → Isl) (m : Nat) : (s.modIsl k f).core m = s.core m := rfl
@[simp] theorem State.modIsl_col (s : State) (k : Nat) (f : Isl → Isl) (m : Nat) : (s.modIsl k f).col m = s.col m := rfl
@[simp] theorem State.modIsl_me (s : State) (k : Nat) (f : Isl → Isl) : (s.modIsl k f).me = s.me := rfl
@[simp] theorem State.modIsl_myCore (s : State) (k : Nat) (f : Isl → Isl) : (s.modIsl k f).myCore = s.myCore := rfl
@[simp] theorem State.modIsl_time (s : State) (k : Nat) (f : Isl → Isl) : (s.modIsl k f).time = s.time := rfl

@[simp] theorem State.wr_sched (s : State) (r : Reg) (v : W64) : (s.wr r v).sched = s.sched := rfl
@[simp] theorem State.wr_cur (s : State) (r : Reg) (v : W64) : (s.wr r v).cur = s.cur := rfl
@[simp] theorem State.wr_cores (s : State) (r : Reg) (v : W64) : (s.wr r v).cores = s.cores := rfl
@[simp] theorem State.wr_cols (s : State) (r : Reg) (v : W64) : (s.wr r v).cols = s.cols := rfl
@[simp] theorem State.wr_isls (s : State) (r : Reg) (v : W64) : (s.wr r v).isls = s.isls := rfl
@[simp] theorem State.wr_tables (s : State) (r : Reg) (v : W64) : (s.wr r v).tables = s.tables := rfl
@[simp] theorem State.wr_mem (s : State) (r : Reg) (v : W64) : (s.wr r v).mem = s.mem := rfl
@[simp] theorem State.wr_flights (s : State) (r : Reg) (v : W64) : (s.wr r v).flights = s.flights := rfl
@[simp] theorem State.wr_pkg (s : State) (r : Reg) (v : W64) : (s.wr r v).pkg = s.pkg := rfl
@[simp] theorem State.wr_disp (s : State) (r : Reg) (v : W64) : (s.wr r v).disp = s.disp := rfl
@[simp] theorem State.wr_eng (s : State) (r : Reg) (v : W64) : (s.wr r v).eng = s.eng := rfl
@[simp] theorem State.wr_host (s : State) (r : Reg) (v : W64) : (s.wr r v).host = s.host := rfl
@[simp] theorem State.wr_mgmt (s : State) (r : Reg) (v : W64) : (s.wr r v).mgmt = s.mgmt := rfl
@[simp] theorem State.wr_start (s : State) (r : Reg) (v : W64) : (s.wr r v).start = s.start := rfl
@[simp] theorem State.wr_core (s : State) (r : Reg) (v : W64) (m : Nat) : (s.wr r v).core m = s.core m := rfl
@[simp] theorem State.wr_col (s : State) (r : Reg) (v : W64) (m : Nat) : (s.wr r v).col m = s.col m := rfl
@[simp] theorem State.wr_isl (s : State) (r : Reg) (v : W64) (m : Nat) : (s.wr r v).isl m = s.isl m := rfl
@[simp] theorem State.wr_me (s : State) (r : Reg) (v : W64) : (s.wr r v).me = s.me := rfl
@[simp] theorem State.wr_myCore (s : State) (r : Reg) (v : W64) : (s.wr r v).myCore = s.myCore := rfl
@[simp] theorem State.wr_time (s : State) (r : Reg) (v : W64) : (s.wr r v).time = s.time := rfl

@[simp] theorem State.wrV_sched (s : State) (r : VReg) (v : Vec) : (s.wrV r v).sched = s.sched := rfl
@[simp] theorem State.wrV_cur (s : State) (r : VReg) (v : Vec) : (s.wrV r v).cur = s.cur := rfl
@[simp] theorem State.wrV_cores (s : State) (r : VReg) (v : Vec) : (s.wrV r v).cores = s.cores := rfl
@[simp] theorem State.wrV_cols (s : State) (r : VReg) (v : Vec) : (s.wrV r v).cols = s.cols := rfl
@[simp] theorem State.wrV_isls (s : State) (r : VReg) (v : Vec) : (s.wrV r v).isls = s.isls := rfl
@[simp] theorem State.wrV_tables (s : State) (r : VReg) (v : Vec) : (s.wrV r v).tables = s.tables := rfl
@[simp] theorem State.wrV_mem (s : State) (r : VReg) (v : Vec) : (s.wrV r v).mem = s.mem := rfl
@[simp] theorem State.wrV_flights (s : State) (r : VReg) (v : Vec) : (s.wrV r v).flights = s.flights := rfl
@[simp] theorem State.wrV_pkg (s : State) (r : VReg) (v : Vec) : (s.wrV r v).pkg = s.pkg := rfl
@[simp] theorem State.wrV_disp (s : State) (r : VReg) (v : Vec) : (s.wrV r v).disp = s.disp := rfl
@[simp] theorem State.wrV_eng (s : State) (r : VReg) (v : Vec) : (s.wrV r v).eng = s.eng := rfl
@[simp] theorem State.wrV_host (s : State) (r : VReg) (v : Vec) : (s.wrV r v).host = s.host := rfl
@[simp] theorem State.wrV_mgmt (s : State) (r : VReg) (v : Vec) : (s.wrV r v).mgmt = s.mgmt := rfl
@[simp] theorem State.wrV_start (s : State) (r : VReg) (v : Vec) : (s.wrV r v).start = s.start := rfl
@[simp] theorem State.wrV_core (s : State) (r : VReg) (v : Vec) (m : Nat) : (s.wrV r v).core m = s.core m := rfl
@[simp] theorem State.wrV_col (s : State) (r : VReg) (v : Vec) (m : Nat) : (s.wrV r v).col m = s.col m := rfl
@[simp] theorem State.wrV_isl (s : State) (r : VReg) (v : Vec) (m : Nat) : (s.wrV r v).isl m = s.isl m := rfl
@[simp] theorem State.wrV_me (s : State) (r : VReg) (v : Vec) : (s.wrV r v).me = s.me := rfl
@[simp] theorem State.wrV_myCore (s : State) (r : VReg) (v : Vec) : (s.wrV r v).myCore = s.myCore := rfl
@[simp] theorem State.wrV_time (s : State) (r : VReg) (v : Vec) : (s.wrV r v).time = s.time := rfl

@[simp] theorem State.wrP_sched (s : State) (p : PReg) (v : Bool) : (s.wrP p v).sched = s.sched := rfl
@[simp] theorem State.wrP_cur (s : State) (p : PReg) (v : Bool) : (s.wrP p v).cur = s.cur := rfl
@[simp] theorem State.wrP_cores (s : State) (p : PReg) (v : Bool) : (s.wrP p v).cores = s.cores := rfl
@[simp] theorem State.wrP_cols (s : State) (p : PReg) (v : Bool) : (s.wrP p v).cols = s.cols := rfl
@[simp] theorem State.wrP_isls (s : State) (p : PReg) (v : Bool) : (s.wrP p v).isls = s.isls := rfl
@[simp] theorem State.wrP_tables (s : State) (p : PReg) (v : Bool) : (s.wrP p v).tables = s.tables := rfl
@[simp] theorem State.wrP_mem (s : State) (p : PReg) (v : Bool) : (s.wrP p v).mem = s.mem := rfl
@[simp] theorem State.wrP_flights (s : State) (p : PReg) (v : Bool) : (s.wrP p v).flights = s.flights := rfl
@[simp] theorem State.wrP_pkg (s : State) (p : PReg) (v : Bool) : (s.wrP p v).pkg = s.pkg := rfl
@[simp] theorem State.wrP_disp (s : State) (p : PReg) (v : Bool) : (s.wrP p v).disp = s.disp := rfl
@[simp] theorem State.wrP_eng (s : State) (p : PReg) (v : Bool) : (s.wrP p v).eng = s.eng := rfl
@[simp] theorem State.wrP_host (s : State) (p : PReg) (v : Bool) : (s.wrP p v).host = s.host := rfl
@[simp] theorem State.wrP_mgmt (s : State) (p : PReg) (v : Bool) : (s.wrP p v).mgmt = s.mgmt := rfl
@[simp] theorem State.wrP_start (s : State) (p : PReg) (v : Bool) : (s.wrP p v).start = s.start := rfl
@[simp] theorem State.wrP_core (s : State) (p : PReg) (v : Bool) (m : Nat) : (s.wrP p v).core m = s.core m := rfl
@[simp] theorem State.wrP_col (s : State) (p : PReg) (v : Bool) (m : Nat) : (s.wrP p v).col m = s.col m := rfl
@[simp] theorem State.wrP_isl (s : State) (p : PReg) (v : Bool) (m : Nat) : (s.wrP p v).isl m = s.isl m := rfl
@[simp] theorem State.wrP_me (s : State) (p : PReg) (v : Bool) : (s.wrP p v).me = s.me := rfl
@[simp] theorem State.wrP_myCore (s : State) (p : PReg) (v : Bool) : (s.wrP p v).myCore = s.myCore := rfl
@[simp] theorem State.wrP_time (s : State) (p : PReg) (v : Bool) : (s.wrP p v).time = s.time := rfl

@[simp] theorem State.raiseFlags_sched (s : State) (f : FFlags) : (s.raiseFlags f).sched = s.sched := rfl
@[simp] theorem State.raiseFlags_cur (s : State) (f : FFlags) : (s.raiseFlags f).cur = s.cur := rfl
@[simp] theorem State.raiseFlags_cores (s : State) (f : FFlags) : (s.raiseFlags f).cores = s.cores := rfl
@[simp] theorem State.raiseFlags_cols (s : State) (f : FFlags) : (s.raiseFlags f).cols = s.cols := rfl
@[simp] theorem State.raiseFlags_isls (s : State) (f : FFlags) : (s.raiseFlags f).isls = s.isls := rfl
@[simp] theorem State.raiseFlags_tables (s : State) (f : FFlags) : (s.raiseFlags f).tables = s.tables := rfl
@[simp] theorem State.raiseFlags_mem (s : State) (f : FFlags) : (s.raiseFlags f).mem = s.mem := rfl
@[simp] theorem State.raiseFlags_flights (s : State) (f : FFlags) : (s.raiseFlags f).flights = s.flights := rfl
@[simp] theorem State.raiseFlags_pkg (s : State) (f : FFlags) : (s.raiseFlags f).pkg = s.pkg := rfl
@[simp] theorem State.raiseFlags_disp (s : State) (f : FFlags) : (s.raiseFlags f).disp = s.disp := rfl
@[simp] theorem State.raiseFlags_eng (s : State) (f : FFlags) : (s.raiseFlags f).eng = s.eng := rfl
@[simp] theorem State.raiseFlags_host (s : State) (f : FFlags) : (s.raiseFlags f).host = s.host := rfl
@[simp] theorem State.raiseFlags_mgmt (s : State) (f : FFlags) : (s.raiseFlags f).mgmt = s.mgmt := rfl
@[simp] theorem State.raiseFlags_start (s : State) (f : FFlags) : (s.raiseFlags f).start = s.start := rfl
@[simp] theorem State.raiseFlags_core (s : State) (f : FFlags) (m : Nat) : (s.raiseFlags f).core m = s.core m := rfl
@[simp] theorem State.raiseFlags_col (s : State) (f : FFlags) (m : Nat) : (s.raiseFlags f).col m = s.col m := rfl
@[simp] theorem State.raiseFlags_isl (s : State) (f : FFlags) (m : Nat) : (s.raiseFlags f).isl m = s.isl m := rfl
@[simp] theorem State.raiseFlags_me (s : State) (f : FFlags) : (s.raiseFlags f).me = s.me := rfl
@[simp] theorem State.raiseFlags_myCore (s : State) (f : FFlags) : (s.raiseFlags f).myCore = s.myCore := rfl
@[simp] theorem State.raiseFlags_time (s : State) (f : FFlags) : (s.raiseFlags f).time = s.time := rfl

@[simp] theorem State.count_sched (s : State) (t e : Nat) : (s.count t e).sched = s.sched := rfl
@[simp] theorem State.count_cur (s : State) (t e : Nat) : (s.count t e).cur = s.cur := rfl
@[simp] theorem State.count_threads (s : State) (t e : Nat) : (s.count t e).threads = s.threads := rfl
@[simp] theorem State.count_cores (s : State) (t e : Nat) : (s.count t e).cores = s.cores := rfl
@[simp] theorem State.count_isls (s : State) (t e : Nat) : (s.count t e).isls = s.isls := rfl
@[simp] theorem State.count_tables (s : State) (t e : Nat) : (s.count t e).tables = s.tables := rfl
@[simp] theorem State.count_mem (s : State) (t e : Nat) : (s.count t e).mem = s.mem := rfl
@[simp] theorem State.count_flights (s : State) (t e : Nat) : (s.count t e).flights = s.flights := rfl
@[simp] theorem State.count_pkg (s : State) (t e : Nat) : (s.count t e).pkg = s.pkg := rfl
@[simp] theorem State.count_disp (s : State) (t e : Nat) : (s.count t e).disp = s.disp := rfl
@[simp] theorem State.count_eng (s : State) (t e : Nat) : (s.count t e).eng = s.eng := rfl
@[simp] theorem State.count_host (s : State) (t e : Nat) : (s.count t e).host = s.host := rfl
@[simp] theorem State.count_mgmt (s : State) (t e : Nat) : (s.count t e).mgmt = s.mgmt := rfl
@[simp] theorem State.count_start (s : State) (t e : Nat) : (s.count t e).start = s.start := rfl
@[simp] theorem State.count_thr (s : State) (t e : Nat) (m : Nat) : (s.count t e).thr m = s.thr m := rfl
@[simp] theorem State.count_core (s : State) (t e : Nat) (m : Nat) : (s.count t e).core m = s.core m := rfl
@[simp] theorem State.count_isl (s : State) (t e : Nat) (m : Nat) : (s.count t e).isl m = s.isl m := rfl
@[simp] theorem State.count_me (s : State) (t e : Nat) : (s.count t e).me = s.me := rfl
@[simp] theorem State.count_myCore (s : State) (t e : Nat) : (s.count t e).myCore = s.myCore := rfl
@[simp] theorem State.count_time (s : State) (t e : Nat) : (s.count t e).time = s.time := rfl

@[simp] theorem State.finishAt_sched (s : State) (pc : W64) : (s.finishAt pc).sched = s.sched := rfl
@[simp] theorem State.finishAt_cur (s : State) (pc : W64) : (s.finishAt pc).cur = s.cur := rfl
@[simp] theorem State.finishAt_cores (s : State) (pc : W64) : (s.finishAt pc).cores = s.cores := rfl
@[simp] theorem State.finishAt_isls (s : State) (pc : W64) : (s.finishAt pc).isls = s.isls := rfl
@[simp] theorem State.finishAt_tables (s : State) (pc : W64) : (s.finishAt pc).tables = s.tables := rfl
@[simp] theorem State.finishAt_mem (s : State) (pc : W64) : (s.finishAt pc).mem = s.mem := rfl
@[simp] theorem State.finishAt_flights (s : State) (pc : W64) : (s.finishAt pc).flights = s.flights := rfl
@[simp] theorem State.finishAt_pkg (s : State) (pc : W64) : (s.finishAt pc).pkg = s.pkg := rfl
@[simp] theorem State.finishAt_disp (s : State) (pc : W64) : (s.finishAt pc).disp = s.disp := rfl
@[simp] theorem State.finishAt_eng (s : State) (pc : W64) : (s.finishAt pc).eng = s.eng := rfl
@[simp] theorem State.finishAt_host (s : State) (pc : W64) : (s.finishAt pc).host = s.host := rfl
@[simp] theorem State.finishAt_mgmt (s : State) (pc : W64) : (s.finishAt pc).mgmt = s.mgmt := rfl
@[simp] theorem State.finishAt_start (s : State) (pc : W64) : (s.finishAt pc).start = s.start := rfl
@[simp] theorem State.finishAt_core (s : State) (pc : W64) (m : Nat) : (s.finishAt pc).core m = s.core m := rfl
@[simp] theorem State.finishAt_isl (s : State) (pc : W64) (m : Nat) : (s.finishAt pc).isl m = s.isl m := rfl
@[simp] theorem State.finishAt_me (s : State) (pc : W64) : (s.finishAt pc).me = s.me := rfl
@[simp] theorem State.finishAt_myCore (s : State) (pc : W64) : (s.finishAt pc).myCore = s.myCore := rfl
@[simp] theorem State.finishAt_time (s : State) (pc : W64) : (s.finishAt pc).time = s.time := rfl

@[simp] theorem State.finish_sched (s : State) : (s.finish).sched = s.sched := rfl
@[simp] theorem State.finish_cur (s : State) : (s.finish).cur = s.cur := rfl
@[simp] theorem State.finish_cores (s : State) : (s.finish).cores = s.cores := rfl
@[simp] theorem State.finish_isls (s : State) : (s.finish).isls = s.isls := rfl
@[simp] theorem State.finish_tables (s : State) : (s.finish).tables = s.tables := rfl
@[simp] theorem State.finish_mem (s : State) : (s.finish).mem = s.mem := rfl
@[simp] theorem State.finish_flights (s : State) : (s.finish).flights = s.flights := rfl
@[simp] theorem State.finish_pkg (s : State) : (s.finish).pkg = s.pkg := rfl
@[simp] theorem State.finish_disp (s : State) : (s.finish).disp = s.disp := rfl
@[simp] theorem State.finish_eng (s : State) : (s.finish).eng = s.eng := rfl
@[simp] theorem State.finish_host (s : State) : (s.finish).host = s.host := rfl
@[simp] theorem State.finish_mgmt (s : State) : (s.finish).mgmt = s.mgmt := rfl
@[simp] theorem State.finish_start (s : State) : (s.finish).start = s.start := rfl
@[simp] theorem State.finish_core (s : State) (m : Nat) : (s.finish).core m = s.core m := rfl
@[simp] theorem State.finish_isl (s : State) (m : Nat) : (s.finish).isl m = s.isl m := rfl
@[simp] theorem State.finish_me (s : State) : (s.finish).me = s.me := rfl
@[simp] theorem State.finish_myCore (s : State) : (s.finish).myCore = s.myCore := rfl
@[simp] theorem State.finish_time (s : State) : (s.finish).time = s.time := rfl

@[simp] theorem State.park_sched (s : State) (t : Nat) (r : Park) (w : Wait) : (s.park t r w).sched = s.sched := rfl
@[simp] theorem State.park_cur (s : State) (t : Nat) (r : Park) (w : Wait) : (s.park t r w).cur = s.cur := rfl
@[simp] theorem State.park_cores (s : State) (t : Nat) (r : Park) (w : Wait) : (s.park t r w).cores = s.cores := rfl
@[simp] theorem State.park_cols (s : State) (t : Nat) (r : Park) (w : Wait) : (s.park t r w).cols = s.cols := rfl
@[simp] theorem State.park_isls (s : State) (t : Nat) (r : Park) (w : Wait) : (s.park t r w).isls = s.isls := rfl
@[simp] theorem State.park_tables (s : State) (t : Nat) (r : Park) (w : Wait) : (s.park t r w).tables = s.tables := rfl
@[simp] theorem State.park_mem (s : State) (t : Nat) (r : Park) (w : Wait) : (s.park t r w).mem = s.mem := rfl
@[simp] theorem State.park_flights (s : State) (t : Nat) (r : Park) (w : Wait) : (s.park t r w).flights = s.flights := rfl
@[simp] theorem State.park_pkg (s : State) (t : Nat) (r : Park) (w : Wait) : (s.park t r w).pkg = s.pkg := rfl
@[simp] theorem State.park_disp (s : State) (t : Nat) (r : Park) (w : Wait) : (s.park t r w).disp = s.disp := rfl
@[simp] theorem State.park_eng (s : State) (t : Nat) (r : Park) (w : Wait) : (s.park t r w).eng = s.eng := rfl
@[simp] theorem State.park_host (s : State) (t : Nat) (r : Park) (w : Wait) : (s.park t r w).host = s.host := rfl
@[simp] theorem State.park_mgmt (s : State) (t : Nat) (r : Park) (w : Wait) : (s.park t r w).mgmt = s.mgmt := rfl
@[simp] theorem State.park_start (s : State) (t : Nat) (r : Park) (w : Wait) : (s.park t r w).start = s.start := rfl
@[simp] theorem State.park_core (s : State) (t : Nat) (r : Park) (w : Wait) (m : Nat) : (s.park t r w).core m = s.core m := rfl
@[simp] theorem State.park_col (s : State) (t : Nat) (r : Park) (w : Wait) (m : Nat) : (s.park t r w).col m = s.col m := rfl
@[simp] theorem State.park_isl (s : State) (t : Nat) (r : Park) (w : Wait) (m : Nat) : (s.park t r w).isl m = s.isl m := rfl
@[simp] theorem State.park_me (s : State) (t : Nat) (r : Park) (w : Wait) : (s.park t r w).me = s.me := rfl
@[simp] theorem State.park_myCore (s : State) (t : Nat) (r : Park) (w : Wait) : (s.park t r w).myCore = s.myCore := rfl
@[simp] theorem State.park_time (s : State) (t : Nat) (r : Park) (w : Wait) : (s.park t r w).time = s.time := rfl

@[simp] theorem State.parkMe_sched (s : State) (r : Park) (w : Wait) : (s.parkMe r w).sched = s.sched := rfl
@[simp] theorem State.parkMe_cur (s : State) (r : Park) (w : Wait) : (s.parkMe r w).cur = s.cur := rfl
@[simp] theorem State.parkMe_cores (s : State) (r : Park) (w : Wait) : (s.parkMe r w).cores = s.cores := rfl
@[simp] theorem State.parkMe_cols (s : State) (r : Park) (w : Wait) : (s.parkMe r w).cols = s.cols := rfl
@[simp] theorem State.parkMe_isls (s : State) (r : Park) (w : Wait) : (s.parkMe r w).isls = s.isls := rfl
@[simp] theorem State.parkMe_tables (s : State) (r : Park) (w : Wait) : (s.parkMe r w).tables = s.tables := rfl
@[simp] theorem State.parkMe_mem (s : State) (r : Park) (w : Wait) : (s.parkMe r w).mem = s.mem := rfl
@[simp] theorem State.parkMe_flights (s : State) (r : Park) (w : Wait) : (s.parkMe r w).flights = s.flights := rfl
@[simp] theorem State.parkMe_pkg (s : State) (r : Park) (w : Wait) : (s.parkMe r w).pkg = s.pkg := rfl
@[simp] theorem State.parkMe_disp (s : State) (r : Park) (w : Wait) : (s.parkMe r w).disp = s.disp := rfl
@[simp] theorem State.parkMe_eng (s : State) (r : Park) (w : Wait) : (s.parkMe r w).eng = s.eng := rfl
@[simp] theorem State.parkMe_host (s : State) (r : Park) (w : Wait) : (s.parkMe r w).host = s.host := rfl
@[simp] theorem State.parkMe_mgmt (s : State) (r : Park) (w : Wait) : (s.parkMe r w).mgmt = s.mgmt := rfl
@[simp] theorem State.parkMe_start (s : State) (r : Park) (w : Wait) : (s.parkMe r w).start = s.start := rfl
@[simp] theorem State.parkMe_core (s : State) (r : Park) (w : Wait) (m : Nat) : (s.parkMe r w).core m = s.core m := rfl
@[simp] theorem State.parkMe_col (s : State) (r : Park) (w : Wait) (m : Nat) : (s.parkMe r w).col m = s.col m := rfl
@[simp] theorem State.parkMe_isl (s : State) (r : Park) (w : Wait) (m : Nat) : (s.parkMe r w).isl m = s.isl m := rfl
@[simp] theorem State.parkMe_me (s : State) (r : Park) (w : Wait) : (s.parkMe r w).me = s.me := rfl
@[simp] theorem State.parkMe_myCore (s : State) (r : Park) (w : Wait) : (s.parkMe r w).myCore = s.myCore := rfl
@[simp] theorem State.parkMe_time (s : State) (r : Park) (w : Wait) : (s.parkMe r w).time = s.time := rfl

@[simp] theorem State.wake_sched (s : State) (t : Nat) : (s.wake t).sched = s.sched := rfl
@[simp] theorem State.wake_cur (s : State) (t : Nat) : (s.wake t).cur = s.cur := rfl
@[simp] theorem State.wake_cores (s : State) (t : Nat) : (s.wake t).cores = s.cores := rfl
@[simp] theorem State.wake_cols (s : State) (t : Nat) : (s.wake t).cols = s.cols := rfl
@[simp] theorem State.wake_isls (s : State) (t : Nat) : (s.wake t).isls = s.isls := rfl
@[simp] theorem State.wake_tables (s : State) (t : Nat) : (s.wake t).tables = s.tables := rfl
@[simp] theorem State.wake_mem (s : State) (t : Nat) : (s.wake t).mem = s.mem := rfl
@[simp] theorem State.wake_flights (s : State) (t : Nat) : (s.wake t).flights = s.flights := rfl
@[simp] theorem State.wake_pkg (s : State) (t : Nat) : (s.wake t).pkg = s.pkg := rfl
@[simp] theorem State.wake_disp (s : State) (t : Nat) : (s.wake t).disp = s.disp := rfl
@[simp] theorem State.wake_eng (s : State) (t : Nat) : (s.wake t).eng = s.eng := rfl
@[simp] theorem State.wake_host (s : State) (t : Nat) : (s.wake t).host = s.host := rfl
@[simp] theorem State.wake_mgmt (s : State) (t : Nat) : (s.wake t).mgmt = s.mgmt := rfl
@[simp] theorem State.wake_start (s : State) (t : Nat) : (s.wake t).start = s.start := rfl
@[simp] theorem State.wake_core (s : State) (t : Nat) (m : Nat) : (s.wake t).core m = s.core m := rfl
@[simp] theorem State.wake_col (s : State) (t : Nat) (m : Nat) : (s.wake t).col m = s.col m := rfl
@[simp] theorem State.wake_isl (s : State) (t : Nat) (m : Nat) : (s.wake t).isl m = s.isl m := rfl
@[simp] theorem State.wake_me (s : State) (t : Nat) : (s.wake t).me = s.me := rfl
@[simp] theorem State.wake_myCore (s : State) (t : Nat) : (s.wake t).myCore = s.myCore := rfl
@[simp] theorem State.wake_time (s : State) (t : Nat) : (s.wake t).time = s.time := rfl

@[simp] theorem State.completeParked_sched (s : State) (t : Nat) (f : Thread → Thread) : (s.completeParked t f).sched = s.sched := rfl
@[simp] theorem State.completeParked_cur (s : State) (t : Nat) (f : Thread → Thread) : (s.completeParked t f).cur = s.cur := rfl
@[simp] theorem State.completeParked_cores (s : State) (t : Nat) (f : Thread → Thread) : (s.completeParked t f).cores = s.cores := rfl
@[simp] theorem State.completeParked_isls (s : State) (t : Nat) (f : Thread → Thread) : (s.completeParked t f).isls = s.isls := rfl
@[simp] theorem State.completeParked_tables (s : State) (t : Nat) (f : Thread → Thread) : (s.completeParked t f).tables = s.tables := rfl
@[simp] theorem State.completeParked_mem (s : State) (t : Nat) (f : Thread → Thread) : (s.completeParked t f).mem = s.mem := rfl
@[simp] theorem State.completeParked_flights (s : State) (t : Nat) (f : Thread → Thread) : (s.completeParked t f).flights = s.flights := rfl
@[simp] theorem State.completeParked_pkg (s : State) (t : Nat) (f : Thread → Thread) : (s.completeParked t f).pkg = s.pkg := rfl
@[simp] theorem State.completeParked_disp (s : State) (t : Nat) (f : Thread → Thread) : (s.completeParked t f).disp = s.disp := rfl
@[simp] theorem State.completeParked_eng (s : State) (t : Nat) (f : Thread → Thread) : (s.completeParked t f).eng = s.eng := rfl
@[simp] theorem State.completeParked_host (s : State) (t : Nat) (f : Thread → Thread) : (s.completeParked t f).host = s.host := rfl
@[simp] theorem State.completeParked_mgmt (s : State) (t : Nat) (f : Thread → Thread) : (s.completeParked t f).mgmt = s.mgmt := rfl
@[simp] theorem State.completeParked_start (s : State) (t : Nat) (f : Thread → Thread) : (s.completeParked t f).start = s.start := rfl
@[simp] theorem State.completeParked_core (s : State) (t : Nat) (f : Thread → Thread) (m : Nat) : (s.completeParked t f).core m = s.core m := rfl
@[simp] theorem State.completeParked_isl (s : State) (t : Nat) (f : Thread → Thread) (m : Nat) : (s.completeParked t f).isl m = s.isl m := rfl
@[simp] theorem State.completeParked_me (s : State) (t : Nat) (f : Thread → Thread) : (s.completeParked t f).me = s.me := rfl
@[simp] theorem State.completeParked_myCore (s : State) (t : Nat) (f : Thread → Thread) : (s.completeParked t f).myCore = s.myCore := rfl
@[simp] theorem State.completeParked_time (s : State) (t : Nat) (f : Thread → Thread) : (s.completeParked t f).time = s.time := rfl

@[simp] theorem State.post_cur (s : State) (due : Nat) (e : Event) : (s.post due e).cur = s.cur := rfl
@[simp] theorem State.post_threads (s : State) (due : Nat) (e : Event) : (s.post due e).threads = s.threads := rfl
@[simp] theorem State.post_cores (s : State) (due : Nat) (e : Event) : (s.post due e).cores = s.cores := rfl
@[simp] theorem State.post_cols (s : State) (due : Nat) (e : Event) : (s.post due e).cols = s.cols := rfl
@[simp] theorem State.post_isls (s : State) (due : Nat) (e : Event) : (s.post due e).isls = s.isls := rfl
@[simp] theorem State.post_tables (s : State) (due : Nat) (e : Event) : (s.post due e).tables = s.tables := rfl
@[simp] theorem State.post_mem (s : State) (due : Nat) (e : Event) : (s.post due e).mem = s.mem := rfl
@[simp] theorem State.post_flights (s : State) (due : Nat) (e : Event) : (s.post due e).flights = s.flights := rfl
@[simp] theorem State.post_pkg (s : State) (due : Nat) (e : Event) : (s.post due e).pkg = s.pkg := rfl
@[simp] theorem State.post_disp (s : State) (due : Nat) (e : Event) : (s.post due e).disp = s.disp := rfl
@[simp] theorem State.post_eng (s : State) (due : Nat) (e : Event) : (s.post due e).eng = s.eng := rfl
@[simp] theorem State.post_host (s : State) (due : Nat) (e : Event) : (s.post due e).host = s.host := rfl
@[simp] theorem State.post_mgmt (s : State) (due : Nat) (e : Event) : (s.post due e).mgmt = s.mgmt := rfl
@[simp] theorem State.post_start (s : State) (due : Nat) (e : Event) : (s.post due e).start = s.start := rfl
@[simp] theorem State.post_thr (s : State) (due : Nat) (e : Event) (m : Nat) : (s.post due e).thr m = s.thr m := rfl
@[simp] theorem State.post_core (s : State) (due : Nat) (e : Event) (m : Nat) : (s.post due e).core m = s.core m := rfl
@[simp] theorem State.post_col (s : State) (due : Nat) (e : Event) (m : Nat) : (s.post due e).col m = s.col m := rfl
@[simp] theorem State.post_isl (s : State) (due : Nat) (e : Event) (m : Nat) : (s.post due e).isl m = s.isl m := rfl
@[simp] theorem State.post_me (s : State) (due : Nat) (e : Event) : (s.post due e).me = s.me := rfl
@[simp] theorem State.post_myCore (s : State) (due : Nat) (e : Event) : (s.post due e).myCore = s.myCore := rfl

@[simp] theorem State.after_cur (s : State) (n : Nat) (e : Event) : (s.after n e).cur = s.cur := rfl
@[simp] theorem State.after_threads (s : State) (n : Nat) (e : Event) : (s.after n e).threads = s.threads := rfl
@[simp] theorem State.after_cores (s : State) (n : Nat) (e : Event) : (s.after n e).cores = s.cores := rfl
@[simp] theorem State.after_cols (s : State) (n : Nat) (e : Event) : (s.after n e).cols = s.cols := rfl
@[simp] theorem State.after_isls (s : State) (n : Nat) (e : Event) : (s.after n e).isls = s.isls := rfl
@[simp] theorem State.after_tables (s : State) (n : Nat) (e : Event) : (s.after n e).tables = s.tables := rfl
@[simp] theorem State.after_mem (s : State) (n : Nat) (e : Event) : (s.after n e).mem = s.mem := rfl
@[simp] theorem State.after_flights (s : State) (n : Nat) (e : Event) : (s.after n e).flights = s.flights := rfl
@[simp] theorem State.after_pkg (s : State) (n : Nat) (e : Event) : (s.after n e).pkg = s.pkg := rfl
@[simp] theorem State.after_disp (s : State) (n : Nat) (e : Event) : (s.after n e).disp = s.disp := rfl
@[simp] theorem State.after_eng (s : State) (n : Nat) (e : Event) : (s.after n e).eng = s.eng := rfl
@[simp] theorem State.after_host (s : State) (n : Nat) (e : Event) : (s.after n e).host = s.host := rfl
@[simp] theorem State.after_mgmt (s : State) (n : Nat) (e : Event) : (s.after n e).mgmt = s.mgmt := rfl
@[simp] theorem State.after_start (s : State) (n : Nat) (e : Event) : (s.after n e).start = s.start := rfl
@[simp] theorem State.after_thr (s : State) (n : Nat) (e : Event) (m : Nat) : (s.after n e).thr m = s.thr m := rfl
@[simp] theorem State.after_core (s : State) (n : Nat) (e : Event) (m : Nat) : (s.after n e).core m = s.core m := rfl
@[simp] theorem State.after_col (s : State) (n : Nat) (e : Event) (m : Nat) : (s.after n e).col m = s.col m := rfl
@[simp] theorem State.after_isl (s : State) (n : Nat) (e : Event) (m : Nat) : (s.after n e).isl m = s.isl m := rfl
@[simp] theorem State.after_me (s : State) (n : Nat) (e : Event) : (s.after n e).me = s.me := rfl
@[simp] theorem State.after_myCore (s : State) (n : Nat) (e : Event) : (s.after n e).myCore = s.myCore := rfl

@[simp] theorem State.later_cur (s : State) (n : Nat) (e : Event) : (s.later n e).cur = s.cur := rfl
@[simp] theorem State.later_threads (s : State) (n : Nat) (e : Event) : (s.later n e).threads = s.threads := rfl
@[simp] theorem State.later_cores (s : State) (n : Nat) (e : Event) : (s.later n e).cores = s.cores := rfl
@[simp] theorem State.later_cols (s : State) (n : Nat) (e : Event) : (s.later n e).cols = s.cols := rfl
@[simp] theorem State.later_isls (s : State) (n : Nat) (e : Event) : (s.later n e).isls = s.isls := rfl
@[simp] theorem State.later_tables (s : State) (n : Nat) (e : Event) : (s.later n e).tables = s.tables := rfl
@[simp] theorem State.later_mem (s : State) (n : Nat) (e : Event) : (s.later n e).mem = s.mem := rfl
@[simp] theorem State.later_flights (s : State) (n : Nat) (e : Event) : (s.later n e).flights = s.flights := rfl
@[simp] theorem State.later_pkg (s : State) (n : Nat) (e : Event) : (s.later n e).pkg = s.pkg := rfl
@[simp] theorem State.later_disp (s : State) (n : Nat) (e : Event) : (s.later n e).disp = s.disp := rfl
@[simp] theorem State.later_eng (s : State) (n : Nat) (e : Event) : (s.later n e).eng = s.eng := rfl
@[simp] theorem State.later_host (s : State) (n : Nat) (e : Event) : (s.later n e).host = s.host := rfl
@[simp] theorem State.later_mgmt (s : State) (n : Nat) (e : Event) : (s.later n e).mgmt = s.mgmt := rfl
@[simp] theorem State.later_start (s : State) (n : Nat) (e : Event) : (s.later n e).start = s.start := rfl
@[simp] theorem State.later_thr (s : State) (n : Nat) (e : Event) (m : Nat) : (s.later n e).thr m = s.thr m := rfl
@[simp] theorem State.later_core (s : State) (n : Nat) (e : Event) (m : Nat) : (s.later n e).core m = s.core m := rfl
@[simp] theorem State.later_col (s : State) (n : Nat) (e : Event) (m : Nat) : (s.later n e).col m = s.col m := rfl
@[simp] theorem State.later_isl (s : State) (n : Nat) (e : Event) (m : Nat) : (s.later n e).isl m = s.isl m := rfl
@[simp] theorem State.later_me (s : State) (n : Nat) (e : Event) : (s.later n e).me = s.me := rfl
@[simp] theorem State.later_myCore (s : State) (n : Nat) (e : Event) : (s.later n e).myCore = s.myCore := rfl

@[simp] theorem State.tell_sched (s : State) (msg : Msg) : (s.tell msg).sched = s.sched := rfl
@[simp] theorem State.tell_cur (s : State) (msg : Msg) : (s.tell msg).cur = s.cur := rfl
@[simp] theorem State.tell_threads (s : State) (msg : Msg) : (s.tell msg).threads = s.threads := rfl
@[simp] theorem State.tell_cores (s : State) (msg : Msg) : (s.tell msg).cores = s.cores := rfl
@[simp] theorem State.tell_cols (s : State) (msg : Msg) : (s.tell msg).cols = s.cols := rfl
@[simp] theorem State.tell_isls (s : State) (msg : Msg) : (s.tell msg).isls = s.isls := rfl
@[simp] theorem State.tell_tables (s : State) (msg : Msg) : (s.tell msg).tables = s.tables := rfl
@[simp] theorem State.tell_mem (s : State) (msg : Msg) : (s.tell msg).mem = s.mem := rfl
@[simp] theorem State.tell_flights (s : State) (msg : Msg) : (s.tell msg).flights = s.flights := rfl
@[simp] theorem State.tell_pkg (s : State) (msg : Msg) : (s.tell msg).pkg = s.pkg := rfl
@[simp] theorem State.tell_disp (s : State) (msg : Msg) : (s.tell msg).disp = s.disp := rfl
@[simp] theorem State.tell_eng (s : State) (msg : Msg) : (s.tell msg).eng = s.eng := rfl
@[simp] theorem State.tell_mgmt (s : State) (msg : Msg) : (s.tell msg).mgmt = s.mgmt := rfl
@[simp] theorem State.tell_start (s : State) (msg : Msg) : (s.tell msg).start = s.start := rfl
@[simp] theorem State.tell_thr (s : State) (msg : Msg) (m : Nat) : (s.tell msg).thr m = s.thr m := rfl
@[simp] theorem State.tell_core (s : State) (msg : Msg) (m : Nat) : (s.tell msg).core m = s.core m := rfl
@[simp] theorem State.tell_col (s : State) (msg : Msg) (m : Nat) : (s.tell msg).col m = s.col m := rfl
@[simp] theorem State.tell_isl (s : State) (msg : Msg) (m : Nat) : (s.tell msg).isl m = s.isl m := rfl
@[simp] theorem State.tell_me (s : State) (msg : Msg) : (s.tell msg).me = s.me := rfl
@[simp] theorem State.tell_myCore (s : State) (msg : Msg) : (s.tell msg).myCore = s.myCore := rfl
@[simp] theorem State.tell_time (s : State) (msg : Msg) : (s.tell msg).time = s.time := rfl

/-! The number that a message takes. -/
@[simp] theorem State.fresh_cur (s : State) : s.fresh.2.cur = s.cur := rfl
@[simp] theorem State.fresh_threads (s : State) : s.fresh.2.threads = s.threads := rfl
@[simp] theorem State.fresh_cores (s : State) : s.fresh.2.cores = s.cores := rfl
@[simp] theorem State.fresh_cols (s : State) : s.fresh.2.cols = s.cols := rfl
@[simp] theorem State.fresh_isls (s : State) : s.fresh.2.isls = s.isls := rfl
@[simp] theorem State.fresh_tables (s : State) : s.fresh.2.tables = s.tables := rfl
@[simp] theorem State.fresh_mem (s : State) : s.fresh.2.mem = s.mem := rfl
@[simp] theorem State.fresh_flights (s : State) : s.fresh.2.flights = s.flights := rfl
@[simp] theorem State.fresh_pkg (s : State) : s.fresh.2.pkg = s.pkg := rfl
@[simp] theorem State.fresh_disp (s : State) : s.fresh.2.disp = s.disp := rfl
@[simp] theorem State.fresh_eng (s : State) : s.fresh.2.eng = s.eng := rfl
@[simp] theorem State.fresh_host (s : State) : s.fresh.2.host = s.host := rfl
@[simp] theorem State.fresh_mgmt (s : State) : s.fresh.2.mgmt = s.mgmt := rfl
@[simp] theorem State.fresh_start (s : State) : s.fresh.2.start = s.start := rfl
@[simp] theorem State.fresh_thr (s : State) (m : Nat) : s.fresh.2.thr m = s.thr m := rfl
@[simp] theorem State.fresh_core (s : State) (m : Nat) : s.fresh.2.core m = s.core m := rfl
@[simp] theorem State.fresh_col (s : State) (m : Nat) : s.fresh.2.col m = s.col m := rfl
@[simp] theorem State.fresh_isl (s : State) (m : Nat) : s.fresh.2.isl m = s.isl m := rfl
@[simp] theorem State.fresh_me (s : State) : s.fresh.2.me = s.me := rfl
@[simp] theorem State.fresh_myCore (s : State) : s.fresh.2.myCore = s.myCore := rfl
@[simp] theorem State.fresh_time (s : State) : s.fresh.2.time = s.time := rfl

/-! A unit after an update of one. -/
@[simp] theorem State.putThr_thr (s : State) (t : Nat) (x : Thread) (m : Nat) : (s.putThr t x).thr m = if m = t then x else s.thr m := by
  simp [State.thr, State.putThr, sget_sset]
@[simp] theorem State.modThr_thr (s : State) (t : Nat) (f : Thread → Thread) (m : Nat) :
    (s.modThr t f).thr m = if m = t then f (s.thr t) else s.thr m := State.putThr_thr s t _ m
@[simp] theorem State.putCore_core (s : State) (q : Nat) (x : Core) (m : Nat) : (s.putCore q x).core m = if m = q then x else s.core m := by
  simp [State.core, State.putCore, sget_sset]
@[simp] theorem State.modCore_core (s : State) (q : Nat) (f : Core → Core) (m : Nat) :
    (s.modCore q f).core m = if m = q then f (s.core q) else s.core m := State.putCore_core s q _ m
@[simp] theorem State.putCol_col (s : State) (c : Nat) (x : Col) (m : Nat) : (s.putCol c x).col m = if m = c then x else s.col m := by
  simp [State.col, State.putCol, sget_sset]
@[simp] theorem State.modCol_col (s : State) (c : Nat) (f : Col → Col) (m : Nat) :
    (s.modCol c f).col m = if m = c then f (s.col c) else s.col m := State.putCol_col s c _ m
@[simp] theorem State.putIsl_isl (s : State) (k : Nat) (x : Isl) (m : Nat) : (s.putIsl k x).isl m = if m = k then x else s.isl m := by
  simp [State.isl, State.putIsl, sget_sset]
@[simp] theorem State.modIsl_isl (s : State) (k : Nat) (f : Isl → Isl) (m : Nat) :
    (s.modIsl k f).isl m = if m = k then f (s.isl k) else s.isl m := State.putIsl_isl s k _ m

/-! The issuing thread after its instruction. -/
@[simp] theorem State.finishAt_thr (s : State) (pc : W64) (m : Nat) : (s.finishAt pc).thr m =
    if m = s.me then { s.thr s.me with pc := pc, resume := false, reissue := false, retrans := false } else s.thr m := by
  simp [State.finishAt]
@[simp] theorem State.finish_thr (s : State) (m : Nat) : s.finish.thr m =
    if m = s.me then { s.thr s.me with pc := (s.thr s.me).pc + 1, resume := false, reissue := false, retrans := false } else s.thr m := by
  simp [State.finish, State.pc]
@[simp] theorem State.finishAt_col (s : State) (pc : W64) (m : Nat) : (s.finishAt pc).col m = (s.count s.me 0).col m := rfl
@[simp] theorem State.finish_col (s : State) (m : Nat) : s.finish.col m = (s.count s.me 0).col m := rfl
@[simp] theorem State.wr_thr (s : State) (r : Reg) (v : W64) (m : Nat) : (s.wr r v).thr m = if m = s.me then (s.thr s.me).putS r v else s.thr m :=
  State.modThr_thr s s.me _ m
@[simp] theorem State.wrV_thr (s : State) (r : VReg) (v : Vec) (m : Nat) : (s.wrV r v).thr m = if m = s.me then (s.thr s.me).putV r v else s.thr m :=
  State.modThr_thr s s.me _ m
@[simp] theorem State.wrP_thr (s : State) (p : PReg) (v : Bool) (m : Nat) : (s.wrP p v).thr m = if m = s.me then (s.thr s.me).putP p v else s.thr m :=
  State.modThr_thr s s.me _ m
@[simp] theorem State.raiseFlags_thr (s : State) (f : FFlags) (m : Nat) : (s.raiseFlags f).thr m =
    if m = s.me then { s.thr s.me with fpm := (s.thr s.me).fpm ||| (f.zeroExtend 7 <<< 2) } else s.thr m := State.modThr_thr s s.me _ m
@[simp] theorem State.parkMe_thr (s : State) (r : Park) (w : Wait) (m : Nat) : (s.parkMe r w).thr m =
    if m = s.me then { s.thr s.me with
      st := .parked r, wait := w, parkedAt := s.cycOf s.me, retrans := (s.thr s.me).retrans && r == .range } else s.thr m := State.modThr_thr s s.me _ m
@[simp] theorem State.park_thr (s : State) (t : Nat) (r : Park) (w : Wait) (m : Nat) : (s.park t r w).thr m =
    if m = t then { s.thr t with
      st := .parked r, wait := w, parkedAt := s.cycOf t, retrans := (s.thr t).retrans && r == .range } else s.thr m := State.modThr_thr s t _ m
theorem State.count_col (s : State) (t e m : Nat) : (s.count t e).col m = if m = colOf t then
    (if (s.col m).perfHeld.contains (4 * e + quarterOf t) then s.col m
     else { s.col m with perf := (s.col m).perf.setIfInBounds (4 * e + quarterOf t) ((s.col m).perf.getD (4 * e + quarterOf t) 0 + 1) }) else s.col m := by
  unfold State.count
  rw [State.modCol_col]
  split
  · subst_vars; rfl
  · rfl

/-! Registers of a thread: a write changes its own register alone; register s0 and predicate p0 keep their constants (R103). -/
@[simp] theorem Thread.sreg_putS (x : Thread) (d r : Reg) (v : W64) :
    (x.putS d v).sreg r = if r = 0 then 0 else if r = d then v else x.sreg r := by
  unfold Thread.sreg Thread.putS
  by_cases hr : r = 0
  · rw [if_pos hr, if_pos hr]
  · rw [if_neg hr, if_neg hr]
    by_cases hd : d = 0
    · rw [if_pos hd, if_neg (by rw [hd]; exact hr), if_neg hr]
    · simp only [if_neg hd, if_neg hr]
      by_cases h : r = d
      · subst h; simp
      · have : d.toNat ≠ r.toNat := fun e => h (BitVec.eq_of_toNat_eq e.symm)
        simp [h, Vector.getElem_set_ne, this]
@[simp] theorem Thread.vreg_putV (x : Thread) (d r : VReg) (v : Vec) : (x.putV d v).vreg r = if r = d then v else x.vreg r := by
  unfold Thread.vreg Thread.putV
  by_cases h : r = d
  · subst h; simp
  · have : d.toNat ≠ r.toNat := fun e => h (BitVec.eq_of_toNat_eq e.symm)
    simp [h, this]
end Sys2Proof.Machine
end

