-- ==== Sys2Proof/Laws/Completes.lean ====
section
/-! SUPPORT. From the shape of a meaning to the statement that the instruction
completes: an instruction whose meaning is one write in the thread that runs,
followed by the move to the next instruction, completes with that write and
nothing else.  A proof about such an instruction cites these lemmas and never
unfolds the state. -/

namespace Sys2Proof.Laws

open Sys2Proof Sys2Proof.Machine Sys2Proof.Safety

/-- A meaning that changes only the running thread, by an update that keeps its
program counter, completes with the thread so updated. -/
theorem completes_of (i : Instr) (s : State) (x : Thread) (f : Thread → Thread)
    (hx : f (s.thr s.me) = x) (hpc : x.pc = (s.thr s.me).pc)
    (h : exec i s = .next (s.modThr s.me f).finish) : Completes i s x := by
  refine ⟨_, h, ?_, ?_, ?_⟩
  · exact ⟨fun m hm => by simp_all, by simp_all⟩
  · intro c
    simp [State.finish_col]
    rfl
  · simp [hx, Safety.done, hpc]

/-- A meaning that writes one scalar register completes with that write. -/
theorem writes_of (i : Instr) (s : State) (d : Reg) (v : W64)
    (h : exec i s = .next (s.wr d v).finish) : Writes i s d v :=
  completes_of i s _ (fun x => x.putS d v) rfl
    (by unfold Thread.putS; split <;> rfl) h

/-- A meaning that writes one predicate register completes with that write. -/
theorem writesP_of (i : Instr) (s : State) (d : PReg) (v : Bool)
    (h : exec i s = .next (s.wrP d v).finish) : WritesP i s d v :=
  completes_of i s _ (fun x => x.putP d v) rfl
    (by unfold Thread.putP; split <;> rfl) h

end Sys2Proof.Laws
end

