-- ==== Sys2Proof/Laws/Decode.lean ====
section
/-! SUPPORT. What the fields of an encoded word are, and that the subfields' codes read back. -/
namespace Sys2Proof

theorem fld_asWord {k : Nat} (x : BitVec k) (lo n : Nat) (h : lo + n ≤ 32) : fld (asWord x) lo n = x.extractLsb' lo n := by
  unfold fld asWord
  apply BitVec.eq_of_getLsbD_eq
  intro i hi
  simp only [BitVec.getLsbD_extractLsb', BitVec.getLsbD_setWidth, hi, decide_true, Bool.true_and]
  have : lo + i < 32 := by omega
  simp [this]

theorem ext_cat_hi {n m : Nat} (x : BitVec n) (y : BitVec m) (lo k : Nat) (h : m ≤ lo) :
    (cat x y).extractLsb' lo k = x.extractLsb' (lo - m) k := by
  unfold cat
  apply BitVec.eq_of_getLsbD_eq
  intro i hi
  have h1 : ¬ lo + i < m := by omega
  have h2 : lo + i - m = lo - m + i := by omega
  simp [BitVec.getLsbD_append, h1, h2, hi]

theorem ext_cat_lo {n m : Nat} (x : BitVec n) (y : BitVec m) (lo k : Nat) (h : lo + k ≤ m) :
    (cat x y).extractLsb' lo k = y.extractLsb' lo k := by
  unfold cat
  apply BitVec.eq_of_getLsbD_eq
  intro i hi
  have h1 : lo + i < m := by omega
  simp [BitVec.getLsbD_append, h1, hi]

theorem ext_self {n : Nat} (x : BitVec n) : x.extractLsb' 0 n = x := by simp

theorem accept_true (i : Instr) : accept true i = .ok i := rfl

theorem accept_of {b : Bool} {i : Instr} (h : b = true) : accept b i = .ok i := by rw [h]; rfl

theorem bit1_eq (b : Bool) : (bit1 b == 1#1) = b := by cases b <;> rfl

theorem decFmt_enc (f : Fmt) : decFmt (encFmt f) = some f := by cases f <;> rfl
theorem decLane_enc (t : LaneType) : decLane (encLane t) = some t := by cases t <;> rfl
theorem decSize_enc (z : MSize) : decSize (encSize z) = some z := by cases z <;> rfl
theorem decScope_enc (s : Scope) : decScope (encScope s) = some s := by cases s <;> rfl
theorem decCond_enc (c : Cond) : decCond (encCond c) = some c := by cases c <;> rfl
theorem decFCond_enc (c : FCond) : decFCond (encFCond c) = some c := by cases c <;> rfl
theorem decKind_enc (k : TokKind) : decKind (encKind k) = some k := by cases k <;> rfl
theorem decVamo_enc (o : VamoOp) : decVamo (encVamo o) = some o := by cases o <;> rfl
theorem decWFmt_enc (f : WFmt) : decWFmt (encWFmt f) = f := by cases f <;> rfl
theorem decAFmt_enc (f : AFmt) : decAFmt (encAFmt f) = some f := by cases f <;> rfl
theorem decShuf_enc (k : ShufKind) : decShuf (encShuf k) = some k := by cases k <;> rfl
theorem decRed_enc (o : RedOp) : decRed (encRed o) = some o := by cases o <;> rfl
theorem decAct_enc (a : ResumeAct) : decAct (encAct a) = some a := by cases a <;> rfl
theorem decAmoSize_enc (z : AmoSize) : decAmoSize (encAmoSize z) = some z := by cases z <;> rfl
theorem decAmoOrd_enc (o : AmoOrd) : decAmoOrd (encAmoOrd o) (encAmoScope o) = some o := by
  cases o <;> first | rfl | (rename_i s; cases s <;> rfl)
theorem decTarget_enc (t : RgTarget) : decTarget (encTargetCode t) (encTargetIsl t) (encTargetIdx t) = some t := by
  cases t with
  | entry i => rfl
  | island k i => rfl
  | ctag n => revert n; decide
  | itag k => rfl

end Sys2Proof
end

