-- ==== Sys2Proof/Laws/PerInstr.lean ====
section
/-! SUPPORT. Decoding the word of an encoded instruction, one lemma for each constructor: every operand of a well-formed instruction reads back. -/


set_option linter.unusedSimpArgs false

namespace Sys2Proof.Laws.RoundTrip

/-- An instruction that has a word is what the decoder reads from it. -/
def Statement (i : Instr) : Prop := ∀ w, WellFormed i = true → encode i = some w → decode w = .ok i

end Sys2Proof.Laws.RoundTrip

namespace Sys2Proof

theorem decode_major00 (w : Word) (h : fld w 26 6 = 0x00#6) : decode w = decMajor00 w := by
  unfold decode; rw [h]; rfl

theorem decode_major01 (w : Word) (h : fld w 26 6 = 0x01#6) : decode w = decMajor01 w := by
  unfold decode; rw [h]; rfl

theorem decode_major02 (w : Word) (h : fld w 26 6 = 0x02#6) : decode w = decMajor02 w := by
  unfold decode; rw [h]; rfl

theorem decode_major03 (w : Word) (h : fld w 26 6 = 0x03#6) : decode w = decMajor03 w := by
  unfold decode; rw [h]; rfl

theorem decode_major04 (w : Word) (h : fld w 26 6 = 0x04#6) : decode w = decMajor04 w := by
  unfold decode; rw [h]; rfl

theorem decode_major09 (w : Word) (h : fld w 26 6 = 0x09#6) : decode w = decMajor09 w := by
  unfold decode; rw [h]; rfl

theorem decode_major0A (w : Word) (h : fld w 26 6 = 0x0A#6) : decode w = decMajor0A w := by
  unfold decode; rw [h]; rfl

theorem decode_major0B (w : Word) (h : fld w 26 6 = 0x0B#6) : decode w = decMajor0B w := by
  unfold decode; rw [h]; rfl

theorem decode_major0C (w : Word) (h : fld w 26 6 = 0x0C#6) : decode w = decMajor0C w := by
  unfold decode; rw [h]; rfl

theorem decode_major0D (w : Word) (h : fld w 26 6 = 0x0D#6) : decode w = decMajor0D w := by
  unfold decode; rw [h]; rfl

theorem decode_major0E (w : Word) (h : fld w 26 6 = 0x0E#6) : decode w = decMajor0E w := by
  unfold decode; rw [h]; rfl

theorem decode_major0F (w : Word) (h : fld w 26 6 = 0x0F#6) : decode w = decMajor0F w := by
  unfold decode; rw [h]; rfl

theorem decode_major12 (w : Word) (h : fld w 26 6 = 0x12#6) : decode w = decMajor12 w := by
  unfold decode; rw [h]; rfl

theorem decode_major13 (w : Word) (h : fld w 26 6 = 0x13#6) : decode w = decMajor13 w := by
  unfold decode; rw [h]; rfl

theorem decode_major14 (w : Word) (h : fld w 26 6 = 0x14#6) : decode w = decMajor14 w := by
  unfold decode; rw [h]; rfl

theorem decode_major15 (w : Word) (h : fld w 26 6 = 0x15#6) : decode w = decMajor15 w := by
  unfold decode; rw [h]; rfl

theorem decode_major16 (w : Word) (h : fld w 26 6 = 0x16#6) : decode w = decMajor16 w := by
  unfold decode; rw [h]; rfl

theorem decode_major17 (w : Word) (h : fld w 26 6 = 0x17#6) : decode w = decMajor17 w := by
  unfold decode; rw [h]; rfl

theorem decode_major18 (w : Word) (h : fld w 26 6 = 0x18#6) : decode w = decMajor18 w := by
  unfold decode; rw [h]; rfl

theorem decode_major19 (w : Word) (h : fld w 26 6 = 0x19#6) : decode w = decMajor19 w := by
  unfold decode; rw [h]; rfl

theorem decode_major1A (w : Word) (h : fld w 26 6 = 0x1A#6) : decode w = decMajor1A w := by
  unfold decode; rw [h]; rfl

theorem decode_major1B (w : Word) (h : fld w 26 6 = 0x1B#6) : decode w = decMajor1B w := by
  unfold decode; rw [h]; rfl

theorem decode_major1C (w : Word) (h : fld w 26 6 = 0x1C#6) : decode w = decMajor1C w := by
  unfold decode; rw [h]; rfl

theorem decode_major1D (w : Word) (h : fld w 26 6 = 0x1D#6) : decode w = decMajor1D w := by
  unfold decode; rw [h]; rfl

theorem decode_major1E (w : Word) (h : fld w 26 6 = 0x1E#6) : decode w = decMajor1E w := by
  unfold decode; rw [h]; rfl

theorem decode_major1F (w : Word) (h : fld w 26 6 = 0x1F#6) : decode w = decMajor1F w := by
  unfold decode; rw [h]; rfl

theorem decode_major20 (w : Word) (h : fld w 26 6 = 0x20#6) : decode w = decMajor20 w := by
  unfold decode; rw [h]; rfl

theorem decode_major21 (w : Word) (h : fld w 26 6 = 0x21#6) : decode w = decMajor21 w := by
  unfold decode; rw [h]; rfl

theorem decode_major22 (w : Word) (h : fld w 26 6 = 0x22#6) : decode w = decMajor22 w := by
  unfold decode; rw [h]; rfl

theorem decode_major23 (w : Word) (h : fld w 26 6 = 0x23#6) : decode w = decMajor23 w := by
  unfold decode; rw [h]; rfl

theorem decode_major24 (w : Word) (h : fld w 26 6 = 0x24#6) : decode w = decMajor24 w := by
  unfold decode; rw [h]; rfl

theorem decode_major25 (w : Word) (h : fld w 26 6 = 0x25#6) : decode w = decMajor25 w := by
  unfold decode; rw [h]; rfl

theorem decode_major26 (w : Word) (h : fld w 26 6 = 0x26#6) : decode w = decMajor26 w := by
  unfold decode; rw [h]; rfl

theorem decode_major27 (w : Word) (h : fld w 26 6 = 0x27#6) : decode w = decMajor27 w := by
  unfold decode; rw [h]; rfl

theorem decode_major28 (w : Word) (h : fld w 26 6 = 0x28#6) : decode w = decMajor28 w := by
  unfold decode; rw [h]; rfl

theorem decode_major29 (w : Word) (h : fld w 26 6 = 0x29#6) : decode w = decMajor29 w := by
  unfold decode; rw [h]; rfl

theorem decode_major2A (w : Word) (h : fld w 26 6 = 0x2A#6) : decode w = decMajor2A w := by
  unfold decode; rw [h]; rfl

theorem decode_major2B (w : Word) (h : fld w 26 6 = 0x2B#6) : decode w = decMajor2B w := by
  unfold decode; rw [h]; rfl

theorem decode_major2C (w : Word) (h : fld w 26 6 = 0x2C#6) : decode w = decMajor2C w := by
  unfold decode; rw [h]; rfl

theorem decode_major2D (w : Word) (h : fld w 26 6 = 0x2D#6) : decode w = decMajor2D w := by
  unfold decode; rw [h]; rfl

theorem decode_major2E (w : Word) (h : fld w 26 6 = 0x2E#6) : decode w = decMajor2E w := by
  unfold decode; rw [h]; rfl

theorem decode_major2F (w : Word) (h : fld w 26 6 = 0x2F#6) : decode w = decMajor2F w := by
  unfold decode; rw [h]; rfl

theorem decode_major30 (w : Word) (h : fld w 26 6 = 0x30#6) : decode w = decMajor30 w := by
  unfold decode; rw [h]; rfl

theorem decode_major31 (w : Word) (h : fld w 26 6 = 0x31#6) : decode w = decMajor31 w := by
  unfold decode; rw [h]; rfl

theorem decode_major32 (w : Word) (h : fld w 26 6 = 0x32#6) : decode w = decMajor32 w := by
  unfold decode; rw [h]; rfl

theorem decode_major33 (w : Word) (h : fld w 26 6 = 0x33#6) : decode w = decMajor33 w := by
  unfold decode; rw [h]; rfl

theorem decode_major34 (w : Word) (h : fld w 26 6 = 0x34#6) : decode w = decMajor34 w := by
  unfold decode; rw [h]; rfl

theorem decode_major05 (w : Word) (h : fld w 26 6 = 0x05#6) : decode w = .ok (.addi (fld w 21 5) (fld w 16 5) (fld w 0 16)) := by
  unfold decode; rw [h]; rfl
theorem decode_major06 (w : Word) (h : fld w 26 6 = 0x06#6) : decode w = .ok (.andi (fld w 21 5) (fld w 16 5) (fld w 0 16)) := by
  unfold decode; rw [h]; rfl
theorem decode_major07 (w : Word) (h : fld w 26 6 = 0x07#6) : decode w = .ok (.ori (fld w 21 5) (fld w 16 5) (fld w 0 16)) := by
  unfold decode; rw [h]; rfl
theorem decode_major08 (w : Word) (h : fld w 26 6 = 0x08#6) : decode w = .ok (.xori (fld w 21 5) (fld w 16 5) (fld w 0 16)) := by
  unfold decode; rw [h]; rfl
theorem decode_major10 (w : Word) (h : fld w 26 6 = 0x10#6) :
    decode w = accept (fld w 24 1 == 0) (.bra (fld w 25 1 == 1) (fld w 21 3) (fld w 0 21)) := by
  unfold decode; rw [h]; rfl
theorem decode_major11 (w : Word) (h : fld w 26 6 = 0x11#6) : decode w = .ok (.call (fld w 21 5) (fld w 0 21)) := by
  unfold decode; rw [h]; rfl

end Sys2Proof


open Sys2Proof Sys2Proof.Laws.RoundTrip

theorem Sys2Proof.Laws.RoundTrip.ill : Statement .ill := by
  intro w _ h; cases h; rfl

theorem Sys2Proof.Laws.RoundTrip.reservedEncoding (w : Word) : Statement (.reservedEncoding w) := by
  intro _ _ h; cases h

theorem Sys2Proof.Laws.RoundTrip.add (d : Reg) (a : Reg) (b : Reg) : Statement (.add d a b) := by
  intro w wf h
  cases Option.some.inj h
  rw [decode_major00 _ (by simp [encR, fld_asWord, ext_cat_hi, ext_cat_lo, ext_self])]
  simp [decMajor00, decR3, encR, fld_asWord, ext_cat_hi, ext_cat_lo, ext_self, accept_true, wf]

theorem Sys2Proof.Laws.RoundTrip.sub (d : Reg) (a : Reg) (b : Reg) : Statement (.sub d a b) := by
  intro w wf h
  cases Option.some.inj h
  rw [decode_major00 _ (by simp [encR, fld_asWord, ext_cat_hi, ext_cat_lo, ext_self])]
  simp [decMajor00, decR3, encR, fld_asWord, ext_cat_hi, ext_cat_lo, ext_self, accept_true, wf]

theorem Sys2Proof.Laws.RoundTrip.and (d : Reg) (a : Reg) (b : Reg) : Statement (.and d a b) := by
  intro w wf h
  cases Option.some.inj h
  rw [decode_major00 _ (by simp [encR, fld_asWord, ext_cat_hi, ext_cat_lo, ext_self])]
  simp [decMajor00, decR3, encR, fld_asWord, ext_cat_hi, ext_cat_lo, ext_self, accept_true, wf]

theorem Sys2Proof.Laws.RoundTrip.or (d : Reg) (a : Reg) (b : Reg) : Statement (.or d a b) := by
  intro w wf h
  cases Option.some.inj h
  rw [decode_major00 _ (by simp [encR, fld_asWord, ext_cat_hi, ext_cat_lo, ext_self])]
  simp [decMajor00, decR3, encR, fld_asWord, ext_cat_hi, ext_cat_lo, ext_self, accept_true, wf]

theorem Sys2Proof.Laws.RoundTrip.xor (d : Reg) (a : Reg) (b : Reg) : Statement (.xor d a b) := by
  intro w wf h
  cases Option.some.inj h
  rw [decode_major00 _ (by simp [encR, fld_asWord, ext_cat_hi, ext_cat_lo, ext_self])]
  simp [decMajor00, decR3, encR, fld_asWord, ext_cat_hi, ext_cat_lo, ext_self, accept_true, wf]

theorem Sys2Proof.Laws.RoundTrip.andn (d : Reg) (a : Reg) (b : Reg) : Statement (.andn d a b) := by
  intro w wf h
  cases Option.some.inj h
  rw [decode_major00 _ (by simp [encR, fld_asWord, ext_cat_hi, ext_cat_lo, ext_self])]
  simp [decMajor00, decR3, encR, fld_asWord, ext_cat_hi, ext_cat_lo, ext_self, accept_true, wf]

theorem Sys2Proof.Laws.RoundTrip.min (d : Reg) (a : Reg) (b : Reg) : Statement (.min d a b) := by
  intro w wf h
  cases Option.some.inj h
  rw [decode_major00 _ (by simp [encR, fld_asWord, ext_cat_hi, ext_cat_lo, ext_self])]
  simp [decMajor00, decR3, encR, fld_asWord, ext_cat_hi, ext_cat_lo, ext_self, accept_true, wf]

theorem Sys2Proof.Laws.RoundTrip.max (d : Reg) (a : Reg) (b : Reg) : Statement (.max d a b) := by
  intro w wf h
  cases Option.some.inj h
  rw [decode_major00 _ (by simp [encR, fld_asWord, ext_cat_hi, ext_cat_lo, ext_self])]
  simp [decMajor00, decR3, encR, fld_asWord, ext_cat_hi, ext_cat_lo, ext_self, accept_true, wf]

theorem Sys2Proof.Laws.RoundTrip.minu (d : Reg) (a : Reg) (b : Reg) : Statement (.minu d a b) := by
  intro w wf h
  cases Option.some.inj h
  rw [decode_major00 _ (by simp [encR, fld_asWord, ext_cat_hi, ext_cat_lo, ext_self])]
  simp [decMajor00, decR3, encR, fld_asWord, ext_cat_hi, ext_cat_lo, ext_self, accept_true, wf]

theorem Sys2Proof.Laws.RoundTrip.maxu (d : Reg) (a : Reg) (b : Reg) : Statement (.maxu d a b) := by
  intro w wf h
  cases Option.some.inj h
  rw [decode_major00 _ (by simp [encR, fld_asWord, ext_cat_hi, ext_cat_lo, ext_self])]
  simp [decMajor00, decR3, encR, fld_asWord, ext_cat_hi, ext_cat_lo, ext_self, accept_true, wf]

theorem Sys2Proof.Laws.RoundTrip.shl (d : Reg) (a : Reg) (b : Reg) : Statement (.shl d a b) := by
  intro w wf h
  cases Option.some.inj h
  rw [decode_major01 _ (by simp [encR, fld_asWord, ext_cat_hi, ext_cat_lo, ext_self])]
  simp [decMajor01, decR3, encR, fld_asWord, ext_cat_hi, ext_cat_lo, ext_self, accept_true, wf]

theorem Sys2Proof.Laws.RoundTrip.shr (d : Reg) (a : Reg) (b : Reg) : Statement (.shr d a b) := by
  intro w wf h
  cases Option.some.inj h
  rw [decode_major01 _ (by simp [encR, fld_asWord, ext_cat_hi, ext_cat_lo, ext_self])]
  simp [decMajor01, decR3, encR, fld_asWord, ext_cat_hi, ext_cat_lo, ext_self, accept_true, wf]

theorem Sys2Proof.Laws.RoundTrip.sra (d : Reg) (a : Reg) (b : Reg) : Statement (.sra d a b) := by
  intro w wf h
  cases Option.some.inj h
  rw [decode_major01 _ (by simp [encR, fld_asWord, ext_cat_hi, ext_cat_lo, ext_self])]
  simp [decMajor01, decR3, encR, fld_asWord, ext_cat_hi, ext_cat_lo, ext_self, accept_true, wf]

theorem Sys2Proof.Laws.RoundTrip.rol (d : Reg) (a : Reg) (b : Reg) : Statement (.rol d a b) := by
  intro w wf h
  cases Option.some.inj h
  rw [decode_major01 _ (by simp [encR, fld_asWord, ext_cat_hi, ext_cat_lo, ext_self])]
  simp [decMajor01, decR3, encR, fld_asWord, ext_cat_hi, ext_cat_lo, ext_self, accept_true, wf]

theorem Sys2Proof.Laws.RoundTrip.ror (d : Reg) (a : Reg) (b : Reg) : Statement (.ror d a b) := by
  intro w wf h
  cases Option.some.inj h
  rw [decode_major01 _ (by simp [encR, fld_asWord, ext_cat_hi, ext_cat_lo, ext_self])]
  simp [decMajor01, decR3, encR, fld_asWord, ext_cat_hi, ext_cat_lo, ext_self, accept_true, wf]

theorem Sys2Proof.Laws.RoundTrip.mul (d : Reg) (a : Reg) (b : Reg) : Statement (.mul d a b) := by
  intro w wf h
  cases Option.some.inj h
  rw [decode_major02 _ (by simp [encR, fld_asWord, ext_cat_hi, ext_cat_lo, ext_self])]
  simp [decMajor02, decR3, encR, fld_asWord, ext_cat_hi, ext_cat_lo, ext_self, accept_true, wf]

theorem Sys2Proof.Laws.RoundTrip.mulh (d : Reg) (a : Reg) (b : Reg) : Statement (.mulh d a b) := by
  intro w wf h
  cases Option.some.inj h
  rw [decode_major02 _ (by simp [encR, fld_asWord, ext_cat_hi, ext_cat_lo, ext_self])]
  simp [decMajor02, decR3, encR, fld_asWord, ext_cat_hi, ext_cat_lo, ext_self, accept_true, wf]

theorem Sys2Proof.Laws.RoundTrip.mulhu (d : Reg) (a : Reg) (b : Reg) : Statement (.mulhu d a b) := by
  intro w wf h
  cases Option.some.inj h
  rw [decode_major02 _ (by simp [encR, fld_asWord, ext_cat_hi, ext_cat_lo, ext_self])]
  simp [decMajor02, decR3, encR, fld_asWord, ext_cat_hi, ext_cat_lo, ext_self, accept_true, wf]

theorem Sys2Proof.Laws.RoundTrip.div (d : Reg) (a : Reg) (b : Reg) : Statement (.div d a b) := by
  intro w wf h
  cases Option.some.inj h
  rw [decode_major02 _ (by simp [encR, fld_asWord, ext_cat_hi, ext_cat_lo, ext_self])]
  simp [decMajor02, decR3, encR, fld_asWord, ext_cat_hi, ext_cat_lo, ext_self, accept_true, wf]

theorem Sys2Proof.Laws.RoundTrip.divu (d : Reg) (a : Reg) (b : Reg) : Statement (.divu d a b) := by
  intro w wf h
  cases Option.some.inj h
  rw [decode_major02 _ (by simp [encR, fld_asWord, ext_cat_hi, ext_cat_lo, ext_self])]
  simp [decMajor02, decR3, encR, fld_asWord, ext_cat_hi, ext_cat_lo, ext_self, accept_true, wf]

theorem Sys2Proof.Laws.RoundTrip.rem (d : Reg) (a : Reg) (b : Reg) : Statement (.rem d a b) := by
  intro w wf h
  cases Option.some.inj h
  rw [decode_major02 _ (by simp [encR, fld_asWord, ext_cat_hi, ext_cat_lo, ext_self])]
  simp [decMajor02, decR3, encR, fld_asWord, ext_cat_hi, ext_cat_lo, ext_self, accept_true, wf]

theorem Sys2Proof.Laws.RoundTrip.remu (d : Reg) (a : Reg) (b : Reg) : Statement (.remu d a b) := by
  intro w wf h
  cases Option.some.inj h
  rw [decode_major02 _ (by simp [encR, fld_asWord, ext_cat_hi, ext_cat_lo, ext_self])]
  simp [decMajor02, decR3, encR, fld_asWord, ext_cat_hi, ext_cat_lo, ext_self, accept_true, wf]

theorem Sys2Proof.Laws.RoundTrip.clz (d : Reg) (a : Reg) : Statement (.clz d a) := by
  intro w wf h
  cases Option.some.inj h
  rw [decode_major03 _ (by simp [encR, fld_asWord, ext_cat_hi, ext_cat_lo, ext_self])]
  simp [decMajor03, decR3, decR2, encR, fld_asWord, ext_cat_hi, ext_cat_lo, ext_self, accept_true, wf]

theorem Sys2Proof.Laws.RoundTrip.ctz (d : Reg) (a : Reg) : Statement (.ctz d a) := by
  intro w wf h
  cases Option.some.inj h
  rw [decode_major03 _ (by simp [encR, fld_asWord, ext_cat_hi, ext_cat_lo, ext_self])]
  simp [decMajor03, decR3, decR2, encR, fld_asWord, ext_cat_hi, ext_cat_lo, ext_self, accept_true, wf]

theorem Sys2Proof.Laws.RoundTrip.popc (d : Reg) (a : Reg) : Statement (.popc d a) := by
  intro w wf h
  cases Option.some.inj h
  rw [decode_major03 _ (by simp [encR, fld_asWord, ext_cat_hi, ext_cat_lo, ext_self])]
  simp [decMajor03, decR3, decR2, encR, fld_asWord, ext_cat_hi, ext_cat_lo, ext_self, accept_true, wf]

theorem Sys2Proof.Laws.RoundTrip.bext (d : Reg) (a : Reg) (b : Reg) : Statement (.bext d a b) := by
  intro w wf h
  cases Option.some.inj h
  rw [decode_major03 _ (by simp [encR, fld_asWord, ext_cat_hi, ext_cat_lo, ext_self])]
  simp [decMajor03, decR3, decR2, encR, fld_asWord, ext_cat_hi, ext_cat_lo, ext_self, accept_true, wf]

theorem Sys2Proof.Laws.RoundTrip.bins (d : Reg) (a : Reg) (b : Reg) : Statement (.bins d a b) := by
  intro w wf h
  cases Option.some.inj h
  rw [decode_major03 _ (by simp [encR, fld_asWord, ext_cat_hi, ext_cat_lo, ext_self])]
  simp [decMajor03, decR3, decR2, encR, fld_asWord, ext_cat_hi, ext_cat_lo, ext_self, accept_true, wf]

theorem Sys2Proof.Laws.RoundTrip.sxtB (d : Reg) (a : Reg) : Statement (.sxtB d a) := by
  intro w wf h
  cases Option.some.inj h
  rw [decode_major03 _ (by simp [encR, fld_asWord, ext_cat_hi, ext_cat_lo, ext_self])]
  simp [decMajor03, decR3, decR2, encR, fld_asWord, ext_cat_hi, ext_cat_lo, ext_self, accept_true, wf]

theorem Sys2Proof.Laws.RoundTrip.sxtH (d : Reg) (a : Reg) : Statement (.sxtH d a) := by
  intro w wf h
  cases Option.some.inj h
  rw [decode_major03 _ (by simp [encR, fld_asWord, ext_cat_hi, ext_cat_lo, ext_self])]
  simp [decMajor03, decR3, decR2, encR, fld_asWord, ext_cat_hi, ext_cat_lo, ext_self, accept_true, wf]

theorem Sys2Proof.Laws.RoundTrip.sxtW (d : Reg) (a : Reg) : Statement (.sxtW d a) := by
  intro w wf h
  cases Option.some.inj h
  rw [decode_major03 _ (by simp [encR, fld_asWord, ext_cat_hi, ext_cat_lo, ext_self])]
  simp [decMajor03, decR3, decR2, encR, fld_asWord, ext_cat_hi, ext_cat_lo, ext_self, accept_true, wf]

theorem Sys2Proof.Laws.RoundTrip.cmp (p : PReg) (c : Cond) (a : Reg) (b : Reg) : Statement (.cmp p c a b) := by
  intro w wf h
  cases Option.some.inj h
  rw [decode_major04 _ (by simp [fld_asWord, ext_cat_hi, ext_cat_lo, ext_self])]
  simp [decMajor04, decCond_enc, fld_asWord, ext_cat_hi, ext_cat_lo, ext_self, accept_true, wf]

theorem Sys2Proof.Laws.RoundTrip.addi (d : Reg) (a : Reg) (imm : BitVec 16) : Statement (.addi d a imm) := by
  intro w wf h
  cases Option.some.inj h
  rw [decode_major05 _ (by simp [fld_asWord, ext_cat_hi, ext_cat_lo, ext_self])]
  simp [fld_asWord, ext_cat_hi, ext_cat_lo, ext_self, accept_true, wf]

theorem Sys2Proof.Laws.RoundTrip.andi (d : Reg) (a : Reg) (imm : BitVec 16) : Statement (.andi d a imm) := by
  intro w wf h
  cases Option.some.inj h
  rw [decode_major06 _ (by simp [fld_asWord, ext_cat_hi, ext_cat_lo, ext_self])]
  simp [fld_asWord, ext_cat_hi, ext_cat_lo, ext_self, accept_true, wf]

theorem Sys2Proof.Laws.RoundTrip.ori (d : Reg) (a : Reg) (imm : BitVec 16) : Statement (.ori d a imm) := by
  intro w wf h
  cases Option.some.inj h
  rw [decode_major07 _ (by simp [fld_asWord, ext_cat_hi, ext_cat_lo, ext_self])]
  simp [fld_asWord, ext_cat_hi, ext_cat_lo, ext_self, accept_true, wf]

theorem Sys2Proof.Laws.RoundTrip.xori (d : Reg) (a : Reg) (imm : BitVec 16) : Statement (.xori d a imm) := by
  intro w wf h
  cases Option.some.inj h
  rw [decode_major08 _ (by simp [fld_asWord, ext_cat_hi, ext_cat_lo, ext_self])]
  simp [fld_asWord, ext_cat_hi, ext_cat_lo, ext_self, accept_true, wf]

theorem Sys2Proof.Laws.RoundTrip.shli (d : Reg) (a : Reg) (k : BitVec 6) : Statement (.shli d a k) := by
  intro w wf h
  cases Option.some.inj h
  rw [decode_major09 _ (by simp [fld_asWord, ext_cat_hi, ext_cat_lo, ext_self])]
  simp [decMajor09, fld_asWord, ext_cat_hi, ext_cat_lo, ext_self, accept_true, wf]

theorem Sys2Proof.Laws.RoundTrip.shri (d : Reg) (a : Reg) (k : BitVec 6) : Statement (.shri d a k) := by
  intro w wf h
  cases Option.some.inj h
  rw [decode_major09 _ (by simp [fld_asWord, ext_cat_hi, ext_cat_lo, ext_self])]
  simp [decMajor09, fld_asWord, ext_cat_hi, ext_cat_lo, ext_self, accept_true, wf]

theorem Sys2Proof.Laws.RoundTrip.srai (d : Reg) (a : Reg) (k : BitVec 6) : Statement (.srai d a k) := by
  intro w wf h
  cases Option.some.inj h
  rw [decode_major09 _ (by simp [fld_asWord, ext_cat_hi, ext_cat_lo, ext_self])]
  simp [decMajor09, fld_asWord, ext_cat_hi, ext_cat_lo, ext_self, accept_true, wf]

theorem Sys2Proof.Laws.RoundTrip.cmpi (p : PReg) (c : Cond) (a : Reg) (imm : BitVec 13) : Statement (.cmpi p c a imm) := by
  intro w wf h
  cases Option.some.inj h
  rw [decode_major0A _ (by simp [fld_asWord, ext_cat_hi, ext_cat_lo, ext_self])]
  simp [decMajor0A, decCond_enc, fld_asWord, ext_cat_hi, ext_cat_lo, ext_self, accept_true, wf]

theorem Sys2Proof.Laws.RoundTrip.movk (d : Reg) (k : BitVec 2) (imm : BitVec 16) : Statement (.movk d k imm) := by
  intro w wf h
  cases Option.some.inj h
  rw [decode_major0B _ (by simp [fld_asWord, ext_cat_hi, ext_cat_lo, ext_self])]
  simp [decMajor0B, fld_asWord, ext_cat_hi, ext_cat_lo, ext_self, accept_true, wf]

theorem Sys2Proof.Laws.RoundTrip.fadd (d : Reg) (a : Reg) (b : Reg) : Statement (.fadd d a b) := by
  intro w wf h
  cases Option.some.inj h
  rw [decode_major0C _ (by simp [encR, fld_asWord, ext_cat_hi, ext_cat_lo, ext_self])]
  simp [decMajor0C, decR3, decR2, encR, fld_asWord, ext_cat_hi, ext_cat_lo, ext_self, accept_true, wf]

theorem Sys2Proof.Laws.RoundTrip.fsub (d : Reg) (a : Reg) (b : Reg) : Statement (.fsub d a b) := by
  intro w wf h
  cases Option.some.inj h
  rw [decode_major0C _ (by simp [encR, fld_asWord, ext_cat_hi, ext_cat_lo, ext_self])]
  simp [decMajor0C, decR3, decR2, encR, fld_asWord, ext_cat_hi, ext_cat_lo, ext_self, accept_true, wf]

theorem Sys2Proof.Laws.RoundTrip.fmul (d : Reg) (a : Reg) (b : Reg) : Statement (.fmul d a b) := by
  intro w wf h
  cases Option.some.inj h
  rw [decode_major0C _ (by simp [encR, fld_asWord, ext_cat_hi, ext_cat_lo, ext_self])]
  simp [decMajor0C, decR3, decR2, encR, fld_asWord, ext_cat_hi, ext_cat_lo, ext_self, accept_true, wf]

theorem Sys2Proof.Laws.RoundTrip.fdiv (d : Reg) (a : Reg) (b : Reg) : Statement (.fdiv d a b) := by
  intro w wf h
  cases Option.some.inj h
  rw [decode_major0C _ (by simp [encR, fld_asWord, ext_cat_hi, ext_cat_lo, ext_self])]
  simp [decMajor0C, decR3, decR2, encR, fld_asWord, ext_cat_hi, ext_cat_lo, ext_self, accept_true, wf]

theorem Sys2Proof.Laws.RoundTrip.fsqrt (d : Reg) (a : Reg) : Statement (.fsqrt d a) := by
  intro w wf h
  cases Option.some.inj h
  rw [decode_major0C _ (by simp [encR, fld_asWord, ext_cat_hi, ext_cat_lo, ext_self])]
  simp [decMajor0C, decR3, decR2, encR, fld_asWord, ext_cat_hi, ext_cat_lo, ext_self, accept_true, wf]

theorem Sys2Proof.Laws.RoundTrip.fmin (d : Reg) (a : Reg) (b : Reg) : Statement (.fmin d a b) := by
  intro w wf h
  cases Option.some.inj h
  rw [decode_major0C _ (by simp [encR, fld_asWord, ext_cat_hi, ext_cat_lo, ext_self])]
  simp [decMajor0C, decR3, decR2, encR, fld_asWord, ext_cat_hi, ext_cat_lo, ext_self, accept_true, wf]

theorem Sys2Proof.Laws.RoundTrip.fmax (d : Reg) (a : Reg) (b : Reg) : Statement (.fmax d a b) := by
  intro w wf h
  cases Option.some.inj h
  rw [decode_major0C _ (by simp [encR, fld_asWord, ext_cat_hi, ext_cat_lo, ext_self])]
  simp [decMajor0C, decR3, decR2, encR, fld_asWord, ext_cat_hi, ext_cat_lo, ext_self, accept_true, wf]

theorem Sys2Proof.Laws.RoundTrip.fma (d : Reg) (a : Reg) (b : Reg) : Statement (.fma d a b) := by
  intro w wf h
  cases Option.some.inj h
  rw [decode_major0D _ (by simp [encR, fld_asWord, ext_cat_hi, ext_cat_lo, ext_self])]
  simp [decMajor0D, decR3, encR, fld_asWord, ext_cat_hi, ext_cat_lo, ext_self, accept_true, wf]

theorem Sys2Proof.Laws.RoundTrip.fms (d : Reg) (a : Reg) (b : Reg) : Statement (.fms d a b) := by
  intro w wf h
  cases Option.some.inj h
  rw [decode_major0D _ (by simp [encR, fld_asWord, ext_cat_hi, ext_cat_lo, ext_self])]
  simp [decMajor0D, decR3, encR, fld_asWord, ext_cat_hi, ext_cat_lo, ext_self, accept_true, wf]

theorem Sys2Proof.Laws.RoundTrip.fnma (d : Reg) (a : Reg) (b : Reg) : Statement (.fnma d a b) := by
  intro w wf h
  cases Option.some.inj h
  rw [decode_major0D _ (by simp [encR, fld_asWord, ext_cat_hi, ext_cat_lo, ext_self])]
  simp [decMajor0D, decR3, encR, fld_asWord, ext_cat_hi, ext_cat_lo, ext_self, accept_true, wf]

theorem Sys2Proof.Laws.RoundTrip.fcmp (p : PReg) (c : FCond) (a : Reg) (b : Reg) : Statement (.fcmp p c a b) := by
  intro w wf h
  cases Option.some.inj h
  rw [decode_major0E _ (by simp [fld_asWord, ext_cat_hi, ext_cat_lo, ext_self])]
  simp [decMajor0E, decR2, decFCond_enc, fld_asWord, ext_cat_hi, ext_cat_lo, ext_self, accept_true, wf]
  exact fun hh => absurd hh (by cases c <;> decide)

theorem Sys2Proof.Laws.RoundTrip.fclass (d : Reg) (a : Reg) : Statement (.fclass d a) := by
  intro w wf h
  cases Option.some.inj h
  rw [decode_major0E _ (by simp [encR, fld_asWord, ext_cat_hi, ext_cat_lo, ext_self])]
  simp [decMajor0E, decR2, encR, fld_asWord, ext_cat_hi, ext_cat_lo, ext_self, accept_true, wf]

theorem Sys2Proof.Laws.RoundTrip.fcvt (d : Reg) (a : Reg) (dst : Fmt) (src : Fmt) : Statement (.fcvt d a dst src) := by
  intro w wf h
  cases Option.some.inj h
  rw [decode_major0F _ (by simp [fld_asWord, ext_cat_hi, ext_cat_lo, ext_self])]
  simp [decMajor0F, decFmt_enc, fld_asWord, ext_cat_hi, ext_cat_lo, ext_self, accept_true, wf]
  have z : (cat 0#5 (cat 0#3 (cat (encFmt dst) (encFmt src)))).extractLsb' 8 8 = 0#8 := by cases dst <;> cases src <;> rfl
  rw [z]
  exact accept_of wf

theorem Sys2Proof.Laws.RoundTrip.bra (neg : Bool) (p : PReg) (off : BitVec 21) : Statement (.bra neg p off) := by
  intro w wf h
  cases Option.some.inj h
  rw [decode_major10 _ (by simp [fld_asWord, ext_cat_hi, ext_cat_lo, ext_self])]
  simp [bit1_eq, fld_asWord, ext_cat_hi, ext_cat_lo, ext_self, accept_true, wf]

theorem Sys2Proof.Laws.RoundTrip.call (l : Reg) (off : BitVec 21) : Statement (.call l off) := by
  intro w wf h
  cases Option.some.inj h
  rw [decode_major11 _ (by simp [fld_asWord, ext_cat_hi, ext_cat_lo, ext_self])]
  simp [fld_asWord, ext_cat_hi, ext_cat_lo, ext_self, accept_true, wf]

theorem Sys2Proof.Laws.RoundTrip.loop (c : Reg) (off : BitVec 21) : Statement (.loop c off) := by
  intro w wf h
  cases Option.some.inj h
  rw [decode_major12 _ (by simp [fld_asWord, ext_cat_hi, ext_cat_lo, ext_self])]
  simp [decMajor12, fld_asWord, ext_cat_hi, ext_cat_lo, ext_self, accept_true, wf]
  exact accept_of wf

theorem Sys2Proof.Laws.RoundTrip.jmpr (a : Reg) : Statement (.jmpr a) := by
  intro w wf h
  cases Option.some.inj h
  rw [decode_major13 _ (by simp [encR, fld_asWord, ext_cat_hi, ext_cat_lo, ext_self])]
  simp [decMajor13, decR2, decP3, encR, fld_asWord, ext_cat_hi, ext_cat_lo, ext_self, accept_true, wf]

theorem Sys2Proof.Laws.RoundTrip.callr (d : Reg) (a : Reg) : Statement (.callr d a) := by
  intro w wf h
  cases Option.some.inj h
  rw [decode_major13 _ (by simp [encR, fld_asWord, ext_cat_hi, ext_cat_lo, ext_self])]
  simp [decMajor13, decR2, decP3, encR, fld_asWord, ext_cat_hi, ext_cat_lo, ext_self, accept_true, wf]

theorem Sys2Proof.Laws.RoundTrip.pand (d : PReg) (a : PReg) (b : PReg) : Statement (.pand d a b) := by
  intro w wf h
  cases Option.some.inj h
  rw [decode_major13 _ (by simp [fld_asWord, ext_cat_hi, ext_cat_lo, ext_self])]
  simp [decMajor13, decR2, decP3, fld_asWord, ext_cat_hi, ext_cat_lo, ext_self, accept_true, wf]

theorem Sys2Proof.Laws.RoundTrip.por (d : PReg) (a : PReg) (b : PReg) : Statement (.por d a b) := by
  intro w wf h
  cases Option.some.inj h
  rw [decode_major13 _ (by simp [fld_asWord, ext_cat_hi, ext_cat_lo, ext_self])]
  simp [decMajor13, decR2, decP3, fld_asWord, ext_cat_hi, ext_cat_lo, ext_self, accept_true, wf]

theorem Sys2Proof.Laws.RoundTrip.pxor (d : PReg) (a : PReg) (b : PReg) : Statement (.pxor d a b) := by
  intro w wf h
  cases Option.some.inj h
  rw [decode_major13 _ (by simp [fld_asWord, ext_cat_hi, ext_cat_lo, ext_self])]
  simp [decMajor13, decR2, decP3, fld_asWord, ext_cat_hi, ext_cat_lo, ext_self, accept_true, wf]

theorem Sys2Proof.Laws.RoundTrip.pnot (d : PReg) (a : PReg) : Statement (.pnot d a) := by
  intro w wf h
  cases Option.some.inj h
  rw [decode_major13 _ (by simp [fld_asWord, ext_cat_hi, ext_cat_lo, ext_self])]
  simp [decMajor13, decR2, decP3, fld_asWord, ext_cat_hi, ext_cat_lo, ext_self, accept_true, wf]

theorem Sys2Proof.Laws.RoundTrip.pmovFromScalar (d : PReg) (a : Reg) : Statement (.pmovFromScalar d a) := by
  intro w wf h
  cases Option.some.inj h
  rw [decode_major13 _ (by simp [fld_asWord, ext_cat_hi, ext_cat_lo, ext_self])]
  simp [decMajor13, decR2, decP3, fld_asWord, ext_cat_hi, ext_cat_lo, ext_self, accept_true, wf]

theorem Sys2Proof.Laws.RoundTrip.pmovToScalar (d : Reg) (a : PReg) : Statement (.pmovToScalar d a) := by
  intro w wf h
  cases Option.some.inj h
  rw [decode_major13 _ (by simp [fld_asWord, ext_cat_hi, ext_cat_lo, ext_self])]
  simp [decMajor13, decR2, decP3, fld_asWord, ext_cat_hi, ext_cat_lo, ext_self, accept_true, wf]

theorem Sys2Proof.Laws.RoundTrip.vadd (lt : LaneType) (g : PReg) (d : VReg) (a : VReg) (b : VReg) : Statement (.vadd lt g d a b) := by
  intro w wf h
  cases Option.some.inj h
  rw [decode_major14 _ (by simp [encV, fld_asWord, ext_cat_hi, ext_cat_lo, ext_self])]
  simp [decMajor14, decV3, decV2, encV, fld_asWord, ext_cat_hi, ext_cat_lo, ext_self, accept_true, wf, decLane_enc]

theorem Sys2Proof.Laws.RoundTrip.vsub (lt : LaneType) (g : PReg) (d : VReg) (a : VReg) (b : VReg) : Statement (.vsub lt g d a b) := by
  intro w wf h
  cases Option.some.inj h
  rw [decode_major14 _ (by simp [encV, fld_asWord, ext_cat_hi, ext_cat_lo, ext_self])]
  simp [decMajor14, decV3, decV2, encV, fld_asWord, ext_cat_hi, ext_cat_lo, ext_self, accept_true, wf, decLane_enc]

theorem Sys2Proof.Laws.RoundTrip.vmul (lt : LaneType) (g : PReg) (d : VReg) (a : VReg) (b : VReg) : Statement (.vmul lt g d a b) := by
  intro w wf h
  cases Option.some.inj h
  rw [decode_major14 _ (by simp [encV, fld_asWord, ext_cat_hi, ext_cat_lo, ext_self])]
  simp [decMajor14, decV3, decV2, encV, fld_asWord, ext_cat_hi, ext_cat_lo, ext_self, accept_true, wf, decLane_enc]

theorem Sys2Proof.Laws.RoundTrip.vmin (lt : LaneType) (g : PReg) (d : VReg) (a : VReg) (b : VReg) : Statement (.vmin lt g d a b) := by
  intro w wf h
  cases Option.some.inj h
  rw [decode_major14 _ (by simp [encV, fld_asWord, ext_cat_hi, ext_cat_lo, ext_self])]
  simp [decMajor14, decV3, decV2, encV, fld_asWord, ext_cat_hi, ext_cat_lo, ext_self, accept_true, wf, decLane_enc]

theorem Sys2Proof.Laws.RoundTrip.vmax (lt : LaneType) (g : PReg) (d : VReg) (a : VReg) (b : VReg) : Statement (.vmax lt g d a b) := by
  intro w wf h
  cases Option.some.inj h
  rw [decode_major14 _ (by simp [encV, fld_asWord, ext_cat_hi, ext_cat_lo, ext_self])]
  simp [decMajor14, decV3, decV2, encV, fld_asWord, ext_cat_hi, ext_cat_lo, ext_self, accept_true, wf, decLane_enc]

theorem Sys2Proof.Laws.RoundTrip.vabs (lt : LaneType) (g : PReg) (d : VReg) (a : VReg) : Statement (.vabs lt g d a) := by
  intro w wf h
  cases Option.some.inj h
  rw [decode_major14 _ (by simp [encV, fld_asWord, ext_cat_hi, ext_cat_lo, ext_self])]
  simp [decMajor14, decV3, decV2, encV, fld_asWord, ext_cat_hi, ext_cat_lo, ext_self, accept_true, wf, decLane_enc]

theorem Sys2Proof.Laws.RoundTrip.vadds (lt : LaneType) (g : PReg) (d : VReg) (a : VReg) (b : VReg) : Statement (.vadds lt g d a b) := by
  intro w wf h
  cases Option.some.inj h
  rw [decode_major14 _ (by simp [encV, fld_asWord, ext_cat_hi, ext_cat_lo, ext_self])]
  simp [decMajor14, decV3, decV2, encV, fld_asWord, ext_cat_hi, ext_cat_lo, ext_self, accept_true, wf, decLane_enc]

theorem Sys2Proof.Laws.RoundTrip.vsubs (lt : LaneType) (g : PReg) (d : VReg) (a : VReg) (b : VReg) : Statement (.vsubs lt g d a b) := by
  intro w wf h
  cases Option.some.inj h
  rw [decode_major14 _ (by simp [encV, fld_asWord, ext_cat_hi, ext_cat_lo, ext_self])]
  simp [decMajor14, decV3, decV2, encV, fld_asWord, ext_cat_hi, ext_cat_lo, ext_self, accept_true, wf, decLane_enc]

theorem Sys2Proof.Laws.RoundTrip.vfadd (lt : LaneType) (g : PReg) (d : VReg) (a : VReg) (b : VReg) : Statement (.vfadd lt g d a b) := by
  intro w wf h
  cases Option.some.inj h
  rw [decode_major15 _ (by simp [encV, fld_asWord, ext_cat_hi, ext_cat_lo, ext_self])]
  simp [decMajor15, decV3, encV, fld_asWord, ext_cat_hi, ext_cat_lo, ext_self, accept_true, wf, decLane_enc]

theorem Sys2Proof.Laws.RoundTrip.vfsub (lt : LaneType) (g : PReg) (d : VReg) (a : VReg) (b : VReg) : Statement (.vfsub lt g d a b) := by
  intro w wf h
  cases Option.some.inj h
  rw [decode_major15 _ (by simp [encV, fld_asWord, ext_cat_hi, ext_cat_lo, ext_self])]
  simp [decMajor15, decV3, encV, fld_asWord, ext_cat_hi, ext_cat_lo, ext_self, accept_true, wf, decLane_enc]

theorem Sys2Proof.Laws.RoundTrip.vfmul (lt : LaneType) (g : PReg) (d : VReg) (a : VReg) (b : VReg) : Statement (.vfmul lt g d a b) := by
  intro w wf h
  cases Option.some.inj h
  rw [decode_major15 _ (by simp [encV, fld_asWord, ext_cat_hi, ext_cat_lo, ext_self])]
  simp [decMajor15, decV3, encV, fld_asWord, ext_cat_hi, ext_cat_lo, ext_self, accept_true, wf, decLane_enc]

theorem Sys2Proof.Laws.RoundTrip.vfdiv (lt : LaneType) (g : PReg) (d : VReg) (a : VReg) (b : VReg) : Statement (.vfdiv lt g d a b) := by
  intro w wf h
  cases Option.some.inj h
  rw [decode_major15 _ (by simp [encV, fld_asWord, ext_cat_hi, ext_cat_lo, ext_self])]
  simp [decMajor15, decV3, encV, fld_asWord, ext_cat_hi, ext_cat_lo, ext_self, accept_true, wf, decLane_enc]

theorem Sys2Proof.Laws.RoundTrip.vfmin (lt : LaneType) (g : PReg) (d : VReg) (a : VReg) (b : VReg) : Statement (.vfmin lt g d a b) := by
  intro w wf h
  cases Option.some.inj h
  rw [decode_major15 _ (by simp [encV, fld_asWord, ext_cat_hi, ext_cat_lo, ext_self])]
  simp [decMajor15, decV3, encV, fld_asWord, ext_cat_hi, ext_cat_lo, ext_self, accept_true, wf, decLane_enc]

theorem Sys2Proof.Laws.RoundTrip.vfmax (lt : LaneType) (g : PReg) (d : VReg) (a : VReg) (b : VReg) : Statement (.vfmax lt g d a b) := by
  intro w wf h
  cases Option.some.inj h
  rw [decode_major15 _ (by simp [encV, fld_asWord, ext_cat_hi, ext_cat_lo, ext_self])]
  simp [decMajor15, decV3, encV, fld_asWord, ext_cat_hi, ext_cat_lo, ext_self, accept_true, wf, decLane_enc]

theorem Sys2Proof.Laws.RoundTrip.vfma (lt : LaneType) (g : PReg) (d : VReg) (a : VReg) (b : VReg) : Statement (.vfma lt g d a b) := by
  intro w wf h
  cases Option.some.inj h
  rw [decode_major16 _ (by simp [encV, fld_asWord, ext_cat_hi, ext_cat_lo, ext_self])]
  simp [decMajor16, decV3, encV, fld_asWord, ext_cat_hi, ext_cat_lo, ext_self, accept_true, wf, decLane_enc]

theorem Sys2Proof.Laws.RoundTrip.vfms (lt : LaneType) (g : PReg) (d : VReg) (a : VReg) (b : VReg) : Statement (.vfms lt g d a b) := by
  intro w wf h
  cases Option.some.inj h
  rw [decode_major16 _ (by simp [encV, fld_asWord, ext_cat_hi, ext_cat_lo, ext_self])]
  simp [decMajor16, decV3, encV, fld_asWord, ext_cat_hi, ext_cat_lo, ext_self, accept_true, wf, decLane_enc]

theorem Sys2Proof.Laws.RoundTrip.vcmp (lt : LaneType) (g : PReg) (p : PReg) (all : Bool) (c : Cond) (a : VReg) (b : VReg) : Statement (.vcmp lt g p all c a b) := by
  intro w wf h
  cases Option.some.inj h
  rw [decode_major17 _ (by simp [fld_asWord, ext_cat_hi, ext_cat_lo, ext_self])]
  simp [decMajor17, decLane_enc, decCond_enc, bit1_eq, fld_asWord, ext_cat_hi, ext_cat_lo, ext_self, accept_true, wf]
  exact accept_of wf

theorem Sys2Proof.Laws.RoundTrip.vfcmp (lt : LaneType) (g : PReg) (p : PReg) (all : Bool) (c : FCond) (a : VReg) (b : VReg) : Statement (.vfcmp lt g p all c a b) := by
  intro w wf h
  cases Option.some.inj h
  rw [decode_major17 _ (by simp [fld_asWord, ext_cat_hi, ext_cat_lo, ext_self])]
  simp [decMajor17, decLane_enc, decFCond_enc, bit1_eq, fld_asWord, ext_cat_hi, ext_cat_lo, ext_self, accept_true, wf]
  exact accept_of wf

theorem Sys2Proof.Laws.RoundTrip.vand (g : PReg) (d : VReg) (a : VReg) (b : VReg) : Statement (.vand g d a b) := by
  intro w wf h
  cases Option.some.inj h
  rw [decode_major18 _ (by simp [encV, fld_asWord, ext_cat_hi, ext_cat_lo, ext_self])]
  simp [decMajor18, decV3, decVBits, encV, fld_asWord, ext_cat_hi, ext_cat_lo, ext_self, accept_true, wf, decLane_enc]
  exact accept_of rfl

theorem Sys2Proof.Laws.RoundTrip.vor (g : PReg) (d : VReg) (a : VReg) (b : VReg) : Statement (.vor g d a b) := by
  intro w wf h
  cases Option.some.inj h
  rw [decode_major18 _ (by simp [encV, fld_asWord, ext_cat_hi, ext_cat_lo, ext_self])]
  simp [decMajor18, decV3, decVBits, encV, fld_asWord, ext_cat_hi, ext_cat_lo, ext_self, accept_true, wf, decLane_enc]
  exact accept_of rfl

theorem Sys2Proof.Laws.RoundTrip.vxor (g : PReg) (d : VReg) (a : VReg) (b : VReg) : Statement (.vxor g d a b) := by
  intro w wf h
  cases Option.some.inj h
  rw [decode_major18 _ (by simp [encV, fld_asWord, ext_cat_hi, ext_cat_lo, ext_self])]
  simp [decMajor18, decV3, decVBits, encV, fld_asWord, ext_cat_hi, ext_cat_lo, ext_self, accept_true, wf, decLane_enc]
  exact accept_of rfl

theorem Sys2Proof.Laws.RoundTrip.vshl (lt : LaneType) (g : PReg) (d : VReg) (a : VReg) (b : VReg) : Statement (.vshl lt g d a b) := by
  intro w wf h
  cases Option.some.inj h
  rw [decode_major18 _ (by simp [encV, fld_asWord, ext_cat_hi, ext_cat_lo, ext_self])]
  simp [decMajor18, decV3, decVBits, encV, fld_asWord, ext_cat_hi, ext_cat_lo, ext_self, accept_true, wf, decLane_enc]

theorem Sys2Proof.Laws.RoundTrip.vshr (lt : LaneType) (g : PReg) (d : VReg) (a : VReg) (b : VReg) : Statement (.vshr lt g d a b) := by
  intro w wf h
  cases Option.some.inj h
  rw [decode_major18 _ (by simp [encV, fld_asWord, ext_cat_hi, ext_cat_lo, ext_self])]
  simp [decMajor18, decV3, decVBits, encV, fld_asWord, ext_cat_hi, ext_cat_lo, ext_self, accept_true, wf, decLane_enc]

theorem Sys2Proof.Laws.RoundTrip.vsra (lt : LaneType) (g : PReg) (d : VReg) (a : VReg) (b : VReg) : Statement (.vsra lt g d a b) := by
  intro w wf h
  cases Option.some.inj h
  rw [decode_major18 _ (by simp [encV, fld_asWord, ext_cat_hi, ext_cat_lo, ext_self])]
  simp [decMajor18, decV3, decVBits, encV, fld_asWord, ext_cat_hi, ext_cat_lo, ext_self, accept_true, wf, decLane_enc]

theorem Sys2Proof.Laws.RoundTrip.vsel (g : PReg) (d : VReg) (a : VReg) (b : VReg) : Statement (.vsel g d a b) := by
  intro w wf h
  cases Option.some.inj h
  rw [decode_major18 _ (by simp [encV, fld_asWord, ext_cat_hi, ext_cat_lo, ext_self])]
  simp [decMajor18, decV3, decVBits, encV, fld_asWord, ext_cat_hi, ext_cat_lo, ext_self, accept_true, wf, decLane_enc]
  exact accept_of rfl

theorem Sys2Proof.Laws.RoundTrip.vbcast (lt : LaneType) (g : PReg) (d : VReg) (a : VReg) (l : BitVec 6) : Statement (.vbcast lt g d a l) := by
  intro w wf h
  cases Option.some.inj h
  rw [decode_major19 _ (by simp [fld_asWord, ext_cat_hi, ext_cat_lo, ext_self])]
  simp [decMajor19, decV3, decV2, decLane_enc, fld_asWord, ext_cat_hi, ext_cat_lo, ext_self, accept_true, wf]

theorem Sys2Proof.Laws.RoundTrip.vperm (lt : LaneType) (g : PReg) (d : VReg) (a : VReg) (b : VReg) : Statement (.vperm lt g d a b) := by
  intro w wf h
  cases Option.some.inj h
  rw [decode_major19 _ (by simp [fld_asWord, ext_cat_hi, ext_cat_lo, ext_self])]
  simp [decMajor19, decV3, decV2, decLane_enc, fld_asWord, ext_cat_hi, ext_cat_lo, ext_self, accept_true, wf]

theorem Sys2Proof.Laws.RoundTrip.vshuf (lt : LaneType) (g : PReg) (d : VReg) (a : VReg) (b : VReg) (k : ShufKind) : Statement (.vshuf lt g d a b k) := by
  intro w wf h
  cases Option.some.inj h
  rw [decode_major19 _ (by simp [fld_asWord, ext_cat_hi, ext_cat_lo, ext_self])]
  simp [decMajor19, decV3, decV2, decLane_enc, decShuf_enc, fld_asWord, ext_cat_hi, ext_cat_lo, ext_self, accept_true, wf]

theorem Sys2Proof.Laws.RoundTrip.vslide (lt : LaneType) (g : PReg) (d : VReg) (a : VReg) (b : VReg) (k : BitVec 6) : Statement (.vslide lt g d a b k) := by
  intro w wf h
  cases Option.some.inj h
  rw [decode_major19 _ (by simp [fld_asWord, ext_cat_hi, ext_cat_lo, ext_self])]
  simp [decMajor19, decV3, decV2, decLane_enc, fld_asWord, ext_cat_hi, ext_cat_lo, ext_self, accept_true, wf]

theorem Sys2Proof.Laws.RoundTrip.vred (lt : LaneType) (g : PReg) (d : VReg) (a : VReg) (op : RedOp) : Statement (.vred lt g d a op) := by
  intro w wf h
  cases Option.some.inj h
  rw [decode_major1A _ (by simp [encR, fld_asWord, ext_cat_hi, ext_cat_lo, ext_self])]
  simp [decMajor1A, decV2, decLane_enc, decRed_enc, encR, fld_asWord, ext_cat_hi, ext_cat_lo, ext_self, accept_true, wf]

theorem Sys2Proof.Laws.RoundTrip.vcvt (src : LaneType) (dst : LaneType) (g : PReg) (d : VReg) (a : VReg) (part : BitVec 2) : Statement (.vcvt src dst g d a part) := by
  intro w wf h
  cases Option.some.inj h
  rw [decode_major1B _ (by simp [fld_asWord, ext_cat_hi, ext_cat_lo, ext_self])]
  simp [decMajor1B, decV2, decLane_enc, fld_asWord, ext_cat_hi, ext_cat_lo, ext_self, accept_true, wf]

theorem Sys2Proof.Laws.RoundTrip.vlog2 (g : PReg) (d : VReg) (a : VReg) : Statement (.vlog2 g d a) := by
  intro w wf h
  cases Option.some.inj h
  rw [decode_major1C _ (by simp [encV, fld_asWord, ext_cat_hi, ext_cat_lo, ext_self])]
  simp [decMajor1C, encV, fld_asWord, ext_cat_hi, ext_cat_lo, ext_self, accept_true, wf, decLane_enc]
  exact accept_of rfl

theorem Sys2Proof.Laws.RoundTrip.vexp2 (g : PReg) (d : VReg) (a : VReg) : Statement (.vexp2 g d a) := by
  intro w wf h
  cases Option.some.inj h
  rw [decode_major1C _ (by simp [encV, fld_asWord, ext_cat_hi, ext_cat_lo, ext_self])]
  simp [decMajor1C, encV, fld_asWord, ext_cat_hi, ext_cat_lo, ext_self, accept_true, wf, decLane_enc]
  exact accept_of rfl

theorem Sys2Proof.Laws.RoundTrip.vmovs (lt : LaneType) (g : PReg) (d : VReg) (s : Reg) : Statement (.vmovs lt g d s) := by
  intro w wf h
  cases Option.some.inj h
  rw [decode_major1D _ (by simp [fld_asWord, ext_cat_hi, ext_cat_lo, ext_self])]
  simp [decMajor1D, decLane_enc, fld_asWord, ext_cat_hi, ext_cat_lo, ext_self, accept_true, wf]

theorem Sys2Proof.Laws.RoundTrip.vins (lt : LaneType) (g : PReg) (d : VReg) (s : Reg) (l : BitVec 6) : Statement (.vins lt g d s l) := by
  intro w wf h
  cases Option.some.inj h
  rw [decode_major1D _ (by simp [fld_asWord, ext_cat_hi, ext_cat_lo, ext_self])]
  simp [decMajor1D, decLane_enc, fld_asWord, ext_cat_hi, ext_cat_lo, ext_self, accept_true, wf]

theorem Sys2Proof.Laws.RoundTrip.vext (lt : LaneType) (g : PReg) (s : Reg) (d : VReg) (l : BitVec 6) : Statement (.vext lt g s d l) := by
  intro w wf h
  cases Option.some.inj h
  rw [decode_major1D _ (by simp [fld_asWord, ext_cat_hi, ext_cat_lo, ext_self])]
  simp [decMajor1D, decLane_enc, fld_asWord, ext_cat_hi, ext_cat_lo, ext_self, accept_true, wf]

theorem Sys2Proof.Laws.RoundTrip.vmovp (g : PReg) (d : VReg) (a : VReg) : Statement (.vmovp g d a) := by
  intro w wf h
  cases Option.some.inj h
  rw [decode_major1D _ (by simp [fld_asWord, ext_cat_hi, ext_cat_lo, ext_self])]
  simp [decMajor1D, fld_asWord, ext_cat_hi, ext_cat_lo, ext_self, accept_true, wf]
  rfl

theorem Sys2Proof.Laws.RoundTrip.tld (t : Reg) (a : Reg) (b : Reg) : Statement (.tld t a b) := by
  intro w wf h
  cases Option.some.inj h
  rw [decode_major1E _ (by simp [encR, fld_asWord, ext_cat_hi, ext_cat_lo, ext_self])]
  simp [decMajor1E, decR3, encR, fld_asWord, ext_cat_hi, ext_cat_lo, ext_self, accept_true, wf]

theorem Sys2Proof.Laws.RoundTrip.tst (t : Reg) (a : Reg) (b : Reg) : Statement (.tst t a b) := by
  intro w wf h
  cases Option.some.inj h
  rw [decode_major1E _ (by simp [encR, fld_asWord, ext_cat_hi, ext_cat_lo, ext_self])]
  simp [decMajor1E, decR3, encR, fld_asWord, ext_cat_hi, ext_cat_lo, ext_self, accept_true, wf]

theorem Sys2Proof.Laws.RoundTrip.tvget (d : VReg) (t : Reg) (b : Reg) : Statement (.tvget d t b) := by
  intro w wf h
  cases Option.some.inj h
  rw [decode_major1E _ (by simp [fld_asWord, ext_cat_hi, ext_cat_lo, ext_self])]
  simp [decMajor1E, decR3, fld_asWord, ext_cat_hi, ext_cat_lo, ext_self, accept_true, wf]

theorem Sys2Proof.Laws.RoundTrip.tvset (t : Reg) (a : VReg) (b : Reg) : Statement (.tvset t a b) := by
  intro w wf h
  cases Option.some.inj h
  rw [decode_major1E _ (by simp [fld_asWord, ext_cat_hi, ext_cat_lo, ext_self])]
  simp [decMajor1E, decR3, fld_asWord, ext_cat_hi, ext_cat_lo, ext_self, accept_true, wf]

theorem Sys2Proof.Laws.RoundTrip.mwld (f : WFmt) (pl : Bool) (a : Reg) (s : Reg) (tag : BitVec 4) : Statement (.mwld f pl a s tag) := by
  intro w wf h
  cases Option.some.inj h
  rw [decode_major1F _ (by simp [fld_asWord, ext_cat_hi, ext_cat_lo, ext_self])]
  simp [decMajor1F, decWFmt_enc, bit1_eq, fld_asWord, ext_cat_hi, ext_cat_lo, ext_self, accept_true, wf]

theorem Sys2Proof.Laws.RoundTrip.mwlt (f : WFmt) (pl : Bool) (t : Reg) (s : Reg) (tag : BitVec 4) : Statement (.mwlt f pl t s tag) := by
  intro w wf h
  cases Option.some.inj h
  rw [decode_major1F _ (by simp [fld_asWord, ext_cat_hi, ext_cat_lo, ext_self])]
  simp [decMajor1F, decWFmt_enc, bit1_eq, fld_asWord, ext_cat_hi, ext_cat_lo, ext_self, accept_true, wf]

theorem Sys2Proof.Laws.RoundTrip.mgo (f : AFmt) (acc : BitVec 2) (t : Reg) (pl : Bool) (tag : BitVec 4) (add : Bool) (mask : Bool) (r : Reg) : Statement (.mgo f acc t pl tag add mask r) := by
  intro w wf h
  cases Option.some.inj h
  rw [decode_major1F _ (by simp [fld_asWord, ext_cat_hi, ext_cat_lo, ext_self])]
  simp [decMajor1F, decAFmt_enc, bit1_eq, fld_asWord, ext_cat_hi, ext_cat_lo, ext_self, accept_true, wf]

theorem Sys2Proof.Laws.RoundTrip.moutTile (f : Fmt) (t : Reg) (acc : BitVec 2) (emp : Bool) : Statement (.moutTile f t acc emp) := by
  intro w wf h
  cases Option.some.inj h
  rw [decode_major1F _ (by simp [fld_asWord, ext_cat_hi, ext_cat_lo, ext_self])]
  simp [decMajor1F, decFmt_enc, bit1_eq, fld_asWord, ext_cat_hi, ext_cat_lo, ext_self, accept_true, wf]
  exact accept_of wf

theorem Sys2Proof.Laws.RoundTrip.moutMemory (f : Fmt) (d : Reg) (acc : BitVec 2) (r : Reg) (emp : Bool) : Statement (.moutMemory f d acc r emp) := by
  intro w wf h
  cases Option.some.inj h
  rw [decode_major1F _ (by simp [fld_asWord, ext_cat_hi, ext_cat_lo, ext_self])]
  simp [decMajor1F, decFmt_enc, bit1_eq, fld_asWord, ext_cat_hi, ext_cat_lo, ext_self, accept_true, wf]
  exact accept_of wf

theorem Sys2Proof.Laws.RoundTrip.mgos (f : AFmt) (acc : BitVec 2) (c : PReg) (m : Reg) (pl : Bool) (tag : BitVec 4) (add : Bool) : Statement (.mgos f acc c m pl tag add) := by
  intro w wf h
  cases Option.some.inj h
  rw [decode_major20 _ (by simp [fld_asWord, ext_cat_hi, ext_cat_lo, ext_self])]
  simp [decMajor20, decAFmt_enc, bit1_eq, fld_asWord, ext_cat_hi, ext_cat_lo, ext_self, accept_true, wf]

theorem Sys2Proof.Laws.RoundTrip.mmask (t : Reg) : Statement (.mmask t) := by
  intro w wf h
  cases Option.some.inj h
  rw [decode_major20 _ (by simp [fld_asWord, ext_cat_hi, ext_cat_lo, ext_self])]
  simp [decMajor20, fld_asWord, ext_cat_hi, ext_cat_lo, ext_self, accept_true, wf]

theorem Sys2Proof.Laws.RoundTrip.mhold : Statement .mhold := by
  intro w wf h
  cases Option.some.inj h
  rw [decode_major21 _ (by simp [fld_asWord, ext_cat_hi, ext_cat_lo, ext_self])]
  simp [decMajor21, fld_asWord, ext_cat_hi, ext_cat_lo, ext_self, accept_true, wf]

theorem Sys2Proof.Laws.RoundTrip.myield : Statement .myield := by
  intro w wf h
  cases Option.some.inj h
  rw [decode_major21 _ (by simp [fld_asWord, ext_cat_hi, ext_cat_lo, ext_self])]
  simp [decMajor21, fld_asWord, ext_cat_hi, ext_cat_lo, ext_self, accept_true, wf]

theorem Sys2Proof.Laws.RoundTrip.mclr (acc : BitVec 2) : Statement (.mclr acc) := by
  intro w wf h
  cases Option.some.inj h
  rw [decode_major21 _ (by simp [fld_asWord, ext_cat_hi, ext_cat_lo, ext_self])]
  simp [decMajor21, fld_asWord, ext_cat_hi, ext_cat_lo, ext_self, accept_true, wf]

theorem Sys2Proof.Laws.RoundTrip.crrd (d : Reg) (n : BitVec 14) : Statement (.crrd d n) := by
  intro w wf h
  cases Option.some.inj h
  rw [decode_major22 _ (by simp [fld_asWord, ext_cat_hi, ext_cat_lo, ext_self])]
  simp [decMajor22, fld_asWord, ext_cat_hi, ext_cat_lo, ext_self, accept_true, wf]
  exact accept_of wf

theorem Sys2Proof.Laws.RoundTrip.crwr (a : Reg) (n : BitVec 14) : Statement (.crwr a n) := by
  intro w wf h
  cases Option.some.inj h
  rw [decode_major22 _ (by simp [fld_asWord, ext_cat_hi, ext_cat_lo, ext_self])]
  simp [decMajor22, fld_asWord, ext_cat_hi, ext_cat_lo, ext_self, accept_true, wf]
  exact accept_of wf

theorem Sys2Proof.Laws.RoundTrip.crset (a : Reg) (n : BitVec 14) : Statement (.crset a n) := by
  intro w wf h
  cases Option.some.inj h
  rw [decode_major22 _ (by simp [fld_asWord, ext_cat_hi, ext_cat_lo, ext_self])]
  simp [decMajor22, fld_asWord, ext_cat_hi, ext_cat_lo, ext_self, accept_true, wf]
  exact accept_of wf

theorem Sys2Proof.Laws.RoundTrip.crclr (a : Reg) (n : BitVec 14) : Statement (.crclr a n) := by
  intro w wf h
  cases Option.some.inj h
  rw [decode_major22 _ (by simp [fld_asWord, ext_cat_hi, ext_cat_lo, ext_self])]
  simp [decMajor22, fld_asWord, ext_cat_hi, ext_cat_lo, ext_self, accept_true, wf]
  exact accept_of wf

theorem Sys2Proof.Laws.RoundTrip.trap (imm : BitVec 12) : Statement (.trap imm) := by
  intro w wf h
  cases Option.some.inj h
  rw [decode_major23 _ (by simp [fld_asWord, ext_cat_hi, ext_cat_lo, ext_self])]
  simp [decMajor23, fld_asWord, ext_cat_hi, ext_cat_lo, ext_self, accept_true, wf]

theorem Sys2Proof.Laws.RoundTrip.bkpt (imm : BitVec 12) : Statement (.bkpt imm) := by
  intro w wf h
  cases Option.some.inj h
  rw [decode_major23 _ (by simp [fld_asWord, ext_cat_hi, ext_cat_lo, ext_self])]
  simp [decMajor23, fld_asWord, ext_cat_hi, ext_cat_lo, ext_self, accept_true, wf]

theorem Sys2Proof.Laws.RoundTrip.tqpop (d : Reg) (nw : Bool) : Statement (.tqpop d nw) := by
  intro w wf h
  cases Option.some.inj h
  rw [decode_major23 _ (by simp [fld_asWord, ext_cat_hi, ext_cat_lo, ext_self])]
  simp [decMajor23, bit1_eq, fld_asWord, ext_cat_hi, ext_cat_lo, ext_self, accept_true, wf]
  exact accept_of wf

theorem Sys2Proof.Laws.RoundTrip.tresume (d : Reg) (a : Reg) (act : ResumeAct) : Statement (.tresume d a act) := by
  intro w wf h
  cases Option.some.inj h
  rw [decode_major23 _ (by simp [fld_asWord, ext_cat_hi, ext_cat_lo, ext_self])]
  simp [decMajor23, decAct_enc, fld_asWord, ext_cat_hi, ext_cat_lo, ext_self, accept_true, wf]

theorem Sys2Proof.Laws.RoundTrip.ld (z : MSize) (d : Reg) (b : Reg) (off : BitVec 8) : Statement (.ld z d b off) := by
  intro w wf h
  cases Option.some.inj h
  rw [decode_major24 _ (by simp [fld_asWord, ext_cat_hi, ext_cat_lo, ext_self])]
  simp [decMajor24, decM, decMS, decSize_enc, fld_asWord, ext_cat_hi, ext_cat_lo, ext_self, accept_true, wf]

theorem Sys2Proof.Laws.RoundTrip.ldAcq (z : MSize) (s : Scope) (d : Reg) (b : Reg) (off : BitVec 8) : Statement (.ldAcq z s d b off) := by
  intro w wf h
  cases Option.some.inj h
  rw [decode_major24 _ (by simp [fld_asWord, ext_cat_hi, ext_cat_lo, ext_self])]
  simp [decMajor24, decM, decMS, decSize_enc, decScope_enc, fld_asWord, ext_cat_hi, ext_cat_lo, ext_self, accept_true, wf]

theorem Sys2Proof.Laws.RoundTrip.lds (z : MSize) (d : Reg) (b : Reg) (off : BitVec 8) : Statement (.lds z d b off) := by
  intro w wf h
  cases Option.some.inj h
  rw [decode_major24 _ (by simp [fld_asWord, ext_cat_hi, ext_cat_lo, ext_self])]
  simp [decMajor24, decM, decMS, decSize_enc, fld_asWord, ext_cat_hi, ext_cat_lo, ext_self, accept_true, wf]

theorem Sys2Proof.Laws.RoundTrip.ldu (z : MSize) (d : Reg) (b : Reg) (off : BitVec 8) : Statement (.ldu z d b off) := by
  intro w wf h
  cases Option.some.inj h
  rw [decode_major25 _ (by simp [fld_asWord, ext_cat_hi, ext_cat_lo, ext_self])]
  simp [decMajor25, decM, decMS, decSize_enc, fld_asWord, ext_cat_hi, ext_cat_lo, ext_self, accept_true, wf]

theorem Sys2Proof.Laws.RoundTrip.lduAcq (z : MSize) (s : Scope) (d : Reg) (b : Reg) (off : BitVec 8) : Statement (.lduAcq z s d b off) := by
  intro w wf h
  cases Option.some.inj h
  rw [decode_major25 _ (by simp [fld_asWord, ext_cat_hi, ext_cat_lo, ext_self])]
  simp [decMajor25, decM, decMS, decSize_enc, decScope_enc, fld_asWord, ext_cat_hi, ext_cat_lo, ext_self, accept_true, wf]

theorem Sys2Proof.Laws.RoundTrip.st (z : MSize) (d : Reg) (b : Reg) (off : BitVec 8) : Statement (.st z d b off) := by
  intro w wf h
  cases Option.some.inj h
  rw [decode_major26 _ (by simp [fld_asWord, ext_cat_hi, ext_cat_lo, ext_self])]
  simp [decMajor26, decM, decMS, decSize_enc, fld_asWord, ext_cat_hi, ext_cat_lo, ext_self, accept_true, wf]

theorem Sys2Proof.Laws.RoundTrip.stRel (z : MSize) (s : Scope) (d : Reg) (b : Reg) (off : BitVec 8) : Statement (.stRel z s d b off) := by
  intro w wf h
  cases Option.some.inj h
  rw [decode_major26 _ (by simp [fld_asWord, ext_cat_hi, ext_cat_lo, ext_self])]
  simp [decMajor26, decM, decMS, decSize_enc, decScope_enc, fld_asWord, ext_cat_hi, ext_cat_lo, ext_self, accept_true, wf]

theorem Sys2Proof.Laws.RoundTrip.stf (z : MSize) (d : Reg) (b : Reg) (off : BitVec 8) : Statement (.stf z d b off) := by
  intro w wf h
  cases Option.some.inj h
  rw [decode_major26 _ (by simp [fld_asWord, ext_cat_hi, ext_cat_lo, ext_self])]
  simp [decMajor26, decM, decMS, decSize_enc, fld_asWord, ext_cat_hi, ext_cat_lo, ext_self, accept_true, wf]

theorem Sys2Proof.Laws.RoundTrip.ldse (z : MSize) (d : Reg) (b : Reg) (off : BitVec 8) : Statement (.ldse z d b off) := by
  intro w wf h
  cases Option.some.inj h
  rw [decode_major27 _ (by simp [fld_asWord, ext_cat_hi, ext_cat_lo, ext_self])]
  simp [decMajor27, decM, decSize_enc, fld_asWord, ext_cat_hi, ext_cat_lo, ext_self, accept_true, wf]

theorem Sys2Proof.Laws.RoundTrip.amoadd (z : AmoSize) (o : AmoOrd) (d : Reg) (a : Reg) (b : Reg) : Statement (.amoadd z o d a b) := by
  intro w wf h
  cases Option.some.inj h
  rw [decode_major28 _ (by simp [fld_asWord, ext_cat_hi, ext_cat_lo, ext_self])]
  simp [decMajor28, decAmo, decAmoSize_enc, decAmoOrd_enc, fld_asWord, ext_cat_hi, ext_cat_lo, ext_self, accept_true, wf]

theorem Sys2Proof.Laws.RoundTrip.amoand (z : AmoSize) (o : AmoOrd) (d : Reg) (a : Reg) (b : Reg) : Statement (.amoand z o d a b) := by
  intro w wf h
  cases Option.some.inj h
  rw [decode_major28 _ (by simp [fld_asWord, ext_cat_hi, ext_cat_lo, ext_self])]
  simp [decMajor28, decAmo, decAmoSize_enc, decAmoOrd_enc, fld_asWord, ext_cat_hi, ext_cat_lo, ext_self, accept_true, wf]

theorem Sys2Proof.Laws.RoundTrip.amoor (z : AmoSize) (o : AmoOrd) (d : Reg) (a : Reg) (b : Reg) : Statement (.amoor z o d a b) := by
  intro w wf h
  cases Option.some.inj h
  rw [decode_major28 _ (by simp [fld_asWord, ext_cat_hi, ext_cat_lo, ext_self])]
  simp [decMajor28, decAmo, decAmoSize_enc, decAmoOrd_enc, fld_asWord, ext_cat_hi, ext_cat_lo, ext_self, accept_true, wf]

theorem Sys2Proof.Laws.RoundTrip.amoxor (z : AmoSize) (o : AmoOrd) (d : Reg) (a : Reg) (b : Reg) : Statement (.amoxor z o d a b) := by
  intro w wf h
  cases Option.some.inj h
  rw [decode_major28 _ (by simp [fld_asWord, ext_cat_hi, ext_cat_lo, ext_self])]
  simp [decMajor28, decAmo, decAmoSize_enc, decAmoOrd_enc, fld_asWord, ext_cat_hi, ext_cat_lo, ext_self, accept_true, wf]

theorem Sys2Proof.Laws.RoundTrip.amomin (z : AmoSize) (o : AmoOrd) (d : Reg) (a : Reg) (b : Reg) : Statement (.amomin z o d a b) := by
  intro w wf h
  cases Option.some.inj h
  rw [decode_major28 _ (by simp [fld_asWord, ext_cat_hi, ext_cat_lo, ext_self])]
  simp [decMajor28, decAmo, decAmoSize_enc, decAmoOrd_enc, fld_asWord, ext_cat_hi, ext_cat_lo, ext_self, accept_true, wf]

theorem Sys2Proof.Laws.RoundTrip.amomax (z : AmoSize) (o : AmoOrd) (d : Reg) (a : Reg) (b : Reg) : Statement (.amomax z o d a b) := by
  intro w wf h
  cases Option.some.inj h
  rw [decode_major28 _ (by simp [fld_asWord, ext_cat_hi, ext_cat_lo, ext_self])]
  simp [decMajor28, decAmo, decAmoSize_enc, decAmoOrd_enc, fld_asWord, ext_cat_hi, ext_cat_lo, ext_self, accept_true, wf]

theorem Sys2Proof.Laws.RoundTrip.amominu (z : AmoSize) (o : AmoOrd) (d : Reg) (a : Reg) (b : Reg) : Statement (.amominu z o d a b) := by
  intro w wf h
  cases Option.some.inj h
  rw [decode_major28 _ (by simp [fld_asWord, ext_cat_hi, ext_cat_lo, ext_self])]
  simp [decMajor28, decAmo, decAmoSize_enc, decAmoOrd_enc, fld_asWord, ext_cat_hi, ext_cat_lo, ext_self, accept_true, wf]

theorem Sys2Proof.Laws.RoundTrip.amomaxu (z : AmoSize) (o : AmoOrd) (d : Reg) (a : Reg) (b : Reg) : Statement (.amomaxu z o d a b) := by
  intro w wf h
  cases Option.some.inj h
  rw [decode_major28 _ (by simp [fld_asWord, ext_cat_hi, ext_cat_lo, ext_self])]
  simp [decMajor28, decAmo, decAmoSize_enc, decAmoOrd_enc, fld_asWord, ext_cat_hi, ext_cat_lo, ext_self, accept_true, wf]

theorem Sys2Proof.Laws.RoundTrip.amoswap (z : AmoSize) (o : AmoOrd) (d : Reg) (a : Reg) (b : Reg) : Statement (.amoswap z o d a b) := by
  intro w wf h
  cases Option.some.inj h
  rw [decode_major28 _ (by simp [fld_asWord, ext_cat_hi, ext_cat_lo, ext_self])]
  simp [decMajor28, decAmo, decAmoSize_enc, decAmoOrd_enc, fld_asWord, ext_cat_hi, ext_cat_lo, ext_self, accept_true, wf]

theorem Sys2Proof.Laws.RoundTrip.amocas (z : AmoSize) (o : AmoOrd) (d : Reg) (a : Reg) (b : Reg) : Statement (.amocas z o d a b) := by
  intro w wf h
  cases Option.some.inj h
  rw [decode_major28 _ (by simp [fld_asWord, ext_cat_hi, ext_cat_lo, ext_self])]
  simp [decMajor28, decAmo, decAmoSize_enc, decAmoOrd_enc, fld_asWord, ext_cat_hi, ext_cat_lo, ext_self, accept_true, wf]

theorem Sys2Proof.Laws.RoundTrip.fence (s : Scope) : Statement (.fence s) := by
  intro w wf h
  cases Option.some.inj h
  rw [decode_major29 _ (by simp [fld_asWord, ext_cat_hi, ext_cat_lo, ext_self])]
  simp [decMajor29, decScope_enc, fld_asWord, ext_cat_hi, ext_cat_lo, ext_self, accept_true, wf]

theorem Sys2Proof.Laws.RoundTrip.feset (a : Reg) (n : BitVec 8) : Statement (.feset a n) := by
  intro w wf h
  cases Option.some.inj h
  rw [decode_major29 _ (by simp [fld_asWord, ext_cat_hi, ext_cat_lo, ext_self])]
  simp [decMajor29, fld_asWord, ext_cat_hi, ext_cat_lo, ext_self, accept_true, wf]

theorem Sys2Proof.Laws.RoundTrip.feclr (a : Reg) (n : BitVec 8) : Statement (.feclr a n) := by
  intro w wf h
  cases Option.some.inj h
  rw [decode_major29 _ (by simp [fld_asWord, ext_cat_hi, ext_cat_lo, ext_self])]
  simp [decMajor29, fld_asWord, ext_cat_hi, ext_cat_lo, ext_self, accept_true, wf]

theorem Sys2Proof.Laws.RoundTrip.vamo (op : VamoOp) (lt : LaneType) (d : VReg) (a : Reg) : Statement (.vamo op lt d a) := by
  intro w wf h
  cases Option.some.inj h
  rw [decode_major29 _ (by simp [encV, fld_asWord, ext_cat_hi, ext_cat_lo, ext_self])]
  simp [decMajor29, decLane_enc, decVamo_enc, encV, fld_asWord, ext_cat_hi, ext_cat_lo, ext_self, accept_true, wf]
  exact accept_of wf

theorem Sys2Proof.Laws.RoundTrip.csend (c : PReg) (k : TokKind) (aux : BitVec 4) (s : Reg) : Statement (.csend c k aux s) := by
  intro w wf h
  cases Option.some.inj h
  rw [decode_major2A _ (by simp [fld_asWord, ext_cat_hi, ext_cat_lo, ext_self])]
  simp [decMajor2A, decKind_enc, fld_asWord, ext_cat_hi, ext_cat_lo, ext_self, accept_true, wf]

theorem Sys2Proof.Laws.RoundTrip.crecv (d : Reg) (e : Reg) (c : PReg) : Statement (.crecv d e c) := by
  intro w wf h
  cases Option.some.inj h
  rw [decode_major2A _ (by simp [fld_asWord, ext_cat_hi, ext_cat_lo, ext_self])]
  simp [decMajor2A, fld_asWord, ext_cat_hi, ext_cat_lo, ext_self, accept_true, wf]

theorem Sys2Proof.Laws.RoundTrip.cpoll (d : Reg) (c : PReg) : Statement (.cpoll d c) := by
  intro w wf h
  cases Option.some.inj h
  rw [decode_major2A _ (by simp [fld_asWord, ext_cat_hi, ext_cat_lo, ext_self])]
  simp [decMajor2A, fld_asWord, ext_cat_hi, ext_cat_lo, ext_self, accept_true, wf]

theorem Sys2Proof.Laws.RoundTrip.invoke (d : Reg) (k : BitVec 3) (b : PReg) (m : BitVec 4) : Statement (.invoke d k b m) := by
  intro w wf h
  cases Option.some.inj h
  rw [decode_major2B _ (by simp [fld_asWord, ext_cat_hi, ext_cat_lo, ext_self])]
  simp [decMajor2B, fld_asWord, ext_cat_hi, ext_cat_lo, ext_self, accept_true, wf]

theorem Sys2Proof.Laws.RoundTrip.xbind (o : PReg) (a : Reg) (n : BitVec 3) : Statement (.xbind o a n) := by
  intro w wf h
  cases Option.some.inj h
  rw [decode_major2C _ (by simp [fld_asWord, ext_cat_hi, ext_cat_lo, ext_self])]
  simp [decMajor2C, fld_asWord, ext_cat_hi, ext_cat_lo, ext_self, accept_true, wf]

theorem Sys2Proof.Laws.RoundTrip.xsend (o : PReg) (a : Reg) (d : Reg) : Statement (.xsend o a d) := by
  intro w wf h
  cases Option.some.inj h
  rw [decode_major2C _ (by simp [fld_asWord, ext_cat_hi, ext_cat_lo, ext_self])]
  simp [decMajor2C, fld_asWord, ext_cat_hi, ext_cat_lo, ext_self, accept_true, wf]

theorem Sys2Proof.Laws.RoundTrip.xrecv (d : Reg) (i : PReg) : Statement (.xrecv d i) := by
  intro w wf h
  cases Option.some.inj h
  rw [decode_major2C _ (by simp [fld_asWord, ext_cat_hi, ext_cat_lo, ext_self])]
  simp [decMajor2C, fld_asWord, ext_cat_hi, ext_cat_lo, ext_self, accept_true, wf]
  exact accept_of wf

theorem Sys2Proof.Laws.RoundTrip.xfree (i : PReg) : Statement (.xfree i) := by
  intro w wf h
  cases Option.some.inj h
  rw [decode_major2C _ (by simp [fld_asWord, ext_cat_hi, ext_cat_lo, ext_self])]
  simp [decMajor2C, fld_asWord, ext_cat_hi, ext_cat_lo, ext_self, accept_true, wf]

theorem Sys2Proof.Laws.RoundTrip.xflush (o : PReg) : Statement (.xflush o) := by
  intro w wf h
  cases Option.some.inj h
  rw [decode_major2C _ (by simp [fld_asWord, ext_cat_hi, ext_cat_lo, ext_self])]
  simp [decMajor2C, fld_asWord, ext_cat_hi, ext_cat_lo, ext_self, accept_true, wf]

theorem Sys2Proof.Laws.RoundTrip.xfold (o : PReg) (a : Reg) : Statement (.xfold o a) := by
  intro w wf h
  cases Option.some.inj h
  rw [decode_major2C _ (by simp [fld_asWord, ext_cat_hi, ext_cat_lo, ext_self])]
  simp [decMajor2C, fld_asWord, ext_cat_hi, ext_cat_lo, ext_self, accept_true, wf]

theorem Sys2Proof.Laws.RoundTrip.xstat (d : Reg) (inb : Bool) (c : PReg) : Statement (.xstat d inb c) := by
  intro w wf h
  cases Option.some.inj h
  rw [decode_major2C _ (by simp [fld_asWord, ext_cat_hi, ext_cat_lo, ext_self])]
  simp [decMajor2C, bit1_eq, fld_asWord, ext_cat_hi, ext_cat_lo, ext_self, accept_true, wf]

theorem Sys2Proof.Laws.RoundTrip.cpy (a : Reg) : Statement (.cpy a) := by
  intro w wf h
  cases Option.some.inj h
  rw [decode_major2D _ (by simp [fld_asWord, ext_cat_hi, ext_cat_lo, ext_self])]
  simp [decMajor2D, fld_asWord, ext_cat_hi, ext_cat_lo, ext_self, accept_true, wf]

theorem Sys2Proof.Laws.RoundTrip.lswap (a : Reg) : Statement (.lswap a) := by
  intro w wf h
  cases Option.some.inj h
  rw [decode_major2D _ (by simp [fld_asWord, ext_cat_hi, ext_cat_lo, ext_self])]
  simp [decMajor2D, fld_asWord, ext_cat_hi, ext_cat_lo, ext_self, accept_true, wf]

theorem Sys2Proof.Laws.RoundTrip.engstat (d : Reg) (swap : Bool) : Statement (.engstat d swap) := by
  intro w wf h
  cases Option.some.inj h
  rw [decode_major2D _ (by simp [fld_asWord, ext_cat_hi, ext_cat_lo, ext_self])]
  simp [decMajor2D, bit1_eq, fld_asWord, ext_cat_hi, ext_cat_lo, ext_self, accept_true, wf]

theorem Sys2Proof.Laws.RoundTrip.spawn (d : Reg) (a : Reg) : Statement (.spawn d a) := by
  intro w wf h
  cases Option.some.inj h
  rw [decode_major2E _ (by simp [fld_asWord, ext_cat_hi, ext_cat_lo, ext_self])]
  simp [decMajor2E, decX2, fld_asWord, ext_cat_hi, ext_cat_lo, ext_self, accept_true, wf]

theorem Sys2Proof.Laws.RoundTrip.exit : Statement .exit := by
  intro w wf h
  cases Option.some.inj h
  rw [decode_major2E _ (by simp [fld_asWord, ext_cat_hi, ext_cat_lo, ext_self])]
  simp [decMajor2E, decX2, fld_asWord, ext_cat_hi, ext_cat_lo, ext_self, accept_true, wf]

theorem Sys2Proof.Laws.RoundTrip.yield (n : BitVec 12) : Statement (.yield n) := by
  intro w wf h
  cases Option.some.inj h
  rw [decode_major2E _ (by simp [fld_asWord, ext_cat_hi, ext_cat_lo, ext_self])]
  simp [decMajor2E, decX2, fld_asWord, ext_cat_hi, ext_cat_lo, ext_self, accept_true, wf]

theorem Sys2Proof.Laws.RoundTrip.dpush (d : Reg) (a : Reg) : Statement (.dpush d a) := by
  intro w wf h
  cases Option.some.inj h
  rw [decode_major2E _ (by simp [fld_asWord, ext_cat_hi, ext_cat_lo, ext_self])]
  simp [decMajor2E, decX2, fld_asWord, ext_cat_hi, ext_cat_lo, ext_self, accept_true, wf]

theorem Sys2Proof.Laws.RoundTrip.dkey (d : Reg) (a : Reg) : Statement (.dkey d a) := by
  intro w wf h
  cases Option.some.inj h
  rw [decode_major2E _ (by simp [fld_asWord, ext_cat_hi, ext_cat_lo, ext_self])]
  simp [decMajor2E, decX2, fld_asWord, ext_cat_hi, ext_cat_lo, ext_self, accept_true, wf]

theorem Sys2Proof.Laws.RoundTrip.ddel (d : Reg) (a : Reg) : Statement (.ddel d a) := by
  intro w wf h
  cases Option.some.inj h
  rw [decode_major2E _ (by simp [fld_asWord, ext_cat_hi, ext_cat_lo, ext_self])]
  simp [decMajor2E, decX2, fld_asWord, ext_cat_hi, ext_cat_lo, ext_self, accept_true, wf]

theorem Sys2Proof.Laws.RoundTrip.dpop (d : Reg) (a : Reg) : Statement (.dpop d a) := by
  intro w wf h
  cases Option.some.inj h
  rw [decode_major2E _ (by simp [fld_asWord, ext_cat_hi, ext_cat_lo, ext_self])]
  simp [decMajor2E, decX2, fld_asWord, ext_cat_hi, ext_cat_lo, ext_self, accept_true, wf]

theorem Sys2Proof.Laws.RoundTrip.dealerOperation (t : Nat) (op : DealerOp) : Statement (.dealerOperation t op) := by
  intro _ _ h; cases h

theorem Sys2Proof.Laws.RoundTrip.rgset (d : Reg) (t : RgTarget) (a : Reg) : Statement (.rgset d t a) := by
  intro w wf h
  cases Option.some.inj h
  rw [decode_major2F _ (by simp [fld_asWord, ext_cat_hi, ext_cat_lo, ext_self])]
  simp [decMajor2F, fld_asWord, ext_cat_hi, ext_cat_lo, ext_self, accept_true, wf]
  rw [decTarget_enc]
  exact accept_of wf

theorem Sys2Proof.Laws.RoundTrip.rgget (d : Reg) (t : RgTarget) : Statement (.rgget d t) := by
  intro w wf h
  cases Option.some.inj h
  rw [decode_major2F _ (by simp [fld_asWord, ext_cat_hi, ext_cat_lo, ext_self])]
  simp [decMajor2F, fld_asWord, ext_cat_hi, ext_cat_lo, ext_self, accept_true, wf]
  rw [decTarget_enc]
  exact accept_of wf

theorem Sys2Proof.Laws.RoundTrip.rgprobe (d : Reg) (a : Reg) : Statement (.rgprobe d a) := by
  intro w wf h
  cases Option.some.inj h
  rw [decode_major2F _ (by simp [fld_asWord, ext_cat_hi, ext_cat_lo, ext_self])]
  simp [decMajor2F, fld_asWord, ext_cat_hi, ext_cat_lo, ext_self, accept_true, wf]
  exact accept_of wf

theorem Sys2Proof.Laws.RoundTrip.rgsplit (d : Reg) (i : BitVec 5) (j : BitVec 5) (a : Reg) : Statement (.rgsplit d i j a) := by
  intro w wf h
  cases Option.some.inj h
  rw [decode_major2F _ (by simp [fld_asWord, ext_cat_hi, ext_cat_lo, ext_self])]
  simp [decMajor2F, fld_asWord, ext_cat_hi, ext_cat_lo, ext_self, accept_true, wf]

theorem Sys2Proof.Laws.RoundTrip.rgmerge (d : Reg) (i : BitVec 5) (j : BitVec 5) : Statement (.rgmerge d i j) := by
  intro w wf h
  cases Option.some.inj h
  rw [decode_major2F _ (by simp [fld_asWord, ext_cat_hi, ext_cat_lo, ext_self])]
  simp [decMajor2F, fld_asWord, ext_cat_hi, ext_cat_lo, ext_self, accept_true, wf]

theorem Sys2Proof.Laws.RoundTrip.rgres (s : Scope) (d : Reg) (a : Reg) : Statement (.rgres s d a) := by
  intro w wf h
  cases Option.some.inj h
  rw [decode_major30 _ (by simp [fld_asWord, ext_cat_hi, ext_cat_lo, ext_self])]
  simp [decMajor30, decScope_enc, fld_asWord, ext_cat_hi, ext_cat_lo, ext_self, accept_true, wf]

theorem Sys2Proof.Laws.RoundTrip.rginv (s : Scope) (nw : Bool) (d : Reg) (a : Reg) : Statement (.rginv s nw d a) := by
  intro w wf h
  cases Option.some.inj h
  rw [decode_major30 _ (by simp [fld_asWord, ext_cat_hi, ext_cat_lo, ext_self])]
  simp [decMajor30, decScope_enc, bit1_eq, fld_asWord, ext_cat_hi, ext_cat_lo, ext_self, accept_true, wf]

theorem Sys2Proof.Laws.RoundTrip.rgsync : Statement .rgsync := by
  intro w wf h
  cases Option.some.inj h
  rw [decode_major30 _ (by simp [fld_asWord, ext_cat_hi, ext_cat_lo, ext_self])]
  simp [decMajor30, fld_asWord, ext_cat_hi, ext_cat_lo, ext_self, accept_true, wf]

theorem Sys2Proof.Laws.RoundTrip.rgcpt (a : Reg) : Statement (.rgcpt a) := by
  intro w wf h
  cases Option.some.inj h
  rw [decode_major30 _ (by simp [fld_asWord, ext_cat_hi, ext_cat_lo, ext_self])]
  simp [decMajor30, fld_asWord, ext_cat_hi, ext_cat_lo, ext_self, accept_true, wf]

theorem Sys2Proof.Laws.RoundTrip.ginstall (d : Reg) (a : Reg) (k : BitVec 4) : Statement (.ginstall d a k) := by
  intro w wf h
  cases Option.some.inj h
  rw [decode_major31 _ (by simp [fld_asWord, ext_cat_hi, ext_cat_lo, ext_self])]
  simp [decMajor31, fld_asWord, ext_cat_hi, ext_cat_lo, ext_self, accept_true, wf]

theorem Sys2Proof.Laws.RoundTrip.garg (d : Reg) (a : Reg) (j : BitVec 7) : Statement (.garg d a j) := by
  intro w wf h
  cases Option.some.inj h
  rw [decode_major31 _ (by simp [fld_asWord, ext_cat_hi, ext_cat_lo, ext_self])]
  simp [decMajor31, fld_asWord, ext_cat_hi, ext_cat_lo, ext_self, accept_true, wf]

theorem Sys2Proof.Laws.RoundTrip.gdrain (d : Reg) (a : Reg) : Statement (.gdrain d a) := by
  intro w wf h
  cases Option.some.inj h
  rw [decode_major31 _ (by simp [fld_asWord, ext_cat_hi, ext_cat_lo, ext_self])]
  simp [decMajor31, fld_asWord, ext_cat_hi, ext_cat_lo, ext_self, accept_true, wf]

theorem Sys2Proof.Laws.RoundTrip.greconf (d : Reg) (a : Reg) : Statement (.greconf d a) := by
  intro w wf h
  cases Option.some.inj h
  rw [decode_major31 _ (by simp [fld_asWord, ext_cat_hi, ext_cat_lo, ext_self])]
  simp [decMajor31, fld_asWord, ext_cat_hi, ext_cat_lo, ext_self, accept_true, wf]

theorem Sys2Proof.Laws.RoundTrip.barj (d : Reg) (n : BitVec 4) : Statement (.barj d n) := by
  intro w wf h
  cases Option.some.inj h
  rw [decode_major32 _ (by simp [fld_asWord, ext_cat_hi, ext_cat_lo, ext_self])]
  simp [decMajor32, fld_asWord, ext_cat_hi, ext_cat_lo, ext_self, accept_true, wf]

theorem Sys2Proof.Laws.RoundTrip.barw (a : Reg) (n : BitVec 4) : Statement (.barw a n) := by
  intro w wf h
  cases Option.some.inj h
  rw [decode_major32 _ (by simp [fld_asWord, ext_cat_hi, ext_cat_lo, ext_self])]
  simp [decMajor32, fld_asWord, ext_cat_hi, ext_cat_lo, ext_self, accept_true, wf]

theorem Sys2Proof.Laws.RoundTrip.cntinc (n : BitVec 4) (a : Reg) : Statement (.cntinc n a) := by
  intro w wf h
  cases Option.some.inj h
  rw [decode_major32 _ (by simp [fld_asWord, ext_cat_hi, ext_cat_lo, ext_self])]
  simp [decMajor32, fld_asWord, ext_cat_hi, ext_cat_lo, ext_self, accept_true, wf]

theorem Sys2Proof.Laws.RoundTrip.cntwait (n : BitVec 4) (a : Reg) : Statement (.cntwait n a) := by
  intro w wf h
  cases Option.some.inj h
  rw [decode_major32 _ (by simp [fld_asWord, ext_cat_hi, ext_cat_lo, ext_self])]
  simp [decMajor32, fld_asWord, ext_cat_hi, ext_cat_lo, ext_self, accept_true, wf]

theorem Sys2Proof.Laws.RoundTrip.rngdraw (d : Reg) (a : Reg) : Statement (.rngdraw d a) := by
  intro w wf h
  cases Option.some.inj h
  rw [decode_major33 _ (by simp [fld_asWord, ext_cat_hi, ext_cat_lo, ext_self])]
  simp [decMajor33, decX2, fld_asWord, ext_cat_hi, ext_cat_lo, ext_self, accept_true, wf]

theorem Sys2Proof.Laws.RoundTrip.snoise (v : VReg) (a : Reg) : Statement (.snoise v a) := by
  intro w wf h
  cases Option.some.inj h
  rw [decode_major33 _ (by simp [fld_asWord, ext_cat_hi, ext_cat_lo, ext_self])]
  simp [decMajor33, decX2, fld_asWord, ext_cat_hi, ext_cat_lo, ext_self, accept_true, wf]
  exact accept_of wf

theorem Sys2Proof.Laws.RoundTrip.smaxk (d : Reg) (v : VReg) (a : Reg) (new : Bool) : Statement (.smaxk d v a new) := by
  intro w wf h
  cases Option.some.inj h
  rw [decode_major33 _ (by simp [fld_asWord, ext_cat_hi, ext_cat_lo, ext_self])]
  simp [decMajor33, decX2, bit1_eq, fld_asWord, ext_cat_hi, ext_cat_lo, ext_self, accept_true, wf]

theorem Sys2Proof.Laws.RoundTrip.accept (d : Reg) (a : Reg) : Statement (.accept d a) := by
  intro w wf h
  cases Option.some.inj h
  rw [decode_major33 _ (by simp [fld_asWord, ext_cat_hi, ext_cat_lo, ext_self])]
  simp [decMajor33, decX2, fld_asWord, ext_cat_hi, ext_cat_lo, ext_self, accept_true, wf]
  exact accept_of wf

theorem Sys2Proof.Laws.RoundTrip.kvcommit (d : Reg) (a : Reg) : Statement (.kvcommit d a) := by
  intro w wf h
  cases Option.some.inj h
  rw [decode_major33 _ (by simp [fld_asWord, ext_cat_hi, ext_cat_lo, ext_self])]
  simp [decMajor33, decX2, fld_asWord, ext_cat_hi, ext_cat_lo, ext_self, accept_true, wf]

theorem Sys2Proof.Laws.RoundTrip.genabort (a : Reg) : Statement (.genabort a) := by
  intro w wf h
  cases Option.some.inj h
  rw [decode_major33 _ (by simp [fld_asWord, ext_cat_hi, ext_cat_lo, ext_self])]
  simp [decMajor33, decX2, fld_asWord, ext_cat_hi, ext_cat_lo, ext_self, accept_true, wf]

theorem Sys2Proof.Laws.RoundTrip.sequenceTableOperation (t : Nat) (op : SeqOp) : Statement (.sequenceTableOperation t op) := by
  intro _ _ h; cases h

theorem Sys2Proof.Laws.RoundTrip.gate (a : Reg) (opn : Bool) : Statement (.gate a opn) := by
  intro w wf h
  cases Option.some.inj h
  rw [decode_major34 _ (by simp [fld_asWord, ext_cat_hi, ext_cat_lo, ext_self])]
  simp [decMajor34, decX2, bit1_eq, fld_asWord, ext_cat_hi, ext_cat_lo, ext_self, accept_true, wf]

theorem Sys2Proof.Laws.RoundTrip.qwait (d : Reg) (a : Reg) : Statement (.qwait d a) := by
  intro w wf h
  cases Option.some.inj h
  rw [decode_major34 _ (by simp [fld_asWord, ext_cat_hi, ext_cat_lo, ext_self])]
  simp [decMajor34, decX2, fld_asWord, ext_cat_hi, ext_cat_lo, ext_self, accept_true, wf]

theorem Sys2Proof.Laws.RoundTrip.ctxsave (d : Reg) (a : Reg) : Statement (.ctxsave d a) := by
  intro w wf h
  cases Option.some.inj h
  rw [decode_major34 _ (by simp [fld_asWord, ext_cat_hi, ext_cat_lo, ext_self])]
  simp [decMajor34, decX2, fld_asWord, ext_cat_hi, ext_cat_lo, ext_self, accept_true, wf]

theorem Sys2Proof.Laws.RoundTrip.ctxload (d : Reg) (a : Reg) : Statement (.ctxload d a) := by
  intro w wf h
  cases Option.some.inj h
  rw [decode_major34 _ (by simp [fld_asWord, ext_cat_hi, ext_cat_lo, ext_self])]
  simp [decMajor34, decX2, fld_asWord, ext_cat_hi, ext_cat_lo, ext_self, accept_true, wf]

theorem Sys2Proof.Laws.RoundTrip.parkWake (t : Nat) : Statement (.parkWake t) := by
  intro _ _ h; cases h

theorem Sys2Proof.Laws.RoundTrip.memReply (t : Nat) (r : Reply) : Statement (.memReply t r) := by
  intro _ _ h; cases h

theorem Sys2Proof.Laws.RoundTrip.ownerAccess (seq : Nat) : Statement (.ownerAccess seq) := by
  intro _ _ h; cases h

theorem Sys2Proof.Laws.RoundTrip.feWaitService (seq : Nat) : Statement (.feWaitService seq) := by
  intro _ _ h; cases h

theorem Sys2Proof.Laws.RoundTrip.feWaitResend (t : Nat) : Statement (.feWaitResend t) := by
  intro _ _ h; cases h

theorem Sys2Proof.Laws.RoundTrip.eccWriteback (ga : Nat) : Statement (.eccWriteback ga) := by
  intro _ _ h; cases h

theorem Sys2Proof.Laws.RoundTrip.gangCompare (c : Nat) : Statement (.gangCompare c) := by
  intro _ _ h; cases h

theorem Sys2Proof.Laws.RoundTrip.gangStart (c : Nat) (id : Nat) : Statement (.gangStart c id) := by
  intro _ _ h; cases h

theorem Sys2Proof.Laws.RoundTrip.gangComplete (c : Nat) (id : Nat) : Statement (.gangComplete c id) := by
  intro _ _ h; cases h

theorem Sys2Proof.Laws.RoundTrip.gangAbort (c : Nat) (id : Nat) : Statement (.gangAbort c id) := by
  intro _ _ h; cases h

theorem Sys2Proof.Laws.RoundTrip.arrayWatchdog (c : Nat) : Statement (.arrayWatchdog c) := by
  intro _ _ h; cases h

theorem Sys2Proof.Laws.RoundTrip.waitWatchdog (t : Nat) : Statement (.waitWatchdog t) := by
  intro _ _ h; cases h

theorem Sys2Proof.Laws.RoundTrip.deadlock (c : Nat) : Statement (.deadlock c) := by
  intro _ _ h; cases h

theorem Sys2Proof.Laws.RoundTrip.quiescenceReport (t : Nat) : Statement (.quiescenceReport t) := by
  intro _ _ h; cases h

theorem Sys2Proof.Laws.RoundTrip.qwaitLimit (t : Nat) : Statement (.qwaitLimit t) := by
  intro _ _ h; cases h

theorem Sys2Proof.Laws.RoundTrip.retentionEnter (c : Nat) (g : Nat) : Statement (.retentionEnter c g) := by
  intro _ _ h; cases h

theorem Sys2Proof.Laws.RoundTrip.retentionEnterDone (c : Nat) (g : Nat) : Statement (.retentionEnterDone c g) := by
  intro _ _ h; cases h

theorem Sys2Proof.Laws.RoundTrip.retentionExitDone (c : Nat) (g : Nat) : Statement (.retentionExitDone c g) := by
  intro _ _ h; cases h

theorem Sys2Proof.Laws.RoundTrip.patrolClaim (g : PatrolSeg) : Statement (.patrolClaim g) := by
  intro _ _ h; cases h

theorem Sys2Proof.Laws.RoundTrip.patrolChunkDone (fails : List Nat) : Statement (.patrolChunkDone fails) := by
  intro _ _ h; cases h

theorem Sys2Proof.Laws.RoundTrip.patrolRelease : Statement .patrolRelease := by
  intro _ _ h; cases h

theorem Sys2Proof.Laws.RoundTrip.channelTokenDepart (t : Nat) (c : Nat) : Statement (.channelTokenDepart t c) := by
  intro _ _ h; cases h

theorem Sys2Proof.Laws.RoundTrip.channelTokenArrive (t : Nat) (c : Nat) (inv : Nat) (tok : Tok) : Statement (.channelTokenArrive t c inv tok) := by
  intro _ _ h; cases h

theorem Sys2Proof.Laws.RoundTrip.invokeRequest (k : Nat) (r : InvReq) : Statement (.invokeRequest k r) := by
  intro _ _ h; cases h

theorem Sys2Proof.Laws.RoundTrip.invokeAnswer (t : Nat) (r : Reply) : Statement (.invokeAnswer t r) := by
  intro _ _ h; cases h

theorem Sys2Proof.Laws.RoundTrip.invocationStart (k : Nat) : Statement (.invocationStart k) := by
  intro _ _ h; cases h

theorem Sys2Proof.Laws.RoundTrip.activeNotice (t : Nat) (inv : Nat) : Statement (.activeNotice t inv) := by
  intro _ _ h; cases h

theorem Sys2Proof.Laws.RoundTrip.invocationEnd (k : Nat) : Statement (.invocationEnd k) := by
  intro _ _ h; cases h

theorem Sys2Proof.Laws.RoundTrip.nodeFaultReport (k : Nat) : Statement (.nodeFaultReport k) := by
  intro _ _ h; cases h

theorem Sys2Proof.Laws.RoundTrip.islandFaultTrap (t : Nat) (inv : Nat) (i : TrapInfo) : Statement (.islandFaultTrap t inv i) := by
  intro _ _ h; cases h

theorem Sys2Proof.Laws.RoundTrip.scan (k : Nat) (n : Nat) : Statement (.scan k n) := by
  intro _ _ h; cases h

theorem Sys2Proof.Laws.RoundTrip.scanl (k : Nat) (n : Nat) : Statement (.scanl k n) := by
  intro _ _ h; cases h

theorem Sys2Proof.Laws.RoundTrip.intersect (k : Nat) (n : Nat) : Statement (.intersect k n) := by
  intro _ _ h; cases h

theorem Sys2Proof.Laws.RoundTrip.union (k : Nat) (n : Nat) : Statement (.union k n) := by
  intro _ _ h; cases h

theorem Sys2Proof.Laws.RoundTrip.repeatNode (k : Nat) (n : Nat) : Statement (.repeatNode k n) := by
  intro _ _ h; cases h

theorem Sys2Proof.Laws.RoundTrip.reduce (k : Nat) (n : Nat) : Statement (.reduce k n) := by
  intro _ _ h; cases h

theorem Sys2Proof.Laws.RoundTrip.aluAdd (k : Nat) (n : Nat) : Statement (.aluAdd k n) := by
  intro _ _ h; cases h

theorem Sys2Proof.Laws.RoundTrip.aluSub (k : Nat) (n : Nat) : Statement (.aluSub k n) := by
  intro _ _ h; cases h

theorem Sys2Proof.Laws.RoundTrip.aluMul (k : Nat) (n : Nat) : Statement (.aluMul k n) := by
  intro _ _ h; cases h

theorem Sys2Proof.Laws.RoundTrip.aluDiv (k : Nat) (n : Nat) : Statement (.aluDiv k n) := by
  intro _ _ h; cases h

theorem Sys2Proof.Laws.RoundTrip.aluMin (k : Nat) (n : Nat) : Statement (.aluMin k n) := by
  intro _ _ h; cases h

theorem Sys2Proof.Laws.RoundTrip.aluMax (k : Nat) (n : Nat) : Statement (.aluMax k n) := by
  intro _ _ h; cases h

theorem Sys2Proof.Laws.RoundTrip.aluAnd (k : Nat) (n : Nat) : Statement (.aluAnd k n) := by
  intro _ _ h; cases h

theorem Sys2Proof.Laws.RoundTrip.aluOr (k : Nat) (n : Nat) : Statement (.aluOr k n) := by
  intro _ _ h; cases h

theorem Sys2Proof.Laws.RoundTrip.aluXor (k : Nat) (n : Nat) : Statement (.aluXor k n) := by
  intro _ _ h; cases h

theorem Sys2Proof.Laws.RoundTrip.aluShl (k : Nat) (n : Nat) : Statement (.aluShl k n) := by
  intro _ _ h; cases h

theorem Sys2Proof.Laws.RoundTrip.aluShr (k : Nat) (n : Nat) : Statement (.aluShr k n) := by
  intro _ _ h; cases h

theorem Sys2Proof.Laws.RoundTrip.aluAbs (k : Nat) (n : Nat) : Statement (.aluAbs k n) := by
  intro _ _ h; cases h

theorem Sys2Proof.Laws.RoundTrip.aluNeg (k : Nat) (n : Nat) : Statement (.aluNeg k n) := by
  intro _ _ h; cases h

theorem Sys2Proof.Laws.RoundTrip.aluPass (k : Nat) (n : Nat) : Statement (.aluPass k n) := by
  intro _ _ h; cases h

theorem Sys2Proof.Laws.RoundTrip.aluCmp (k : Nat) (n : Nat) : Statement (.aluCmp k n) := by
  intro _ _ h; cases h

theorem Sys2Proof.Laws.RoundTrip.aluFma (k : Nat) (n : Nat) : Statement (.aluFma k n) := by
  intro _ _ h; cases h

theorem Sys2Proof.Laws.RoundTrip.cvt (k : Nat) (n : Nat) : Statement (.cvt k n) := by
  intro _ _ h; cases h

theorem Sys2Proof.Laws.RoundTrip.sd2b (k : Nat) (n : Nat) : Statement (.sd2b k n) := by
  intro _ _ h; cases h

theorem Sys2Proof.Laws.RoundTrip.b2sd (k : Nat) (n : Nat) : Statement (.b2sd k n) := by
  intro _ _ h; cases h

theorem Sys2Proof.Laws.RoundTrip.wconv (k : Nat) (n : Nat) : Statement (.wconv k n) := by
  intro _ _ h; cases h

theorem Sys2Proof.Laws.RoundTrip.steer (k : Nat) (n : Nat) : Statement (.steer k n) := by
  intro _ _ h; cases h

theorem Sys2Proof.Laws.RoundTrip.merge (k : Nat) (n : Nat) : Statement (.merge k n) := by
  intro _ _ h; cases h

theorem Sys2Proof.Laws.RoundTrip.carry (k : Nat) (n : Nat) : Statement (.carry k n) := by
  intro _ _ h; cases h

theorem Sys2Proof.Laws.RoundTrip.invariant (k : Nat) (n : Nat) : Statement (.invariant k n) := by
  intro _ _ h; cases h

theorem Sys2Proof.Laws.RoundTrip.select (k : Nat) (n : Nat) : Statement (.select k n) := by
  intro _ _ h; cases h

theorem Sys2Proof.Laws.RoundTrip.pmenter (k : Nat) (n : Nat) : Statement (.pmenter k n) := by
  intro _ _ h; cases h

theorem Sys2Proof.Laws.RoundTrip.pmexit (k : Nat) (n : Nat) : Statement (.pmexit k n) := by
  intro _ _ h; cases h

theorem Sys2Proof.Laws.RoundTrip.mbar (k : Nat) (n : Nat) : Statement (.mbar k n) := by
  intro _ _ h; cases h

theorem Sys2Proof.Laws.RoundTrip.arg (k : Nat) (n : Nat) : Statement (.arg k n) := by
  intro _ _ h; cases h

theorem Sys2Proof.Laws.RoundTrip.sink (k : Nat) (n : Nat) : Statement (.sink k n) := by
  intro _ _ h; cases h

theorem Sys2Proof.Laws.RoundTrip.mtload (k : Nat) (n : Nat) : Statement (.mtload k n) := by
  intro _ _ h; cases h

theorem Sys2Proof.Laws.RoundTrip.mtstore (k : Nat) (n : Nat) : Statement (.mtstore k n) := by
  intro _ _ h; cases h

theorem Sys2Proof.Laws.RoundTrip.mtrmw (k : Nat) (n : Nat) : Statement (.mtrmw k n) := by
  intro _ _ h; cases h

theorem Sys2Proof.Laws.RoundTrip.array (k : Nat) (n : Nat) : Statement (.array k n) := by
  intro _ _ h; cases h

theorem Sys2Proof.Laws.RoundTrip.portin (k : Nat) (n : Nat) : Statement (.portin k n) := by
  intro _ _ h; cases h

theorem Sys2Proof.Laws.RoundTrip.portout (k : Nat) (n : Nat) : Statement (.portout k n) := by
  intro _ _ h; cases h

theorem Sys2Proof.Laws.RoundTrip.reconfiguration (k : Nat) (b : Nat) : Statement (.reconfiguration k b) := by
  intro _ _ h; cases h

theorem Sys2Proof.Laws.RoundTrip.reconfigurationDone (k : Nat) (b : Nat) : Statement (.reconfigurationDone k b) := by
  intro _ _ h; cases h

theorem Sys2Proof.Laws.RoundTrip.islandInstall (k : Nat) (r : InstallReq) : Statement (.islandInstall k r) := by
  intro _ _ h; cases h

theorem Sys2Proof.Laws.RoundTrip.islandInstallDone (k : Nat) (b : Nat) : Statement (.islandInstallDone k b) := by
  intro _ _ h; cases h

theorem Sys2Proof.Laws.RoundTrip.islandCommand (k : Nat) (c : IslCmd) : Statement (.islandCommand k c) := by
  intro _ _ h; cases h

theorem Sys2Proof.Laws.RoundTrip.configError (k : Nat) (b : Nat) (n : Nat) : Statement (.configError k b n) := by
  intro _ _ h; cases h

theorem Sys2Proof.Laws.RoundTrip.configReloadDone (k : Nat) (b : Nat) : Statement (.configReloadDone k b) := by
  intro _ _ h; cases h

theorem Sys2Proof.Laws.RoundTrip.transitPacket (p : TransitPkt) : Statement (.transitPacket p) := by
  intro _ _ h; cases h

theorem Sys2Proof.Laws.RoundTrip.transitCredit (c : Nat) (o : Nat) (b : Nat) (n : Nat) (answer : Bool) (ret : Bool) : Statement (.transitCredit c o b n answer ret) := by
  intro _ _ h; cases h

theorem Sys2Proof.Laws.RoundTrip.transitFoldApply (c : Nat) (i : Nat) (tag : Nat) (emit : Nat) : Statement (.transitFoldApply c i tag emit) := by
  intro _ _ h; cases h

theorem Sys2Proof.Laws.RoundTrip.transitFlushApply (c : Nat) (i : Nat) (emit : Nat) : Statement (.transitFlushApply c i emit) := by
  intro _ _ h; cases h

theorem Sys2Proof.Laws.RoundTrip.copyTransfer (c : Nat) : Statement (.copyTransfer c) := by
  intro _ _ h; cases h

theorem Sys2Proof.Laws.RoundTrip.copyComplete (c : Nat) (q : Nat) : Statement (.copyComplete c q) := by
  intro _ _ h; cases h

theorem Sys2Proof.Laws.RoundTrip.swapHold (id : Nat) : Statement (.swapHold id) := by
  intro _ _ h; cases h

theorem Sys2Proof.Laws.RoundTrip.swapHoldArrive (id : Nat) (c : Nat) : Statement (.swapHoldArrive id c) := by
  intro _ _ h; cases h

theorem Sys2Proof.Laws.RoundTrip.swapHoldAck (id : Nat) (c : Nat) : Statement (.swapHoldAck id c) := by
  intro _ _ h; cases h

theorem Sys2Proof.Laws.RoundTrip.swapRun (id : Nat) : Statement (.swapRun id) := by
  intro _ _ h; cases h

theorem Sys2Proof.Laws.RoundTrip.swapBurst (id : Nat) : Statement (.swapBurst id) := by
  intro _ _ h; cases h

theorem Sys2Proof.Laws.RoundTrip.swapDone (id : Nat) : Statement (.swapDone id) := by
  intro _ _ h; cases h

theorem Sys2Proof.Laws.RoundTrip.swapLiftArrive (id : Nat) (c : Nat) : Statement (.swapLiftArrive id c) := by
  intro _ _ h; cases h

theorem Sys2Proof.Laws.RoundTrip.residencyFetchComplete (id : Nat) : Statement (.residencyFetchComplete id) := by
  intro _ _ h; cases h

theorem Sys2Proof.Laws.RoundTrip.residencyFetchFail (id : Nat) : Statement (.residencyFetchFail id) := by
  intro _ _ h; cases h

theorem Sys2Proof.Laws.RoundTrip.rangeDropArrive (id : Nat) (tbl : Nat) : Statement (.rangeDropArrive id tbl) := by
  intro _ _ h; cases h

theorem Sys2Proof.Laws.RoundTrip.rangeDropAck (id : Nat) (tbl : Nat) : Statement (.rangeDropAck id tbl) := by
  intro _ _ h; cases h

theorem Sys2Proof.Laws.RoundTrip.rangeEntryInvalid (tbl : Nat) (i : Nat) : Statement (.rangeEntryInvalid tbl i) := by
  intro _ _ h; cases h

theorem Sys2Proof.Laws.RoundTrip.rgresUpdateArrive (id : Nat) (tbl : Nat) : Statement (.rgresUpdateArrive id tbl) := by
  intro _ _ h; cases h

theorem Sys2Proof.Laws.RoundTrip.compactorTake : Statement .compactorTake := by
  intro _ _ h; cases h

theorem Sys2Proof.Laws.RoundTrip.compactorDrainDone : Statement .compactorDrainDone := by
  intro _ _ h; cases h

theorem Sys2Proof.Laws.RoundTrip.compactorMoveDone : Statement .compactorMoveDone := by
  intro _ _ h; cases h

theorem Sys2Proof.Laws.RoundTrip.gateArrive (t : Nat) (u : GateUnit) (opn : Bool) : Statement (.gateArrive t u opn) := by
  intro _ _ h; cases h

theorem Sys2Proof.Laws.RoundTrip.gateAck (t : Nat) : Statement (.gateAck t) := by
  intro _ _ h; cases h

theorem Sys2Proof.Laws.RoundTrip.launchTakeEntry : Statement .launchTakeEntry := by
  intro _ _ h; cases h

theorem Sys2Proof.Laws.RoundTrip.launchInstallDone : Statement .launchInstallDone := by
  intro _ _ h; cases h

theorem Sys2Proof.Laws.RoundTrip.freeze (cols : Nat) (isls : Nat) : Statement (.freeze cols isls) := by
  intro _ _ h; cases h

theorem Sys2Proof.Laws.RoundTrip.stopTheColumn (cols : Nat) (isls : Nat) : Statement (.stopTheColumn cols isls) := by
  intro _ _ h; cases h

theorem Sys2Proof.Laws.RoundTrip.release (cols : Nat) (isls : Nat) : Statement (.release cols isls) := by
  intro _ _ h; cases h

theorem Sys2Proof.Laws.RoundTrip.step (cols : Nat) (core : Nat) : Statement (.step cols core) := by
  intro _ _ h; cases h

theorem Sys2Proof.Laws.RoundTrip.partitionGate (p : Partition) : Statement (.partitionGate p) := by
  intro _ _ h; cases h

theorem Sys2Proof.Laws.RoundTrip.stepEnd (c : Nat) : Statement (.stepEnd c) := by
  intro _ _ h; cases h

theorem Sys2Proof.Laws.RoundTrip.freezePinAssert : Statement .freezePinAssert := by
  intro _ _ h; cases h

theorem Sys2Proof.Laws.RoundTrip.freezePinRelease : Statement .freezePinRelease := by
  intro _ _ h; cases h

theorem Sys2Proof.Laws.RoundTrip.debugHalt (t : Nat) : Statement (.debugHalt t) := by
  intro _ _ h; cases h

theorem Sys2Proof.Laws.RoundTrip.debugResume (t : Nat) : Statement (.debugResume t) := by
  intro _ _ h; cases h

theorem Sys2Proof.Laws.RoundTrip.debugWrite (off : Nat) (v : W64) : Statement (.debugWrite off v) := by
  intro _ _ h; cases h

theorem Sys2Proof.Laws.RoundTrip.registerWrite (off : Nat) (size : Nat) (v : W64) : Statement (.registerWrite off size v) := by
  intro _ _ h; cases h

theorem Sys2Proof.Laws.RoundTrip.pointerDropRead (off : Nat) (size : Nat) : Statement (.pointerDropRead off size) := by
  intro _ _ h; cases h

theorem Sys2Proof.Laws.RoundTrip.ringBaseWrite (err : Bool) (v : W64) : Statement (.ringBaseWrite err v) := by
  intro _ _ h; cases h

theorem Sys2Proof.Laws.RoundTrip.intstatWrite (en : Bool) (v : W64) : Statement (.intstatWrite en v) := by
  intro _ _ h; cases h

theorem Sys2Proof.Laws.RoundTrip.rcctlWrite (v : W64) : Statement (.rcctlWrite v) := by
  intro _ _ h; cases h

theorem Sys2Proof.Laws.RoundTrip.hostBar2Read (off : Nat) (n : Nat) : Statement (.hostBar2Read off n) := by
  intro _ _ h; cases h

theorem Sys2Proof.Laws.RoundTrip.hostUnsupportedRequest (isRead : Bool) : Statement (.hostUnsupportedRequest isRead) := by
  intro _ _ h; cases h

theorem Sys2Proof.Laws.RoundTrip.hostWindowTimeout (seq : Nat) : Statement (.hostWindowTimeout seq) := by
  intro _ _ h; cases h

theorem Sys2Proof.Laws.RoundTrip.hostWindowStoreFail (seq : Nat) : Statement (.hostWindowStoreFail seq) := by
  intro _ _ h; cases h

theorem Sys2Proof.Laws.RoundTrip.chainPacket (src : Nat) (dst : Nat) (seq : Nat) (op : ChainOp) : Statement (.chainPacket src dst seq op) := by
  intro _ _ h; cases h

theorem Sys2Proof.Laws.RoundTrip.chainLinkDown (west : Bool) : Statement (.chainLinkDown west) := by
  intro _ _ h; cases h

theorem Sys2Proof.Laws.RoundTrip.timeSyncSend : Statement .timeSyncSend := by
  intro _ _ h; cases h

theorem Sys2Proof.Laws.RoundTrip.timeSyncReceive (v : Nat) : Statement (.timeSyncReceive v) := by
  intro _ _ h; cases h

theorem Sys2Proof.Laws.RoundTrip.setret (c : Nat) (mask : BitVec 32) : Statement (.setret c mask) := by
  intro _ _ h; cases h

theorem Sys2Proof.Laws.RoundTrip.patrol (en : Bool) : Statement (.patrol en) := by
  intro _ _ h; cases h

theorem Sys2Proof.Laws.RoundTrip.repair (c : Nat) (bank : Nat) (row : Nat) : Statement (.repair c bank row) := by
  intro _ _ h; cases h

theorem Sys2Proof.Laws.RoundTrip.scanmap (off : Nat) (n : Nat) : Statement (.scanmap off n) := by
  intro _ _ h; cases h

theorem Sys2Proof.Laws.RoundTrip.powercap (watts : Nat) : Statement (.powercap watts) := by
  intro _ _ h; cases h

theorem Sys2Proof.Laws.RoundTrip.chainnum (pkg : BitVec 4) (count : BitVec 4) : Statement (.chainnum pkg count) := by
  intro _ _ h; cases h

theorem Sys2Proof.Laws.RoundTrip.reset : Statement .reset := by
  intro _ _ h; cases h

theorem Sys2Proof.Laws.RoundTrip.replay (on : Bool) : Statement (.replay on) := by
  intro _ _ h; cases h

theorem Sys2Proof.Laws.RoundTrip.attest (nonce : List Byte) : Statement (.attest nonce) := by
  intro _ _ h; cases h

theorem Sys2Proof.Laws.RoundTrip.extend (i : Nat) (digest : List Byte) : Statement (.extend i digest) := by
  intro _ _ h; cases h

theorem Sys2Proof.Laws.RoundTrip.firmwareUpdate (image : List Byte) : Statement (.firmwareUpdate image) := by
  intro _ _ h; cases h

theorem Sys2Proof.Laws.RoundTrip.platformMonitoring (sensor : Nat) : Statement (.platformMonitoring sensor) := by
  intro _ _ h; cases h

theorem Sys2Proof.Laws.RoundTrip.pldmBase (cmd : Nat) : Statement (.pldmBase cmd) := by
  intro _ _ h; cases h

theorem Sys2Proof.Laws.RoundTrip.conventionalReset : Statement .conventionalReset := by
  intro _ _ h; cases h

theorem Sys2Proof.Laws.RoundTrip.hotReset : Statement .hotReset := by
  intro _ _ h; cases h

theorem Sys2Proof.Laws.RoundTrip.functionLevelReset : Statement .functionLevelReset := by
  intro _ _ h; cases h

theorem Sys2Proof.Laws.RoundTrip.bootStage (err : BitVec 8) : Statement (.bootStage err) := by
  intro _ _ h; cases h

theorem Sys2Proof.Laws.RoundTrip.powerWindow (watts : Nat) : Statement (.powerWindow watts) := by
  intro _ _ h; cases h

theorem Sys2Proof.Laws.RoundTrip.clockStepChange (mhz : Nat) : Statement (.clockStepChange mhz) := by
  intro _ _ h; cases h

theorem Sys2Proof.Laws.RoundTrip.coolingLoopLost (top : Bool) (sensor : Nat) (temp : Nat) : Statement (.coolingLoopLost top sensor temp) := by
  intro _ _ h; cases h

theorem Sys2Proof.Laws.RoundTrip.coolingLoopRestored (top : Bool) (sensor : Nat) (temp : Nat) : Statement (.coolingLoopRestored top sensor temp) := by
  intro _ _ h; cases h

theorem Sys2Proof.Laws.RoundTrip.junctionHot (sensor : Nat) (temp : Nat) : Statement (.junctionHot sensor temp) := by
  intro _ _ h; cases h

theorem Sys2Proof.Laws.RoundTrip.replayApply : Statement .replayApply := by
  intro _ _ h; cases h

theorem Sys2Proof.Laws.RoundTrip.transitSenderPacket (c : Nat) : Statement (.transitSenderPacket c) := by
  intro _ _ h; cases h

theorem Sys2Proof.Laws.RoundTrip.arrayRequestComplete (k : Nat) (n : Nat) (id : Nat) : Statement (.arrayRequestComplete k n id) := by
  intro _ _ h; cases h

theorem Sys2Proof.Laws.RoundTrip.newClockRuns : Statement .newClockRuns := by
  intro _ _ h; cases h

theorem Sys2Proof.Laws.RoundTrip.ucieLinkRetrain (west : Bool) (width : Nat) : Statement (.ucieLinkRetrain west width) := by
  intro _ _ h; cases h

theorem Sys2Proof.Laws.RoundTrip.deviceControl2Write (v : Nat) : Statement (.deviceControl2Write v) := by
  intro _ _ h; cases h
end

