-- ==== Sys2Proof/Laws/Sound.lean ====
section
/-! SUPPORT. The invariant of `Safety` through updates of the state: one lemma per kind of update, which the lemmas on the model's
operations cite. -/
namespace Sys2Proof.Machine
open Sys2Proof.Safety

/-- An outcome keeps the invariant when its next state, if there is one, has it. -/
def OutSound (o : Out) : Prop := ∀ t, o = .next t → Sound t

theorem sound_next {s : State} (h : Sound s) : OutSound (.next s) := by intro t ht; cases ht; exact h
theorem sound_fault (f : Fault) : OutSound (.fault f) := by intro t ht; cases ht
theorem sound_refused (f : Refusal) : OutSound (.refused f) := by intro t ht; cases ht

theorem sound_ite {c : Prop} [Decidable c] {a b : State} (ha : c → Sound a) (hb : ¬c → Sound b) : Sound (if c then a else b) := by
  split
  · exact ha ‹_›
  · exact hb ‹_›

theorem out_ite {c : Prop} [Decidable c] {a b : Out} (ha : c → OutSound a) (hb : ¬c → OutSound b) : OutSound (if c then a else b) := by
  split
  · exact ha ‹_›
  · exact hb ‹_›

/-- The invariant looks at the memories and the cores alone. -/
theorem sound_mk {t : State} (h : Sound t) (a1 a2 a3 a5 a6 a7 a9 a10 a11 a12 a13 a14 a15) :
    Sound ⟨a1, a2, a3, t.cores, a5, a6, a7, t.mem, a9, a10, a11, a12, a13, a14, a15⟩ := h

theorem sound_foldl {α : Type} {f : State → α → State} (hf : ∀ s x, Sound s → Sound (f s x)) (l : List α) {s : State} (h : Sound s) :
    Sound (l.foldl f s) := by
  induction l generalizing s with
  | nil => exact h
  | cons x xs ih => exact ih (hf s x h)

/-- A fold over the pairs of a state and something else. -/
theorem sound_foldl_fst {α β : Type} {f : State × β → α → State × β} (hf : ∀ r x, Sound r.1 → Sound (f r x).1) (l : List α) {r : State × β}
    (h : Sound r.1) : Sound (l.foldl f r).1 := by
  induction l generalizing r with
  | nil => exact h
  | cons x xs ih => exact ih (hf r x h)

theorem core_putCore (s : State) (q : Nat) (x : Core) (p : Nat) : (s.putCore q x).core p = if p = q then x else s.core p := by
  simp [State.core, State.putCore, sget_sset]

theorem sound_putCore {s : State} (h : Sound s) (q : Nat) (x : Core) (hx : x.tq.length ≤ 16) : Sound (s.putCore q x) := by
  refine ⟨h.1, fun p => ?_⟩
  rw [core_putCore]
  split
  · exact hx
  · exact h.2 p

theorem sound_modCore {s : State} (h : Sound s) (q : Nat) (f : Core → Core) (hf : ∀ c, c.tq.length ≤ 16 → (f c).tq.length ≤ 16) :
    Sound (s.modCore q f) := sound_putCore h q _ (hf _ (h.2 q))

/-- The copy commands of the cores take no part in the invariant. -/
theorem sound_copies {s : State} (h : Sound s) (f : List CopyCmd → List CopyCmd) (hf : f [] = []) :
    Sound { s with cores := s.cores.map (fun q => (q.1, { q.2 with copies := f q.2.copies })) } := by
  refine ⟨h.1, fun q => ?_⟩
  show (sget ({} : Core) (s.cores.map (fun q => (q.1, { q.2 with copies := f q.2.copies }))) q).tq.length ≤ 16
  rw [sget_map ({} : Core) (fun x => { x with copies := f x.copies }) (by rw [hf])]
  exact h.2 q

theorem wf_iff (m : Memory) : m.wf = true ↔ (swf 0 m.bytes = true ∧ swf none m.host = true) ∧ swf false m.fe = true ∧ swf .clean m.marks = true ∧
    swf .clean m.blocks = true := by
  simp only [Memory.wf, Bool.and_eq_true, and_assoc]

theorem wf_bytes {m : Memory} (h : m.wf = true) (a : Nat) (b : Byte) : ({ m with bytes := sset 0 m.bytes a b } : Memory).wf = true := by
  rw [wf_iff] at h ⊢
  exact ⟨⟨swf_sset _ _ _ _ h.1.1, h.1.2⟩, h.2⟩

theorem wf_host {m : Memory} (h : m.wf = true) (a : Nat) (b : Option Byte) : ({ m with host := sset none m.host a b } : Memory).wf = true := by
  rw [wf_iff] at h ⊢
  exact ⟨⟨h.1.1, swf_sset _ _ _ _ h.1.2⟩, h.2⟩

theorem wf_fe {m : Memory} (h : m.wf = true) (a : Nat) (b : Bool) : ({ m with fe := sset false m.fe a b } : Memory).wf = true := by
  rw [wf_iff] at h ⊢
  exact ⟨h.1, swf_sset _ _ _ _ h.2.1, h.2.2⟩

theorem wf_marks {m : Memory} (h : m.wf = true) (a : Nat) (b : Mark) : ({ m with marks := sset .clean m.marks a b } : Memory).wf = true := by
  rw [wf_iff] at h ⊢
  exact ⟨h.1, h.2.1, swf_sset _ _ _ _ h.2.2.1, h.2.2.2⟩

theorem wf_blocks {m : Memory} (h : m.wf = true) (b : Sparse Mark) (hb : swf .clean b = true) : ({ m with blocks := b } : Memory).wf = true := by
  rw [wf_iff] at h ⊢
  exact ⟨h.1, h.2.1, h.2.2.1, hb⟩

/-- An update of the memories that keeps their form. -/
theorem sound_mem {s : State} (h : Sound s) (m : Memory) (hm : m.wf = true) : Sound { s with mem := m } := ⟨hm, h.2⟩

end Sys2Proof.Machine
end

