-- ==== Sys2Proof/Laws/SoundState.lean ====
section
/-! SUPPORT. The invariant of `Safety` through the operations of `Machine/State`. -/
namespace Sys2Proof.Machine
open Sys2Proof.Safety


end Sys2Proof.Machine
end

