-- ==== Sys2Proof/Laws/SoundOps.lean ====
section
/-! SUPPORT. The invariant of `Safety` through the operations of `Machine/Ops`. -/
namespace Sys2Proof.Machine
open Sys2Proof.Safety

theorem State.putThr_sound {s : State} (h : Sound s) (t : Nat) (x : Thread)  : Sound (s.putThr t x) := by
  unfold State.putThr
  with_reducible repeat' first
    | intro _ | assumption | apply sound_next | apply sound_ite | apply out_ite | apply sound_mk | split | dsimp only

theorem State.putCol_sound {s : State} (h : Sound s) (c : Nat) (x : Col)  : Sound (s.putCol c x) := by
  unfold State.putCol
  with_reducible repeat' first
    | intro _ | assumption | apply sound_next | apply sound_ite | apply out_ite | apply sound_mk | split | dsimp only

theorem State.putIsl_sound {s : State} (h : Sound s) (k : Nat) (x : Isl)  : Sound (s.putIsl k x) := by
  unfold State.putIsl
  with_reducible repeat' first
    | intro _ | assumption | apply sound_next | apply sound_ite | apply out_ite | apply sound_mk | split | dsimp only

theorem State.modThr_sound {s : State} (h : Sound s) (t : Nat) (f : Thread → Thread)  : Sound (s.modThr t f) := by
  unfold State.modThr
  with_reducible repeat' first
    | intro _ | assumption | apply sound_next | apply sound_ite | apply out_ite | apply State.putThr_sound | split | dsimp only

theorem State.modCol_sound {s : State} (h : Sound s) (c : Nat) (f : Col → Col)  : Sound (s.modCol c f) := by
  unfold State.modCol
  with_reducible repeat' first
    | intro _ | assumption | apply sound_next | apply sound_ite | apply out_ite | apply State.putCol_sound | split | dsimp only

theorem State.modIsl_sound {s : State} (h : Sound s) (k : Nat) (f : Isl → Isl)  : Sound (s.modIsl k f) := by
  unfold State.modIsl
  with_reducible repeat' first
    | intro _ | assumption | apply sound_next | apply sound_ite | apply out_ite | apply State.putIsl_sound | split | dsimp only

theorem State.post_sound {s : State} (h : Sound s) (due : Nat) (e : Event)  : Sound (s.post due e) := by
  unfold State.post
  with_reducible repeat' first
    | intro _ | assumption | apply sound_next | apply sound_ite | apply out_ite | apply sound_mk | split | dsimp only

theorem State.atOnce_sound {s : State} (h : Sound s) (e : Event)  : Sound (s.atOnce e) := by
  unfold State.atOnce
  with_reducible repeat' first
    | intro _ | assumption | apply sound_next | apply sound_ite | apply out_ite | apply sound_mk | split | dsimp only

theorem State.after_sound {s : State} (h : Sound s) (n : Nat) (e : Event)  : Sound (s.after n e) := by
  unfold State.after
  with_reducible repeat' first
    | intro _ | assumption | apply sound_next | apply sound_ite | apply out_ite | apply State.post_sound | split | dsimp only

theorem State.fresh_sound {s : State} (h : Sound s) : Sound s.fresh.2 := h

theorem State.later_sound {s : State} (h : Sound s) (base : Nat) (e : Event)  : Sound (s.later base e) := by
  unfold State.later
  with_reducible repeat' first
    | intro _ | assumption | apply sound_next | apply sound_ite | apply out_ite | apply State.after_sound | apply State.fresh_sound | split
    | dsimp only

theorem State.classZero_sound {s : State} (h : Sound s) (a b : Nat) (e : Event)  : Sound (s.classZero a b e) := by
  unfold State.classZero
  with_reducible repeat' first
    | intro _ | assumption | apply sound_next | apply sound_ite | apply out_ite | apply State.fresh_sound | apply State.post_sound
    | apply sound_foldl | split | dsimp only

theorem State.tell_sound {s : State} (h : Sound s) (m : Msg)  : Sound (s.tell m) := by
  unfold State.tell
  with_reducible repeat' first
    | intro _ | assumption | apply sound_next | apply sound_ite | apply out_ite | apply sound_mk | split | dsimp only

theorem State.noteStart_sound {s : State} (h : Sound s)   : Sound (s.noteStart) := by
  unfold State.noteStart
  with_reducible repeat' first
    | intro _ | assumption | apply sound_next | apply sound_ite | apply out_ite | apply sound_mk | split | dsimp only

theorem State.interrupt_sound {s : State} (h : Sound s) (n : Nat) : Sound (s.interrupt n) := by
  unfold State.interrupt
  apply sound_ite <;> intro _
  · apply State.tell_sound
    exact h
  · exact h

theorem State.wr_sound {s : State} (h : Sound s) (r : Reg) (v : W64)  : Sound (s.wr r v) := by
  unfold State.wr
  with_reducible repeat' first
    | intro _ | assumption | apply sound_next | apply sound_ite | apply out_ite | apply State.modThr_sound | split | dsimp only

theorem State.wrV_sound {s : State} (h : Sound s) (r : VReg) (v : Vec)  : Sound (s.wrV r v) := by
  unfold State.wrV
  with_reducible repeat' first
    | intro _ | assumption | apply sound_next | apply sound_ite | apply out_ite | apply State.modThr_sound | split | dsimp only

theorem State.wrP_sound {s : State} (h : Sound s) (p : PReg) (v : Bool)  : Sound (s.wrP p v) := by
  unfold State.wrP
  with_reducible repeat' first
    | intro _ | assumption | apply sound_next | apply sound_ite | apply out_ite | apply State.modThr_sound | split | dsimp only

theorem State.count_sound {s : State} (h : Sound s) (t e : Nat)  : Sound (s.count t e) := by
  unfold State.count
  with_reducible repeat' first
    | intro _ | assumption | apply sound_next | apply sound_ite | apply out_ite | apply State.modCol_sound | split | dsimp only

theorem State.finishAt_sound {s : State} (h : Sound s) (pc : W64)  : Sound (s.finishAt pc) := by
  unfold State.finishAt
  with_reducible repeat' first
    | intro _ | assumption | apply sound_next | apply sound_ite | apply out_ite | apply State.count_sound | apply State.modThr_sound | split
    | dsimp only

theorem State.finish_sound {s : State} (h : Sound s)   : Sound (s.finish) := by
  unfold State.finish
  with_reducible repeat' first
    | intro _ | assumption | apply sound_next | apply sound_ite | apply out_ite | apply State.finishAt_sound | split | dsimp only

theorem State.park_sound {s : State} (h : Sound s) (t : Nat) (r : Park) (w : Wait)  : Sound (s.park t r w) := by
  unfold State.park
  with_reducible repeat' first
    | intro _ | assumption | apply sound_next | apply sound_ite | apply out_ite | apply State.modThr_sound | split | dsimp only

theorem State.parkMe_sound {s : State} (h : Sound s) (r : Park) (w : Wait)  : Sound (s.parkMe r w) := by
  unfold State.parkMe
  with_reducible repeat' first
    | intro _ | assumption | apply sound_next | apply sound_ite | apply out_ite | apply State.park_sound | split | dsimp only

theorem State.wake_sound {s : State} (h : Sound s) (t : Nat)  : Sound (s.wake t) := by
  unfold State.wake
  with_reducible repeat' first
    | intro _ | assumption | apply sound_next | apply sound_ite | apply out_ite | apply State.modThr_sound | split | dsimp only

theorem State.completeParked_sound {s : State} (h : Sound s) (t : Nat) (f : Thread → Thread)  : Sound (s.completeParked t f) := by
  unfold State.completeParked
  with_reducible repeat' first
    | intro _ | assumption | apply sound_next | apply sound_ite | apply out_ite | apply State.count_sound | apply State.modThr_sound
    | apply State.wake_sound | split | dsimp only

theorem State.emptySlot_sound {s : State} (h : Sound s) (t : Nat)  : Sound (s.emptySlot t) := by
  unfold State.emptySlot
  with_reducible repeat' first
    | intro _ | assumption | apply sound_next | apply sound_ite | apply out_ite | apply State.modThr_sound | split | dsimp only

theorem State.startThread_sound {s : State} (h : Sound s) (t : Nat) (pc : W64) (f : Thread → Thread)  : Sound (s.startThread t pc f) := by
  unfold State.startThread
  with_reducible repeat' first
    | intro _ | assumption | apply sound_next | apply sound_ite | apply out_ite | apply State.modThr_sound | split | dsimp only

theorem State.wakePops_sound {s : State} (h : Sound s) (q : Nat)  : Sound (s.wakePops q) := by
  unfold State.wakePops
  with_reducible repeat' first
    | intro _ | assumption | apply sound_next | apply sound_ite | apply out_ite | apply State.wake_sound | apply sound_foldl | split
    | dsimp only

theorem State.startHandler_sound {s : State} (h : Sound s) (q h : Nat)  : Sound (s.startHandler q h) := by
  unfold State.startHandler
  with_reducible repeat' first
    | intro _ | assumption | apply sound_next | apply sound_ite | apply out_ite | apply State.modThr_sound | apply State.startThread_sound
    | split | dsimp only

theorem State.entered_sound {s : State} (h : Sound s) (q : Nat) (r : TrapRec)  : Sound (s.entered q r) := by
  unfold State.entered
  with_reducible repeat' first
    | intro _ | assumption | apply sound_next | apply sound_ite | apply out_ite | apply State.count_sound | apply State.modThr_sound
    | apply State.startHandler_sound | apply State.wakePops_sound | split | dsimp only

theorem State.waitsRoom_sound {s : State} (h : Sound s) (q : Nat) (r : TrapRec)  : Sound (s.waitsRoom q r) := by
  unfold State.waitsRoom
  with_reducible repeat' first
    | intro _ | assumption | apply sound_next | apply sound_ite | apply out_ite | apply State.modThr_sound | apply State.park_sound | split
    | dsimp only

theorem Core.setRecords_length (c : Core) (l : List TrapRec) : (c.setRecords l).tq.length ≤ 16 := by
  simp only [Core.setRecords, List.length_take]
  exact Nat.min_le_left _ _

theorem Core.enqueue_length (c : Core) (now : Nat) (r : TrapRec) : (c.enqueue now r).tq.length ≤ 16 := by
  simp only [Core.enqueue, Core.setRecords, List.length_take]
  exact Nat.min_le_left _ _

theorem State.enterRecord_sound {s : State} (h : Sound s) (q : Nat) (r : TrapRec) : Sound (s.enterRecord q r) := by
  have h1 : Sound (s.modCore q (fun c => c.enqueue s.sched.cycle r)) := sound_putCore h q _ (Core.enqueue_length _ _ _)
  unfold State.enterRecord
  dsimp only
  generalize s.modCore q (fun c => c.enqueue s.sched.cycle r) = s1 at h1
  with_reducible repeat' first
    | intro _ | assumption | apply sound_ite | apply State.entered_sound | apply State.waitsRoom_sound | apply sound_foldl

theorem core_modCore (s : State) (q : Nat) (f : Core → Core) (p : Nat) :
    (s.modCore q f).core p = if p = q then f (s.core q) else s.core p := core_putCore s q _ p

theorem State.admitWaiting_sound {s : State} (h : Sound s) (q : Nat) : Sound (s.admitWaiting q) := by
  unfold State.admitWaiting
  apply sound_foldl
  · exact fun _ _ h => State.entered_sound h _ _
  · exact sound_putCore h q _ (Core.setRecords_length _ _)

theorem State.freezeTrigger_sound {s : State} (h : Sound s) (c cause : Nat)  : Sound (s.freezeTrigger c cause) := by
  unfold State.freezeTrigger
  with_reducible repeat' first
    | intro _ | assumption | apply sound_next | apply sound_ite | apply out_ite | apply State.modCol_sound | split | dsimp only

theorem State.trap_sound {s : State} (h : Sound s) (t : Nat) (i : TrapInfo) : Sound (s.trap t i) := by
  unfold State.trap
  have h1 : Sound ((s.freezeTrigger (colOf t) i.cause).modThr t (fun x => { x with resume := false, reissue := false, retrans := false })) :=
    State.modThr_sound (State.freezeTrigger_sound h _ _) _ _
  dsimp only
  generalize (s.freezeTrigger (colOf t) i.cause).modThr t (fun x => { x with resume := false, reissue := false, retrans := false }) = s1 at h1
  generalize s.record t i = r
  with_reducible apply sound_ite <;> intro _
  · with_reducible apply State.interrupt_sound
    with_reducible apply State.modCol_sound
    exact sound_modCore h1 _ _ (fun _ hc => hc)
  · exact State.enterRecord_sound h1 _ _

theorem State.trapMe_sound {s : State} (h : Sound s) (i : TrapInfo)  : Sound (s.trapMe i) := by
  unfold State.trapMe
  with_reducible repeat' first
    | intro _ | assumption | apply sound_next | apply sound_ite | apply out_ite | apply State.trap_sound | split | dsimp only

theorem State.supervisor_sound {s : State} (h : Sound s) (k : State → State) (hk : ∀ (x0 : State), Sound x0 → Sound (k x0)) : Sound (s.supervisor k) := by
  unfold State.supervisor
  with_reducible repeat' first
    | intro _ | assumption | apply sound_next | apply sound_ite | apply out_ite | apply hk | apply State.trapMe_sound | split | dsimp only

end Sys2Proof.Machine
end

