-- ==== Sys2Proof/Laws/SoundOperands.lean ====
section
/-! SUPPORT. The invariant of `Safety` through the operations of `Machine/Operands`. -/
namespace Sys2Proof.Machine
open Sys2Proof.Safety

theorem State.raiseFlags_sound {s : State} (h : Sound s) (f : FFlags)  : Sound (s.raiseFlags f) := by
  unfold State.raiseFlags
  with_reducible repeat' first
    | intro _ | assumption | apply sound_next | apply sound_ite | apply out_ite | apply State.modThr_sound | split | dsimp only

theorem State.bin_sound {s : State} (h : Sound s) (d a b : Reg) (f : W64 → W64 → W64)  : Sound (s.bin d a b f) := by
  unfold State.bin
  with_reducible repeat' first
    | intro _ | assumption | apply sound_next | apply sound_ite | apply out_ite | apply State.finish_sound | apply State.wr_sound | split
    | dsimp only

theorem State.una_sound {s : State} (h : Sound s) (d a : Reg) (f : W64 → W64)  : Sound (s.una d a f) := by
  unfold State.una
  with_reducible repeat' first
    | intro _ | assumption | apply sound_next | apply sound_ite | apply out_ite | apply State.finish_sound | apply State.wr_sound | split
    | dsimp only

theorem State.fpResult_sound {s : State} (h : Sound s) (d : Reg) (r : Nat × FFlags)  : Sound (s.fpResult d r) := by
  unfold State.fpResult
  with_reducible repeat' first
    | intro _ | assumption | apply sound_next | apply sound_ite | apply out_ite | apply State.finish_sound | apply State.raiseFlags_sound
    | apply State.wr_sound | split | dsimp only

theorem State.branch_sound {s : State} (h : Sound s) (off : BitVec 21) (k : State → State) (hk : ∀ (x0 : State), Sound x0 → Sound (k x0)) : Sound (s.branch off k) := by
  unfold State.branch
  with_reducible repeat' first
    | intro _ | assumption | apply sound_next | apply sound_ite | apply out_ite | apply hk | apply State.finishAt_sound
    | apply State.trapMe_sound | split | dsimp only

theorem State.vecResult_sound {s : State} (h : Sound s) (g : PReg) (d : VReg) (v : Vec)  : Sound (s.vecResult g d v) := by
  unfold State.vecResult
  with_reducible repeat' first
    | intro _ | assumption | apply sound_next | apply sound_ite | apply out_ite | apply State.finish_sound | apply State.wrV_sound | split
    | dsimp only

theorem State.vecInt_sound {s : State} (h : Sound s) (t : LaneType) (g : PReg) (d a b : VReg) (f : Nat → Nat → Nat → Nat)  : Sound (s.vecInt t g d a b f) := by
  unfold State.vecInt
  with_reducible repeat' first
    | intro _ | assumption | apply sound_next | apply sound_ite | apply out_ite | apply State.vecResult_sound | split | dsimp only

theorem State.vecFp_sound {s : State} (h : Sound s) (t : LaneType) (g : PReg) (d : VReg) (f : Nat → Nat × FFlags)  : Sound (s.vecFp t g d f) := by
  unfold State.vecFp
  with_reducible repeat' first
    | intro _ | assumption | apply sound_next | apply sound_ite | apply out_ite | apply State.count_sound | apply State.finish_sound
    | apply State.raiseFlags_sound | apply State.wrV_sound | split | dsimp only

end Sys2Proof.Machine
end

