-- ==== Sys2Proof/Laws/SoundMem.lean ====
section
/-! SUPPORT. The invariant of `Safety` through the operations of `Machine/Mem`. -/
namespace Sys2Proof.Machine
open Sys2Proof.Safety

theorem State.putByte_sound {s : State} (h : Sound s) (g : Nat) (b : Byte) : Sound (s.putByte g b) := by
  unfold State.putByte
  split
  · exact sound_mem h _ (wf_host h.1 _ _)
  · exact sound_mem h _ (wf_bytes h.1 _ _)

theorem State.writeN_sound {s : State} (h : Sound s) (g v n : Nat) : Sound (s.writeN g v n) := by
  induction n generalizing s g v with
  | zero => exact h
  | succ n ih => exact ih (State.putByte_sound h _ _) _ _

theorem State.setFull_sound {s : State} (h : Sound s) (g : Nat) (f : Bool) : Sound (s.setFull g f) := sound_mem h _ (wf_fe h.1 _ _)

theorem State.setAll_sound {s : State} (h : Sound s) (g n : Nat) (f : Bool)  : Sound (s.setAll g n f) := by
  unfold State.setAll
  with_reducible repeat' first
    | intro _ | assumption | apply sound_next | apply sound_ite | apply out_ite | apply State.setFull_sound | apply sound_foldl | split
    | dsimp only

theorem State.writeClean_sound {s : State} (h : Sound s) (g v : Nat) : Sound (s.writeClean g v) := by
  unfold State.writeClean
  exact sound_mem (State.writeN_sound h _ _ _) _ (wf_marks (State.writeN_sound h _ _ _).1 _ _)

theorem State.ringWord_sound {s : State} (h : Sound s) (g v : Nat)  : Sound (s.ringWord g v) := by
  unfold State.ringWord
  with_reducible repeat' first
    | intro _ | assumption | apply sound_next | apply sound_ite | apply out_ite | apply State.writeClean_sound | apply sound_mk | split
    | dsimp only

theorem State.flushRings_sound {s : State} (h : Sound s)   : Sound (s.flushRings) := by
  unfold State.flushRings
  with_reducible repeat' first
    | intro _ | assumption | apply sound_next | apply sound_ite | apply out_ite | apply State.ringWord_sound | apply sound_foldl
    | apply sound_mk | split | dsimp only

theorem State.write4_sound {s : State} (h : Sound s) (g : Nat) (a b c d : Nat)  : Sound (s.write4 g a b c d) := by
  unfold State.write4
  with_reducible repeat' first
    | intro _ | assumption | apply sound_next | apply sound_ite | apply out_ite | apply State.ringWord_sound | split | dsimp only

theorem State.logRecord_sound {s : State} (h : Sound s) (kind place where_ syn : Nat)  : Sound (s.logRecord kind place where_ syn) := by
  unfold State.logRecord
  with_reducible repeat' first
    | intro _ | assumption | apply sound_next | apply sound_ite | apply out_ite | apply sound_mk | split | dsimp only

theorem State.countDrop_sound {s : State} (h : Sound s)   : Sound (s.countDrop) := by
  unfold State.countDrop
  with_reducible repeat' first
    | intro _ | assumption | apply sound_next | apply sound_ite | apply out_ite | apply sound_mk | split | dsimp only

theorem State.logOnce_sound {s : State} (h : Sound s) (kind key : Nat) (put : State → State) (hput : ∀ (x0 : State), Sound x0 → Sound (put x0)) : Sound (s.logOnce kind key put) := by
  unfold State.logOnce
  with_reducible repeat' first
    | intro _ | assumption | apply sound_next | apply sound_ite | apply out_ite | apply hput | apply State.countDrop_sound | apply sound_mk
    | split | dsimp only

theorem State.logError_sound {s : State} (h : Sound s) (kind g synBits : Nat) (a : Agent)  : Sound (s.logError kind g synBits a) := by
  unfold State.logError
  with_reducible repeat' first
    | intro _ | assumption | apply sound_next | apply sound_ite | apply out_ite | apply State.logOnce_sound | apply State.logRecord_sound
    | split | dsimp only

theorem State.logItem_sound {s : State} (h : Sound s) (kind unit item : Nat) (a : Agent)  : Sound (s.logItem kind unit item a) := by
  unfold State.logItem
  with_reducible repeat' first
    | intro _ | assumption | apply sound_next | apply sound_ite | apply out_ite | apply State.logOnce_sound | apply State.logRecord_sound
    | split | dsimp only

theorem State.flushLog_sound {s : State} (h : Sound s) : Sound s.flushLog := by
  unfold State.flushLog
  with_reducible apply sound_foldl
  · intro s r h
    generalize ringPut s.pkg.erring s.pkg.errptr = p
    obtain ⟨a, b⟩ := p
    cases b
    · exact sound_mk h ..
    · with_reducible apply State.interrupt_sound
      with_reducible apply State.write4_sound
      exact sound_mk h ..
  · exact sound_mk h ..

theorem State.noteItem_sound {s : State} (h : Sound s) (unit item : Nat) (m : Sparse Mark) (a : Agent) (l : List Nat) :
    Sound (s.noteItem unit item m a l).1 := by
  induction l generalizing s m with
  | nil => exact h
  | cons w ws ih =>
    unfold State.noteItem
    split
    · exact ih h _
    · exact ih (State.logItem_sound h _ _ _ _) _
    · exact ih (State.logItem_sound h _ _ _ _) _
    · exact ih h _

theorem State.setMark_sound {s : State} (h : Sound s) (g : Nat) (m : Mark) : Sound (s.setMark g m) := sound_mem h _ (wf_marks h.1 _ _)

theorem State.noteRead_sound {s : State} (h : Sound s) (g n : Nat) (a : Agent)  : Sound (s.noteRead g n a) := by
  unfold State.noteRead
  with_reducible repeat' first
    | intro _ | assumption | apply sound_next | apply sound_ite | apply out_ite | apply State.after_sound | apply State.logError_sound
    | apply sound_foldl | split | dsimp only

theorem State.markWrite_sound {s : State} (h : Sound s) (g n w : Nat) (a : Agent)  : Sound (s.markWrite g n w a) := by
  unfold State.markWrite
  with_reducible repeat' first
    | intro _ | assumption | apply sound_next | apply sound_ite | apply out_ite | apply State.logError_sound | apply State.setMark_sound
    | split | dsimp only

theorem State.corrected_sound {s : State} (h : Sound s) (g n : Nat)  : Sound (s.corrected g n) := by
  unfold State.corrected
  with_reducible repeat' first
    | intro _ | assumption | apply sound_next | apply sound_ite | apply out_ite | apply State.setMark_sound | apply sound_foldl | split
    | dsimp only

theorem State.store_sound {s : State} (h : Sound s) (g v n : Nat) (a : Agent)  : Sound (s.store g v n a) := by
  unfold State.store
  with_reducible repeat' first
    | intro _ | assumption | apply sound_next | apply sound_ite | apply out_ite | apply State.markWrite_sound | apply State.writeN_sound
    | apply sound_foldl | split | dsimp only

theorem State.poisonWord_sound {s : State} (h : Sound s) (w : Nat) (a : Agent)  : Sound (s.poisonWord w a) := by
  unfold State.poisonWord
  with_reducible repeat' first
    | intro _ | assumption | apply sound_next | apply sound_ite | apply out_ite | apply State.logError_sound | apply State.setMark_sound
    | split | dsimp only

end Sys2Proof.Machine
end

