-- ==== Sys2Proof/Laws/SoundTranslate.lean ====
section
/-! SUPPORT. The invariant of `Safety` through the operations of `Machine/Translate`. -/
namespace Sys2Proof.Machine
open Sys2Proof.Safety

theorem State.putTable_sound {s : State} (h : Sound s) (tbl : Nat) (v : Vector Entry 32)  : Sound (s.putTable tbl v) := by
  unfold State.putTable
  with_reducible repeat' first
    | intro _ | assumption | apply sound_next | apply sound_ite | apply out_ite | apply State.modIsl_sound | apply sound_mk | split
    | dsimp only

theorem State.putEntry_sound {s : State} (h : Sound s) (tbl i : Nat) (e : Entry)  : Sound (s.putEntry tbl i e) := by
  unfold State.putEntry
  with_reducible repeat' first
    | intro _ | assumption | apply sound_next | apply sound_ite | apply out_ite | apply State.putTable_sound | split | dsimp only

theorem State.startFetch_sound {s : State} (h : Sound s) (tbl i lo hi newLo newHi : Nat)  : Sound (s.startFetch tbl i lo hi newLo newHi) := by
  unfold State.startFetch
  with_reducible repeat' first
    | intro _ | assumption | apply sound_next | apply sound_ite | apply out_ite | apply State.after_sound | apply State.fresh_sound
    | apply State.putEntry_sound | apply sound_mk | split | dsimp only

theorem State.parkRange_sound {s : State} (h : Sound s) (w : Wait)  : Sound (s.parkRange w) := by
  unfold State.parkRange
  with_reducible repeat' first
    | intro _ | assumption | apply sound_next | apply sound_ite | apply out_ite | apply State.modThr_sound | apply State.parkMe_sound
    | split | dsimp only

theorem State.noAccess_sound {s : State} (h : Sound s) (va : Nat) (t : Trans) : Sound (s.noAccess va t) := by
  cases t <;> unfold State.noAccess
  all_goals
    with_reducible repeat' first
      | intro _ | assumption | apply sound_next | apply sound_ite | apply out_ite | apply State.parkRange_sound
      | apply State.startFetch_sound | apply State.trapMe_sound | split | dsimp only

theorem State.preChecked_sound {s : State} (h : Sound s) (va len align : Nat) (rd wr : Bool) (go : State → State) (hgo : ∀ (x0 : State), Sound x0 → Sound (go x0)) : Sound (s.preChecked va len align rd wr go) := by
  unfold State.preChecked
  with_reducible repeat' first
    | intro _ | assumption | apply sound_next | apply sound_ite | apply out_ite | apply hgo | apply State.trapMe_sound
    | apply State.wr_sound | split | dsimp only

theorem State.mapChecked_sound {s : State} (h : Sound s) (g len : Nat) (kind : AccKind) (va : Nat) (go : State → State) (hgo : ∀ (x0 : State), Sound x0 → Sound (go x0)) : Sound (s.mapChecked g len kind va go) := by
  unfold State.mapChecked
  with_reducible repeat' first
    | intro _ | assumption | apply sound_next | apply sound_ite | apply out_ite | apply hgo | apply State.trapMe_sound | split | dsimp only

theorem State.checked_sound {s : State} (h : Sound s) (va len align : Nat) (kind : AccKind) (k : BitVec 5) (rd wr : Bool) (go : Nat → List Via → State → State) (hgo : ∀ (x0 : Nat) (x1 : List Via) (x2 : State), Sound x2 → Sound (go x0 x1 x2)) : Sound (s.checked va len align kind k rd wr go) := by
  unfold State.checked
  with_reducible repeat' first
    | intro _ | assumption | apply sound_next | apply sound_ite | apply out_ite | apply hgo | apply State.mapChecked_sound
    | apply State.noAccess_sound | apply State.preChecked_sound | apply State.wr_sound | split | dsimp only

end Sys2Proof.Machine
end

