-- ==== Sys2Proof/Laws/SoundAccess.lean ====
section
/-! SUPPORT. The invariant of `Safety` through the operations of `Machine/Access`. -/
namespace Sys2Proof.Machine
open Sys2Proof.Safety

theorem State.dropFlight_sound {s : State} (h : Sound s) (seq : Nat)  : Sound (s.dropFlight seq) := by
  unfold State.dropFlight
  with_reducible repeat' first
    | intro _ | assumption | apply sound_next | apply sound_ite | apply out_ite | apply sound_mk | split | dsimp only

theorem State.modFlight_sound {s : State} (h : Sound s) (seq : Nat) (f : Access → Access)  : Sound (s.modFlight seq f) := by
  unfold State.modFlight
  with_reducible repeat' first
    | intro _ | assumption | apply sound_next | apply sound_ite | apply out_ite | apply sound_mk | split | dsimp only

theorem State.countSend_sound {s : State} (h : Sound s) (t g : Nat)  : Sound (s.countSend t g) := by
  unfold State.countSend
  with_reducible repeat' first
    | intro _ | assumption | apply sound_next | apply sound_ite | apply out_ite | apply State.count_sound | split | dsimp only

theorem State.flyAt_sound {s : State} (h : Sound s) (a : Access) (d : Nat)  : Sound (s.flyAt a d) := by
  unfold State.flyAt
  with_reducible repeat' first
    | intro _ | assumption | apply sound_next | apply sound_ite | apply out_ite | apply sound_foldl | apply sound_mk | split | dsimp only

theorem State.fly_sound {s : State} (h : Sound s) (a : Access)  : Sound (s.fly a) := by
  unfold State.fly
  with_reducible repeat' first
    | intro _ | assumption | apply sound_next | apply sound_ite | apply out_ite | apply State.flyAt_sound | apply State.fresh_sound | split
    | dsimp only

theorem State.present_sound {s : State} (h : Sound s) (a : Access)  : Sound (s.present a) := by
  unfold State.present
  with_reducible repeat' first
    | intro _ | assumption | apply sound_next | apply sound_ite | apply out_ite | apply State.after_sound | apply State.fly_sound
    | apply State.tell_sound | split | dsimp only

theorem State.launchAccess_sound {s : State} (h : Sound s) (a : Access)  : Sound (s.launchAccess a) := by
  unfold State.launchAccess
  with_reducible repeat' first
    | intro _ | assumption | apply sound_next | apply sound_ite | apply out_ite | apply State.countSend_sound | apply State.finish_sound
    | apply State.fresh_sound | apply State.parkMe_sound | apply State.present_sound | apply sound_mk | split | dsimp only

theorem State.acceptWaiting_sound {s : State} (h : Sound s) (t : Nat) (a : Access)  : Sound (s.acceptWaiting t a) := by
  unfold State.acceptWaiting
  with_reducible repeat' first
    | intro _ | assumption | apply sound_next | apply sound_ite | apply out_ite | apply State.completeParked_sound
    | apply State.modFlight_sound | apply State.modThr_sound | apply State.present_sound | split | dsimp only

theorem State.launchHeld_sound {s : State} (h : Sound s) (a : Access) (tbl i : Nat) (share : Bool)  : Sound (s.launchHeld a tbl i share) := by
  unfold State.launchHeld
  with_reducible repeat' first
    | intro _ | assumption | apply sound_next | apply sound_ite | apply out_ite | apply State.countSend_sound | apply State.finish_sound
    | apply State.fresh_sound | apply State.parkMe_sound | apply sound_mk | split | dsimp only

theorem State.replyTo_sound {s : State} (h : Sound s) (t g own : Nat) (r : Reply)  : Sound (s.replyTo t g own r) := by
  unfold State.replyTo
  with_reducible repeat' first
    | intro _ | assumption | apply sound_next | apply sound_ite | apply out_ite | apply State.after_sound | apply State.later_sound | split
    | dsimp only

theorem State.answer_sound {s : State} (h : Sound s) (a : Access) (twoCycles : Bool) (v bad : Nat) (r : Reply)  : Sound (s.answer a twoCycles v bad r) := by
  unfold State.answer
  with_reducible repeat' first
    | intro _ | assumption | apply sound_next | apply sound_ite | apply out_ite | apply State.modIsl_sound | apply State.replyTo_sound
    | apply State.tell_sound | split | dsimp only

theorem State.noteUse_sound {s : State} (h : Sound s) (g : Nat)  : Sound (s.noteUse g) := by
  unfold State.noteUse
  with_reducible repeat' first
    | intro _ | assumption | apply sound_next | apply sound_ite | apply out_ite | apply State.modCol_sound | apply State.modIsl_sound
    | split | dsimp only

theorem State.performRead_sound {s : State} (h : Sound s) (a : Access) (two : Bool) (r : Nat → Reply) (after_ : State → State) (hafter_ : ∀ (x0 : State), Sound x0 → Sound (after_ x0)) : Sound (s.performRead a two r after_) := by
  unfold State.performRead
  with_reducible repeat' first
    | intro _ | assumption | apply sound_next | apply sound_ite | apply out_ite | apply hafter_ | apply State.answer_sound
    | apply State.dropFlight_sound | apply State.noteRead_sound | apply State.trap_sound | split | dsimp only

theorem State.tellWait_sound {s : State} (h : Sound s) (p seq : Nat) (served : Bool)  : Sound (s.tellWait p seq served) := by
  unfold State.tellWait
  with_reducible repeat' first
    | intro _ | assumption | apply sound_next | apply sound_ite | apply out_ite | apply State.tell_sound | split | dsimp only

theorem State.joinList_sound {s : State} (h : Sound s) (a : Access)  : Sound (s.joinList a) := by
  unfold State.joinList
  with_reducible repeat' first
    | intro _ | assumption | apply sound_next | apply sound_ite | apply out_ite | apply State.after_sound | apply State.entered_sound
    | apply State.modFlight_sound | apply State.modThr_sound | apply State.tellWait_sound | split | dsimp only

theorem State.performFe_sound {s : State} (h : Sound s) (a : Access) (z : MSize) (empty : Bool) (d : Reg)  : Sound (s.performFe a z empty d) := by
  unfold State.performFe
  with_reducible repeat' first
    | intro _ | assumption | apply sound_next | apply sound_ite | apply out_ite | apply State.modThr_sound | apply State.performRead_sound
    | apply State.setAll_sound | apply State.tellWait_sound | split | dsimp only

theorem State.performVamo_sound {s : State} (h : Sound s) (a : Access) (op : VamoOp) (lt : LaneType) (d : VReg) (x : BitVec 256) (old : List W64)  : Sound (s.performVamo a op lt d x old) := by
  unfold State.performVamo
  with_reducible repeat' first
    | intro _ | assumption | apply sound_next | apply sound_ite | apply out_ite | apply State.answer_sound | apply State.dropFlight_sound
    | apply State.entered_sound | apply State.modFlight_sound | apply State.noteRead_sound | apply State.store_sound
    | apply State.trap_sound | split | dsimp only

theorem State.performRmw_sound {s : State} (h : Sound s) (a : Access) (op : Nat) (f : Fmt) (n x : Nat)  : Sound (s.performRmw a op f n x) := by
  unfold State.performRmw
  with_reducible repeat' first
    | intro _ | assumption | apply sound_next | apply sound_ite | apply out_ite | apply State.answer_sound | apply State.corrected_sound
    | apply State.dropFlight_sound | apply State.noteRead_sound | apply State.setAll_sound | apply State.store_sound | split | dsimp only

theorem State.performScalar_sound {s : State} (h : Sound s) (a : Access)  : Sound (s.performScalar a) := by
  unfold State.performScalar
  with_reducible repeat' first
    | intro _ | assumption | apply sound_next | apply sound_ite | apply out_ite | apply State.answer_sound | apply State.corrected_sound
    | apply State.dropFlight_sound | apply State.entered_sound | apply State.joinList_sound | apply State.modFlight_sound
    | apply State.noteUse_sound | apply State.performFe_sound | apply State.performRead_sound | apply State.performRmw_sound
    | apply State.performVamo_sound | apply State.replyTo_sound | apply State.setAll_sound | apply State.setFull_sound
    | apply State.store_sound | simp only [id] | split | dsimp only

theorem State.demandRetained_sound {s : State} (h : Sound s) (g : Nat)  : Sound (s.demandRetained g) := by
  unfold State.demandRetained
  with_reducible repeat' first
    | intro _ | assumption | apply sound_next | apply sound_ite | apply out_ite | apply State.modCol_sound | split | dsimp only

theorem State.releasePatrol_sound {s : State} (h : Sound s)   : Sound (s.releasePatrol) := by
  unfold State.releasePatrol
  with_reducible repeat' first
    | intro _ | assumption | apply sound_next | apply sound_ite | apply out_ite | apply sound_mk | split | dsimp only

theorem State.demand_sound {s : State} (h : Sound s) (g : Nat)  : Sound (s.demand g) := by
  unfold State.demand
  with_reducible repeat' first
    | intro _ | assumption | apply sound_next | apply sound_ite | apply out_ite | apply State.demandRetained_sound
    | apply State.releasePatrol_sound | split | dsimp only

theorem State.takeOwner_sound {s : State} (h : Sound s) (g n : Nat) (two wr : Bool)  : Sound (s.takeOwner g n two wr) := by
  unfold State.takeOwner
  with_reducible repeat' first
    | intro _ | assumption | apply sound_next | apply sound_ite | apply out_ite | apply State.modCol_sound | apply State.modIsl_sound
    | apply State.wr_sound | split | dsimp only

theorem State.noteWin_sound {s : State} (h : Sound s) (a : Access)  : Sound (s.noteWin a) := by
  unfold State.noteWin
  with_reducible repeat' first
    | intro _ | assumption | apply sound_next | apply sound_ite | apply out_ite | apply State.modCol_sound | split | dsimp only

theorem State.forfeit_sound {s : State} (h : Sound s) (a : Access)  : Sound (s.forfeit a) := by
  unfold State.forfeit
  with_reducible repeat' first
    | intro _ | assumption | apply sound_next | apply sound_ite | apply out_ite | apply State.count_sound | apply State.dropFlight_sound
    | apply State.modThr_sound | split | dsimp only

theorem State.pieceTurn_sound {s : State} (h : Sound s) (p : Piece) (wr : Bool)  : Sound ((s.pieceTurn p wr).1) := by
  unfold State.pieceTurn
  with_reducible repeat' first
    | intro _ | assumption | apply sound_next | apply sound_ite | apply out_ite | apply State.demand_sound | apply State.noteUse_sound
    | apply State.takeOwner_sound | apply State.wr_sound | split | dsimp only

theorem State.writePiece_sound {s : State} (h : Sound s) (p : Piece) (data : Sparse Byte) (full : Bool) (a : Agent)  : Sound (s.writePiece p data full a) := by
  unfold State.writePiece
  with_reducible repeat' first
    | intro _ | assumption | apply sound_next | apply sound_ite | apply out_ite | apply State.setAll_sound | apply State.store_sound | split
    | dsimp only

theorem State.gatherPieces_sound {s : State} (h : Sound s) (ag : Agent) (u : GatherUse) (l : List Piece) (got : Sparse Byte) :
    Sound (s.gatherPieces ag u l got).1 := by
  induction l generalizing s got with
  | nil => exact h
  | cons p ps ih =>
    unfold State.gatherPieces
    have h1 := State.pieceTurn_sound h p false
    generalize s.pieceTurn p false = r at h1
    obtain ⟨s1, _ | q⟩ := r
    · exact ih (State.noteRead_sound h1 _ _ _) _
    · exact ih h1 _

theorem State.scatterPieces_sound {s : State} (h : Sound s) (ag : Agent) (data : Sparse Byte) (full : Bool) (l : List Piece) :
    Sound (s.scatterPieces ag data full l).1 := by
  induction l generalizing s with
  | nil => exact h
  | cons p ps ih =>
    unfold State.scatterPieces
    have h1 := State.pieceTurn_sound h p true
    generalize s.pieceTurn p true = r at h1
    obtain ⟨s1, _ | q⟩ := r
    · exact ih (State.writePiece_sound h1 _ _ _ _)
    · exact ih h1

theorem State.writeEnabled_sound {s : State} (h : Sound s) (p : Piece) (data : List (Option Byte))  : Sound (s.writeEnabled p data) := by
  unfold State.writeEnabled
  with_reducible repeat' first
    | intro _ | assumption | apply sound_next | apply sound_ite | apply out_ite | apply State.markWrite_sound | apply State.putByte_sound
    | apply sound_foldl | split | dsimp only

theorem State.hostPieces_sound {s : State} (h : Sound s) (data : List (Option Byte)) (l : List Piece) : Sound (s.hostPieces data l).1 := by
  induction l generalizing s with
  | nil => exact h
  | cons p ps ih =>
    unfold State.hostPieces
    have h1 := State.pieceTurn_sound h p true
    generalize s.pieceTurn p true = r at h1
    obtain ⟨s1, _ | q⟩ := r
    · exact ih (State.writeEnabled_sound h1 _ _)
    · exact ih h1

theorem State.putTileByte_sound {s : State} (h : Sound s) (c t i : Nat) (b : Byte)  : Sound (s.putTileByte c t i b) := by
  unfold State.putTileByte
  with_reducible repeat' first
    | intro _ | assumption | apply sound_next | apply sound_ite | apply out_ite | apply State.modCol_sound | split | dsimp only

theorem State.fillTile_sound {s : State} (h : Sound s) (c t : Nat) (data : Sparse Byte) (n : Nat)  : Sound (s.fillTile c t data n) := by
  unfold State.fillTile
  with_reducible repeat' first
    | intro _ | assumption | apply sound_next | apply sound_ite | apply out_ite | apply State.modCol_sound | apply State.putTileByte_sound
    | apply sound_foldl | split | dsimp only

end Sys2Proof.Machine
end

