-- ==== Sys2Proof/Laws/SoundLoadStore.lean ====
section
/-! SUPPORT. The invariant of `Safety` through the operations of `Machine/LoadStore`. -/
namespace Sys2Proof.Machine
open Sys2Proof.Safety

theorem State.reportDeferred_sound {s : State} (h : Sound s) (go : State → State) (hgo : ∀ (x0 : State), Sound x0 → Sound (go x0)) : Sound (s.reportDeferred go) := by
  unfold State.reportDeferred
  with_reducible repeat' first
    | intro _ | assumption | apply sound_next | apply sound_ite | apply out_ite | apply hgo | apply State.modThr_sound
    | apply State.trap_sound | apply State.trapMe_sound | split | dsimp only

theorem State.memChecked_sound {s : State} (h : Sound s) (va len align : Nat) (sized : Bool) (kind : AccKind) (k : BitVec 5) (rd wr : Bool) (go : Nat → List Via → State → State) (hgo : ∀ (x0 : Nat) (x1 : List Via) (x2 : State), Sound x2 → Sound (go x0 x1 x2)) : Sound (s.memChecked va len align sized kind k rd wr go) := by
  unfold State.memChecked
  with_reducible repeat' first
    | intro _ | assumption | apply sound_next | apply sound_ite | apply out_ite | apply hgo | apply State.mapChecked_sound
    | apply State.noAccess_sound | apply State.preChecked_sound | apply State.reportDeferred_sound | apply State.trapMe_sound
    | apply State.wr_sound | split | dsimp only

theorem State.loadInstr_sound {s : State} (h : Sound s) (z : MSize) (b : Reg) (off : BitVec 8) (kind : AccKind) (acq : Bool) (op : AccOp) (d : Reg)  : Sound (s.loadInstr z b off kind acq op d) := by
  unfold State.loadInstr
  with_reducible repeat' first
    | intro _ | assumption | apply sound_next | apply sound_ite | apply out_ite | apply State.launchAccess_sound
    | apply State.memChecked_sound | split | dsimp only

theorem State.heldStore_sound {s : State} (h : Sound s) (a : Access) (kind : AccKind) (tbl i : Nat) (share : Bool) (begin_ : State → State) (hbegin_ : ∀ (x0 : State), Sound x0 → Sound (begin_ x0)) : Sound (s.heldStore a kind tbl i share begin_) := by
  unfold State.heldStore
  with_reducible repeat' first
    | intro _ | assumption | apply sound_next | apply sound_ite | apply out_ite | apply hbegin_ | apply State.launchHeld_sound
    | apply State.mapChecked_sound | apply State.reportDeferred_sound | split | dsimp only

theorem State.storeInstr_sound {s : State} (h : Sound s) (z : MSize) (d b : Reg) (off : BitVec 8) (full : Bool) (rel : Option Scope)  : Sound (s.storeInstr z d b off full rel) := by
  unfold State.storeInstr
  with_reducible repeat' first
    | intro _ | assumption | apply sound_next | apply sound_ite | apply out_ite | apply State.heldStore_sound
    | apply State.launchAccess_sound | apply State.memChecked_sound | apply State.parkRange_sound | apply State.preChecked_sound
    | apply State.reportDeferred_sound | apply State.startFetch_sound | apply State.store_sound | split | dsimp only

theorem execLd_sound {s : State} (h : Sound s) (z : MSize) (d b : Reg) (off : BitVec 8)  : OutSound (execLd z d b off s) := by
  unfold execLd
  with_reducible repeat' first
    | intro _ | assumption | apply sound_next | apply sound_ite | apply out_ite | apply State.loadInstr_sound | split | dsimp only

theorem execLdAcq_sound {s : State} (h : Sound s) (z : MSize) (_sc : Scope) (d b : Reg) (off : BitVec 8)  : OutSound (execLdAcq z _sc d b off s) := by
  unfold execLdAcq
  with_reducible repeat' first
    | intro _ | assumption | apply sound_next | apply sound_ite | apply out_ite | apply State.loadInstr_sound | split | dsimp only

theorem execLds_sound {s : State} (h : Sound s) (z : MSize) (d b : Reg) (off : BitVec 8)  : OutSound (execLds z d b off s) := by
  unfold execLds
  with_reducible repeat' first
    | intro _ | assumption | apply sound_next | apply sound_ite | apply out_ite | apply State.loadInstr_sound | split | dsimp only

theorem execLdu_sound {s : State} (h : Sound s) (z : MSize) (d b : Reg) (off : BitVec 8)  : OutSound (execLdu z d b off s) := by
  unfold execLdu
  with_reducible repeat' first
    | intro _ | assumption | apply sound_next | apply sound_ite | apply out_ite | apply State.loadInstr_sound | split | dsimp only

theorem execLduAcq_sound {s : State} (h : Sound s) (z : MSize) (_sc : Scope) (d b : Reg) (off : BitVec 8)  : OutSound (execLduAcq z _sc d b off s) := by
  unfold execLduAcq
  with_reducible repeat' first
    | intro _ | assumption | apply sound_next | apply sound_ite | apply out_ite | apply State.loadInstr_sound | split | dsimp only

theorem execLdse_sound {s : State} (h : Sound s) (z : MSize) (d b : Reg) (off : BitVec 8)  : OutSound (execLdse z d b off s) := by
  unfold execLdse
  with_reducible repeat' first
    | intro _ | assumption | apply sound_next | apply sound_ite | apply out_ite | apply State.loadInstr_sound | split | dsimp only

theorem execSt_sound {s : State} (h : Sound s) (z : MSize) (d b : Reg) (off : BitVec 8)  : OutSound (execSt z d b off s) := by
  unfold execSt
  with_reducible repeat' first
    | intro _ | assumption | apply sound_next | apply sound_ite | apply out_ite | apply State.storeInstr_sound | split | dsimp only

theorem execStRel_sound {s : State} (h : Sound s) (z : MSize) (sc : Scope) (d b : Reg) (off : BitVec 8)  : OutSound (execStRel z sc d b off s) := by
  unfold execStRel
  with_reducible repeat' first
    | intro _ | assumption | apply sound_next | apply sound_ite | apply out_ite | apply State.storeInstr_sound | split | dsimp only

theorem execStf_sound {s : State} (h : Sound s) (z : MSize) (d b : Reg) (off : BitVec 8)  : OutSound (execStf z d b off s) := by
  unfold execStf
  with_reducible repeat' first
    | intro _ | assumption | apply sound_next | apply sound_ite | apply out_ite | apply State.storeInstr_sound | split | dsimp only

theorem State.amoInstr_sound {s : State} (h : Sound s) (op : Nat) (z : AmoSize) (o : AmoOrd) (d a b : Reg)  : Sound (s.amoInstr op z o d a b) := by
  unfold State.amoInstr
  with_reducible repeat' first
    | intro _ | assumption | apply sound_next | apply sound_ite | apply out_ite | apply State.launchAccess_sound
    | apply State.memChecked_sound | split | dsimp only

theorem execAmoadd_sound {s : State} (h : Sound s) (z : AmoSize) (o : AmoOrd) (d a b : Reg)  : OutSound (execAmoadd z o d a b s) := by
  unfold execAmoadd
  with_reducible repeat' first
    | intro _ | assumption | apply sound_next | apply sound_ite | apply out_ite | apply State.amoInstr_sound | split | dsimp only

theorem execAmoand_sound {s : State} (h : Sound s) (z : AmoSize) (o : AmoOrd) (d a b : Reg)  : OutSound (execAmoand z o d a b s) := by
  unfold execAmoand
  with_reducible repeat' first
    | intro _ | assumption | apply sound_next | apply sound_ite | apply out_ite | apply State.amoInstr_sound | split | dsimp only

theorem execAmoor_sound {s : State} (h : Sound s) (z : AmoSize) (o : AmoOrd) (d a b : Reg)  : OutSound (execAmoor z o d a b s) := by
  unfold execAmoor
  with_reducible repeat' first
    | intro _ | assumption | apply sound_next | apply sound_ite | apply out_ite | apply State.amoInstr_sound | split | dsimp only

theorem execAmoxor_sound {s : State} (h : Sound s) (z : AmoSize) (o : AmoOrd) (d a b : Reg)  : OutSound (execAmoxor z o d a b s) := by
  unfold execAmoxor
  with_reducible repeat' first
    | intro _ | assumption | apply sound_next | apply sound_ite | apply out_ite | apply State.amoInstr_sound | split | dsimp only

theorem execAmomin_sound {s : State} (h : Sound s) (z : AmoSize) (o : AmoOrd) (d a b : Reg)  : OutSound (execAmomin z o d a b s) := by
  unfold execAmomin
  with_reducible repeat' first
    | intro _ | assumption | apply sound_next | apply sound_ite | apply out_ite | apply State.amoInstr_sound | split | dsimp only

theorem execAmomax_sound {s : State} (h : Sound s) (z : AmoSize) (o : AmoOrd) (d a b : Reg)  : OutSound (execAmomax z o d a b s) := by
  unfold execAmomax
  with_reducible repeat' first
    | intro _ | assumption | apply sound_next | apply sound_ite | apply out_ite | apply State.amoInstr_sound | split | dsimp only

theorem execAmominu_sound {s : State} (h : Sound s) (z : AmoSize) (o : AmoOrd) (d a b : Reg)  : OutSound (execAmominu z o d a b s) := by
  unfold execAmominu
  with_reducible repeat' first
    | intro _ | assumption | apply sound_next | apply sound_ite | apply out_ite | apply State.amoInstr_sound | split | dsimp only

theorem execAmomaxu_sound {s : State} (h : Sound s) (z : AmoSize) (o : AmoOrd) (d a b : Reg)  : OutSound (execAmomaxu z o d a b s) := by
  unfold execAmomaxu
  with_reducible repeat' first
    | intro _ | assumption | apply sound_next | apply sound_ite | apply out_ite | apply State.amoInstr_sound | split | dsimp only

theorem execAmoswap_sound {s : State} (h : Sound s) (z : AmoSize) (o : AmoOrd) (d a b : Reg)  : OutSound (execAmoswap z o d a b s) := by
  unfold execAmoswap
  with_reducible repeat' first
    | intro _ | assumption | apply sound_next | apply sound_ite | apply out_ite | apply State.amoInstr_sound | split | dsimp only

theorem execAmocas_sound {s : State} (h : Sound s) (z : AmoSize) (o : AmoOrd) (d a b : Reg)  : OutSound (execAmocas z o d a b s) := by
  unfold execAmocas
  with_reducible repeat' first
    | intro _ | assumption | apply sound_next | apply sound_ite | apply out_ite | apply State.amoInstr_sound | split | dsimp only

theorem execFence_sound {s : State} (h : Sound s) (sc : Scope)  : OutSound (execFence sc s) := by
  unfold execFence
  with_reducible repeat' first
    | intro _ | assumption | apply sound_next | apply sound_ite | apply out_ite | apply State.finish_sound | apply State.parkMe_sound
    | apply State.reportDeferred_sound | split | dsimp only

theorem State.feInstr_sound {s : State} (h : Sound s) (a : Reg) (n : BitVec 8) (full : Bool)  : Sound (s.feInstr a n full) := by
  unfold State.feInstr
  with_reducible repeat' first
    | intro _ | assumption | apply sound_next | apply sound_ite | apply out_ite | apply State.launchAccess_sound
    | apply State.memChecked_sound | split | dsimp only

theorem execFeset_sound {s : State} (h : Sound s) (a : Reg) (n : BitVec 8)  : OutSound (execFeset a n s) := by
  unfold execFeset
  with_reducible repeat' first
    | intro _ | assumption | apply sound_next | apply sound_ite | apply out_ite | apply State.feInstr_sound | split | dsimp only

theorem execFeclr_sound {s : State} (h : Sound s) (a : Reg) (n : BitVec 8)  : OutSound (execFeclr a n s) := by
  unfold execFeclr
  with_reducible repeat' first
    | intro _ | assumption | apply sound_next | apply sound_ite | apply out_ite | apply State.feInstr_sound | split | dsimp only

theorem execVamo_sound {s : State} (h : Sound s) (op : VamoOp) (lt : LaneType) (d : VReg) (a : Reg)  : OutSound (execVamo op lt d a s) := by
  unfold execVamo
  with_reducible repeat' first
    | intro _ | assumption | apply sound_next | apply sound_ite | apply out_ite | apply State.launchAccess_sound
    | apply State.memChecked_sound | split | dsimp only

end Sys2Proof.Machine
end

