-- ==== Sys2Proof/Laws/SoundMemEvents.lean ====
section
/-! SUPPORT. The invariant of `Safety` through the operations of `Machine/MemEvents`. -/
namespace Sys2Proof.Machine
open Sys2Proof.Safety

theorem State.awaitMove_sound {s : State} (h : Sound s) (a : Access)  : Sound (s.awaitMove a) := by
  unfold State.awaitMove
  with_reducible repeat' first
    | intro _ | assumption | apply sound_next | apply sound_ite | apply out_ite | apply State.fresh_sound | apply State.modFlight_sound
    | split | dsimp only

theorem State.hostFree_sound {s : State} (h : Sound s)   : Sound (s.hostFree) := by
  unfold State.hostFree
  with_reducible repeat' first
    | intro _ | assumption | apply sound_next | apply sound_ite | apply out_ite | apply sound_mk | split | dsimp only

theorem State.moveOver_sound {s : State} (h : Sound s) (a : Access)  : Sound (s.moveOver a) := by
  unfold State.moveOver
  with_reducible repeat' first
    | intro _ | assumption | apply sound_next | apply sound_ite | apply out_ite | apply State.awaitMove_sound | apply State.dropFlight_sound
    | apply State.hostFree_sound | apply State.tell_sound | split | dsimp only

theorem State.moveOn_sound {s : State} (h : Sound s) (a : Access) (left : List Piece)  : Sound (s.moveOn a left) := by
  unfold State.moveOn
  with_reducible repeat' first
    | intro _ | assumption | apply sound_next | apply sound_ite | apply out_ite | apply State.modFlight_sound | apply State.moveOver_sound
    | apply State.present_sound | split | dsimp only

theorem State.gatherStep_sound {s : State} (h : Sound s) (a : Access) (todo : List Piece) (got : Sparse Byte) (use : GatherUse)  : Sound (s.gatherStep a todo got use) := by
  unfold State.gatherStep
  with_reducible repeat' first
    | intro _ | assumption | apply sound_next | apply sound_ite | apply out_ite | apply State.gatherPieces_sound | apply State.moveOn_sound
    | split | dsimp only

theorem State.scatterStep_sound {s : State} (h : Sound s) (a : Access) (todo : List Piece) (data : Sparse Byte) (full : Bool)  : Sound (s.scatterStep a todo data full) := by
  unfold State.scatterStep
  with_reducible repeat' first
    | intro _ | assumption | apply sound_next | apply sound_ite | apply out_ite | apply State.moveOn_sound | apply State.scatterPieces_sound
    | split | dsimp only

theorem State.hostStep_sound {s : State} (h : Sound s) (a : Access) (todo : List Piece) (data : List (Option Byte))  : Sound (s.hostStep a todo data) := by
  unfold State.hostStep
  with_reducible repeat' first
    | intro _ | assumption | apply sound_next | apply sound_ite | apply out_ite | apply State.hostPieces_sound | apply State.moveOn_sound
    | split | dsimp only

theorem State.winOwner_sound {s : State} (h : Sound s) (a : Access)  : Sound (s.winOwner a) := by
  unfold State.winOwner
  with_reducible repeat' first
    | intro _ | assumption | apply sound_next | apply sound_ite | apply out_ite | apply State.entered_sound | apply State.modFlight_sound
    | apply State.noteWin_sound | apply State.performScalar_sound | apply State.takeOwner_sound | split | dsimp only

theorem State.accessTurn_sound {s : State} (h : Sound s) (a : Access)  : Sound (s.accessTurn a) := by
  unfold State.accessTurn
  with_reducible repeat' first
    | intro _ | assumption | apply sound_next | apply sound_ite | apply out_ite | apply State.demand_sound | apply State.entered_sound
    | apply State.forfeit_sound | apply State.gatherStep_sound | apply State.hostStep_sound | apply State.performScalar_sound
    | apply State.scatterStep_sound | apply State.winOwner_sound | split | dsimp only

theorem State.ownerAccess_sound {s : State} (h : Sound s) (seq : Nat)  : Sound (s.ownerAccess seq) := by
  unfold State.ownerAccess
  with_reducible repeat' first
    | intro _ | assumption | apply sound_next | apply sound_ite | apply out_ite | apply State.accessTurn_sound | split | dsimp only

theorem State.serveWait_sound {s : State} (h : Sound s) (a : Access) (z : MSize) (empty : Bool) (d : Reg)  : Sound (s.serveWait a z empty d) := by
  unfold State.serveWait
  with_reducible repeat' first
    | intro _ | assumption | apply sound_next | apply sound_ite | apply out_ite | apply State.entered_sound | apply State.modFlight_sound
    | apply State.noteUse_sound | apply State.performFe_sound | apply State.takeOwner_sound | split | dsimp only

theorem State.endWait_sound {s : State} (h : Sound s) (a : Access) (z : MSize) (empty : Bool) (d : Reg)  : Sound (s.endWait a z empty d) := by
  unfold State.endWait
  with_reducible repeat' first
    | intro _ | assumption | apply sound_next | apply sound_ite | apply out_ite | apply State.entered_sound | apply State.modFlight_sound
    | apply State.noteUse_sound | apply State.performFe_sound | split | dsimp only

theorem execFeWaitService_sound {s : State} (h : Sound s) (seq : Nat)  : OutSound (execFeWaitService seq s) := by
  unfold execFeWaitService
  with_reducible repeat' first
    | intro _ | assumption | apply sound_next | apply sound_ite | apply out_ite | apply State.endWait_sound | apply State.entered_sound
    | apply State.serveWait_sound | split | dsimp only

theorem execFeWaitResend_sound {s : State} (h : Sound s) (t : Nat)  : OutSound (execFeWaitResend t s) := by
  unfold execFeWaitResend
  with_reducible repeat' first
    | intro _ | assumption | apply sound_next | apply sound_ite | apply out_ite | apply State.entered_sound | apply State.present_sound
    | split | dsimp only

theorem State.applyReply_sound {s : State} (h : Sound s) (t : Nat) (r : Reply)  : Sound (s.applyReply t r) := by
  unfold State.applyReply
  with_reducible repeat' first
    | intro _ | assumption | apply sound_next | apply sound_ite | apply out_ite | apply State.completeParked_sound | apply State.trap_sound
    | split | dsimp only

theorem execMemReply_sound {s : State} (h : Sound s) (t : Nat) (r : Reply)  : OutSound (execMemReply t r s) := by
  unfold execMemReply
  with_reducible repeat' first
    | intro _ | assumption | apply sound_next | apply sound_ite | apply out_ite | apply State.applyReply_sound | split | dsimp only

theorem execEccWriteback_sound {s : State} (h : Sound s) (ga : Nat)  : OutSound (execEccWriteback ga s) := by
  unfold execEccWriteback
  with_reducible repeat' first
    | intro _ | assumption | apply sound_next | apply sound_ite | apply out_ite | apply State.setMark_sound | split | dsimp only

end Sys2Proof.Machine
end

