-- ==== Sys2Proof/Laws/SoundTiles.lean ====
section
/-! SUPPORT. The invariant of `Safety` through the operations of `Machine/Tiles`. -/
namespace Sys2Proof.Machine
open Sys2Proof.Safety

theorem State.tileFree_sound {s : State} (h : Sound s) (t : Nat) (writes : Bool) (go : State → State) (hgo : ∀ (x0 : State), Sound x0 → Sound (go x0)) : Sound (s.tileFree t writes go) := by
  unfold State.tileFree
  with_reducible repeat' first
    | intro _ | assumption | apply sound_next | apply sound_ite | apply out_ite | apply hgo | apply State.parkMe_sound | split | dsimp only

theorem State.noteTile_sound {s : State} (h : Sound s) (c t o n : Nat) (a : Agent)  : Sound (s.noteTile c t o n a) := by
  unfold State.noteTile
  with_reducible repeat' first
    | intro _ | assumption | apply sound_next | apply sound_ite | apply out_ite | apply State.modCol_sound | apply State.noteItem_sound
    | split | dsimp only

theorem State.tileRead_sound {s : State} (h : Sound s) (c t o n : Nat) (go : State → State) (hgo : ∀ (x0 : State), Sound x0 → Sound (go x0)) : Sound (s.tileRead c t o n go) := by
  unfold State.tileRead
  with_reducible repeat' first
    | intro _ | assumption | apply sound_next | apply sound_ite | apply out_ite | apply hgo | apply State.noteTile_sound
    | apply State.trapMe_sound | split | dsimp only

theorem State.noRow_sound {s : State} (h : Sound s) (t va : Nat) (r : Trans)  : Sound (s.noRow t va r) := by
  unfold State.noRow
  with_reducible repeat' first
    | intro _ | assumption | apply sound_next | apply sound_ite | apply out_ite | apply State.modThr_sound | apply State.noAccess_sound
    | split | dsimp only

theorem State.rowsChecked_sound {s : State} (h : Sound s) (t va stride : Nat) (h : Shape) (wr : Bool) (go : List Piece → List Via → State → State) (hgo : ∀ (x0 : List Piece) (x1 : List Via) (x2 : State), Sound x2 → Sound (go x0 x1 x2)) : Sound (s.rowsChecked t va stride h wr go) := by
  unfold State.rowsChecked
  with_reducible repeat' first
    | intro _ | assumption | apply sound_next | apply sound_ite | apply out_ite | apply hgo | apply State.noRow_sound
    | apply State.trapMe_sound | apply State.wr_sound | split | dsimp only

theorem execTld_sound {s : State} (h : Sound s) (t a b : Reg)  : OutSound (execTld t a b s) := by
  unfold execTld
  with_reducible repeat' first
    | intro _ | assumption | apply sound_next | apply sound_ite | apply out_ite | apply State.launchAccess_sound
    | apply State.rowsChecked_sound | apply State.tileFree_sound | split | dsimp only

theorem execTst_sound {s : State} (h : Sound s) (t a b : Reg)  : OutSound (execTst t a b s) := by
  unfold execTst
  with_reducible repeat' first
    | intro _ | assumption | apply sound_next | apply sound_ite | apply out_ite | apply State.launchAccess_sound
    | apply State.rowsChecked_sound | apply State.tileFree_sound | apply State.tileRead_sound | split | dsimp only

theorem State.tvChecked_sound {s : State} (h : Sound s) (t : Nat) (o : Nat) (go : State → State) (hgo : ∀ (x0 : State), Sound x0 → Sound (go x0)) : Sound (s.tvChecked t o go) := by
  unfold State.tvChecked
  with_reducible repeat' first
    | intro _ | assumption | apply sound_next | apply sound_ite | apply out_ite | apply hgo | apply State.trapMe_sound | split | dsimp only

theorem State.putTile64_sound {s : State} (h : Sound s) (c t o v : Nat)  : Sound (s.putTile64 c t o v) := by
  unfold State.putTile64
  with_reducible repeat' first
    | intro _ | assumption | apply sound_next | apply sound_ite | apply out_ite | apply State.modCol_sound | apply State.putTileByte_sound
    | apply sound_foldl | split | dsimp only

theorem execTvget_sound {s : State} (h : Sound s) (d : VReg) (t b : Reg)  : OutSound (execTvget d t b s) := by
  unfold execTvget
  with_reducible repeat' first
    | intro _ | assumption | apply sound_next | apply sound_ite | apply out_ite | apply State.finish_sound | apply State.tileFree_sound
    | apply State.tileRead_sound | apply State.tvChecked_sound | apply State.wrV_sound | split | dsimp only

theorem execTvset_sound {s : State} (h : Sound s) (t : Reg) (a : VReg) (b : Reg)  : OutSound (execTvset t a b s) := by
  unfold execTvset
  with_reducible repeat' first
    | intro _ | assumption | apply sound_next | apply sound_ite | apply out_ite | apply State.finish_sound | apply State.putTile64_sound
    | apply State.tileFree_sound | apply State.tvChecked_sound | split | dsimp only

theorem State.bankReady_sound {s : State} (h : Sound s) (k rows : Nat) (go : State → State) (hgo : ∀ (x0 : State), Sound x0 → Sound (go x0)) : Sound (s.bankReady k rows go) := by
  unfold State.bankReady
  with_reducible repeat' first
    | intro _ | assumption | apply sound_next | apply sound_ite | apply out_ite | apply hgo | apply State.modCol_sound
    | apply State.noteItem_sound | apply State.parkMe_sound | apply State.trapMe_sound | split | dsimp only

theorem State.emptyBank_sound {s : State} (h : Sound s) (c k : Nat)  : Sound (s.emptyBank c k) := by
  unfold State.emptyBank
  with_reducible repeat' first
    | intro _ | assumption | apply sound_next | apply sound_ite | apply out_ite | apply State.modCol_sound | split | dsimp only

theorem execMoutTile_sound {s : State} (h : Sound s) (f : Fmt) (t : Reg) (acc : BitVec 2) (emp : Bool)  : OutSound (execMoutTile f t acc emp s) := by
  unfold execMoutTile
  with_reducible repeat' first
    | intro _ | assumption | apply sound_next | apply sound_ite | apply out_ite | apply State.bankReady_sound | apply State.emptyBank_sound
    | apply State.fillTile_sound | apply State.finish_sound | apply State.tileFree_sound | apply State.trapMe_sound | split | dsimp only

theorem execMoutMemory_sound {s : State} (h : Sound s) (f : Fmt) (d : Reg) (acc : BitVec 2) (r : Reg) (emp : Bool)  : OutSound (execMoutMemory f d acc r emp s) := by
  unfold execMoutMemory
  with_reducible repeat' first
    | intro _ | assumption | apply sound_next | apply sound_ite | apply out_ite | apply State.bankReady_sound | apply State.checked_sound
    | apply State.launchAccess_sound | apply State.trapMe_sound | split | dsimp only

theorem State.loadMask_sound {s : State} (h : Sound s) (c t : Nat)  : Sound (s.loadMask c t) := by
  unfold State.loadMask
  with_reducible repeat' first
    | intro _ | assumption | apply sound_next | apply sound_ite | apply out_ite | apply State.modCol_sound | apply sound_foldl | split
    | dsimp only

theorem execMmask_sound {s : State} (h : Sound s) (t : Reg)  : OutSound (execMmask t s) := by
  unfold execMmask
  with_reducible repeat' first
    | intro _ | assumption | apply sound_next | apply sound_ite | apply out_ite | apply State.finish_sound | apply State.loadMask_sound
    | apply State.parkMe_sound | apply State.tileFree_sound | apply State.tileRead_sound | apply State.trapMe_sound | split | dsimp only

end Sys2Proof.Machine
end

