-- ==== Sys2Proof/Laws/SoundStreams.lean ====
section
/-! SUPPORT. The invariant of `Safety` through the operations of `Machine/Streams`. -/
namespace Sys2Proof.Machine
open Sys2Proof.Safety

theorem State.modNode_sound {s : State} (h : Sound s) (k n : Nat) (f : Node → Node)  : Sound (s.modNode k n f) := by
  unfold State.modNode
  with_reducible repeat' first
    | intro _ | assumption | apply sound_next | apply sound_ite | apply out_ite | apply State.modIsl_sound | split | dsimp only

theorem execCsend_sound {s : State} (h : Sound s) (c : PReg) (k : TokKind) (aux : BitVec 4) (d : Reg)  : OutSound (execCsend c k aux d s) := by
  unfold execCsend
  with_reducible repeat' first
    | intro _ | assumption | apply sound_next | apply sound_ite | apply out_ite | apply State.finish_sound | apply State.modThr_sound
    | apply State.parkMe_sound | apply State.trapMe_sound | split | dsimp only

theorem State.returnChan_sound {s : State} (h : Sound s) (t : Nat) (ch : Chan)  : Sound (s.returnChan t ch) := by
  unfold State.returnChan
  with_reducible repeat' first
    | intro _ | assumption | apply sound_next | apply sound_ite | apply out_ite | apply State.modNode_sound | split | dsimp only

theorem execCrecv_sound {s : State} (h : Sound s) (d e : Reg) (c : PReg)  : OutSound (execCrecv d e c s) := by
  unfold execCrecv
  with_reducible repeat' first
    | intro _ | assumption | apply sound_next | apply sound_ite | apply out_ite | apply State.finish_sound | apply State.modThr_sound
    | apply State.parkMe_sound | apply State.returnChan_sound | apply State.trapMe_sound | apply State.wr_sound | split | dsimp only

theorem execCpoll_sound {s : State} (h : Sound s) (d : Reg) (c : PReg)  : OutSound (execCpoll d c s) := by
  unfold execCpoll
  with_reducible repeat' first
    | intro _ | assumption | apply sound_next | apply sound_ite | apply out_ite | apply State.finish_sound | apply State.wr_sound | split
    | dsimp only

theorem execInvoke_sound {s : State} (h : Sound s) (d : Reg) (k : BitVec 3) (b : PReg) (m : BitVec 4)  : OutSound (execInvoke d k b m s) := by
  unfold execInvoke
  with_reducible repeat' first
    | intro _ | assumption | apply sound_next | apply sound_ite | apply out_ite | apply State.after_sound | apply State.parkMe_sound
    | apply State.trapMe_sound | split | dsimp only

theorem State.answerInvoke_sound {s : State} (h : Sound s) (k t : Nat) (r : Reply)  : Sound (s.answerInvoke k t r) := by
  unfold State.answerInvoke
  with_reducible repeat' first
    | intro _ | assumption | apply sound_next | apply sound_ite | apply out_ite | apply State.after_sound | split | dsimp only

theorem State.enqueueInv_sound {s : State} (h : Sound s) (k : Nat) (r : InvReq) (l : List (PReg × Bool × Nat × Nat))  : Sound (s.enqueueInv k r l) := by
  unfold State.enqueueInv
  with_reducible repeat' first
    | intro _ | assumption | apply sound_next | apply sound_ite | apply out_ite | apply State.answerInvoke_sound | apply State.fresh_sound
    | apply State.modIsl_sound | split | dsimp only

theorem execInvokeRequest_sound {s : State} (h : Sound s) (k : Nat) (r : InvReq)  : OutSound (execInvokeRequest k r s) := by
  unfold execInvokeRequest
  with_reducible repeat' first
    | intro _ | assumption | apply sound_next | apply sound_ite | apply out_ite | apply State.answerInvoke_sound
    | apply State.enqueueInv_sound | apply State.modIsl_sound | apply State.trap_sound | split | dsimp only

theorem State.admitFrom_sound {s : State} (h : Sound s) (k : Nat) (l : List (InvReq × List (PReg × Bool × Nat × Nat))) :
    Sound (s.admitFrom k l) := by
  induction l generalizing s with
  | nil => exact h
  | cons w ws ih =>
    unfold State.admitFrom
    exact sound_ite (fun _ => ih (State.enqueueInv_sound (State.modIsl_sound h _ _) _ _ _)) (fun _ => h)

theorem State.admitInvs_sound {s : State} (h : Sound s) (k : Nat)  : Sound (s.admitInvs k) := by
  unfold State.admitInvs
  with_reducible repeat' first
    | intro _ | assumption | apply sound_next | apply sound_ite | apply out_ite | apply State.admitFrom_sound | split | dsimp only

theorem execInvokeAnswer_sound {s : State} (h : Sound s) (t : Nat) (r : Reply)  : OutSound (execInvokeAnswer t r s) := by
  unfold execInvokeAnswer
  with_reducible repeat' first
    | intro _ | assumption | apply sound_next | apply sound_ite | apply out_ite | apply State.completeParked_sound | apply State.trap_sound
    | apply sound_foldl | split | dsimp only

theorem execActiveNotice_sound {s : State} (h : Sound s) (t inv : Nat)  : OutSound (execActiveNotice t inv s) := by
  unfold execActiveNotice
  with_reducible repeat' first
    | intro _ | assumption | apply sound_next | apply sound_ite | apply out_ite | apply State.after_sound | apply State.modThr_sound | split
    | dsimp only

theorem execChannelTokenDepart_sound {s : State} (h : Sound s) (t c : Nat)  : OutSound (execChannelTokenDepart t c s) := by
  unfold execChannelTokenDepart
  with_reducible repeat' first
    | intro _ | assumption | apply sound_next | apply sound_ite | apply out_ite | apply State.modCol_sound | apply State.modNode_sound
    | apply State.modThr_sound | split | dsimp only

theorem execChannelTokenArrive_sound {s : State} (h : Sound s) (t c : Nat) (inv : Nat) (tok : Tok)  : OutSound (execChannelTokenArrive t c inv tok s) := by
  unfold execChannelTokenArrive
  with_reducible repeat' first
    | intro _ | assumption | apply sound_next | apply sound_ite | apply out_ite | apply State.modCol_sound | apply State.modThr_sound
    | split | dsimp only

theorem execIslandFaultTrap_sound {s : State} (h : Sound s) (t inv : Nat) (i : TrapInfo)  : OutSound (execIslandFaultTrap t inv i s) := by
  unfold execIslandFaultTrap
  with_reducible repeat' first
    | intro _ | assumption | apply sound_next | apply sound_ite | apply out_ite | apply State.modThr_sound | apply State.trap_sound | split
    | dsimp only

end Sys2Proof.Machine
end

