-- ==== Sys2Proof/Laws/SoundArray.lean ====
section
/-! SUPPORT. The invariant of `Safety` through the operations of `Machine/Array`. -/
namespace Sys2Proof.Machine
open Sys2Proof.Safety

theorem State.modGang_sound {s : State} (h : Sound s) (c id : Nat) (f : Gang → Gang)  : Sound (s.modGang c id f) := by
  unfold State.modGang
  with_reducible repeat' first
    | intro _ | assumption | apply sound_next | apply sound_ite | apply out_ite | apply State.modCol_sound | split | dsimp only

theorem State.dropGang_sound {s : State} (h : Sound s) (c id : Nat)  : Sound (s.dropGang c id) := by
  unfold State.dropGang
  with_reducible repeat' first
    | intro _ | assumption | apply sound_next | apply sound_ite | apply out_ite | apply State.modCol_sound | split | dsimp only

theorem State.arrive_sound {s : State} (h : Sound s) (i : Instr)  : Sound (s.arrive i) := by
  unfold State.arrive
  with_reducible repeat' first
    | intro _ | assumption | apply sound_next | apply sound_ite | apply out_ite | apply State.parkMe_sound | apply sound_modCore | split
    | dsimp only

theorem Core.refillPort_tq (c : Core) (n : Nat) : (c.refillPort n).tq = c.tq := by
  unfold Core.refillPort
  split <;> rfl

theorem State.leavePort_sound {s : State} (h : Sound s) (t : Nat) : Sound (s.leavePort t) :=
  sound_modCore h _ _ (fun _ hc => by dsimp only; rw [Core.refillPort_tq]; exact hc)

theorem State.takeBack_sound {s : State} (h : Sound s) (c q : Nat) (p : PortItem)  : Sound (s.takeBack c q p) := by
  unfold State.takeBack
  with_reducible repeat' first
    | intro _ | assumption | apply sound_next | apply sound_ite | apply out_ite | apply sound_modCore | split | dsimp only

theorem State.leaveGang_sound {s : State} (h : Sound s) (t : Nat)  : Sound (s.leaveGang t) := by
  unfold State.leaveGang
  with_reducible repeat' first
    | intro _ | assumption | apply sound_next | apply sound_ite | apply out_ite | apply State.dropGang_sound | apply State.leavePort_sound
    | apply State.takeBack_sound | apply sound_foldl | split | dsimp only

theorem State.dropHold_sound {s : State} (h : Sound s) (t : Nat)  : Sound (s.dropHold t) := by
  unfold State.dropHold
  with_reducible repeat' first
    | intro _ | assumption | apply sound_next | apply sound_ite | apply out_ite | apply State.modCol_sound | split | dsimp only

theorem execMwld_sound {s : State} (h : Sound s) (f : WFmt) (pl : Bool) (a sc : Reg) (tag : BitVec 4)  : OutSound (execMwld f pl a sc tag s) := by
  unfold execMwld
  with_reducible repeat' first
    | intro _ | assumption | apply sound_next | apply sound_ite | apply out_ite | apply State.arrive_sound | apply State.checked_sound
    | apply State.parkMe_sound | apply State.trapMe_sound | split | dsimp only

theorem execMwlt_sound {s : State} (h : Sound s) (f : WFmt) (pl : Bool) (t sc : Reg) (tag : BitVec 4)  : OutSound (execMwlt f pl t sc tag s) := by
  unfold execMwlt
  with_reducible repeat' first
    | intro _ | assumption | apply sound_next | apply sound_ite | apply out_ite | apply State.arrive_sound | apply State.trapMe_sound
    | split | dsimp only

theorem execMgo_sound {s : State} (h : Sound s) (f : AFmt) (acc : BitVec 2) (t : Reg) (pl : Bool) (tag : BitVec 4) (add mask : Bool) (r : Reg)  : OutSound (execMgo f acc t pl tag add mask r s) := by
  unfold execMgo
  with_reducible repeat' first
    | intro _ | assumption | apply sound_next | apply sound_ite | apply out_ite | apply State.arrive_sound | apply State.trapMe_sound
    | split | dsimp only

theorem execMgos_sound {s : State} (h : Sound s) (f : AFmt) (acc : BitVec 2) (c : PReg) (m : Reg) (pl : Bool) (tag : BitVec 4) (add : Bool)  : OutSound (execMgos f acc c m pl tag add s) := by
  unfold execMgos
  with_reducible repeat' first
    | intro _ | assumption | apply sound_next | apply sound_ite | apply out_ite | apply State.arrive_sound | apply State.trapMe_sound
    | split | dsimp only

theorem State.freePorts_sound {s : State} (h : Sound s) (c : Nat) : Sound (s.freePorts c) :=
  sound_foldl (fun _ _ h => sound_modCore h _ _ (fun _ hc => by rw [Core.refillPort_tq]; exact hc)) _ h

theorem State.trapMembers_sound {s : State} (h : Sound s) (c : Nat) (l : List (Nat × PortItem)) (i : TrapInfo)  : Sound (s.trapMembers c l i) := by
  unfold State.trapMembers
  with_reducible repeat' first
    | intro _ | assumption | apply sound_next | apply sound_ite | apply out_ite | apply State.trap_sound | apply sound_foldl | split
    | dsimp only

theorem execGangCompare_sound {s : State} (h : Sound s) (c : Nat)  : OutSound (execGangCompare c s) := by
  unfold execGangCompare
  with_reducible repeat' first
    | intro _ | assumption | apply sound_next | apply sound_ite | apply out_ite | apply State.atOnce_sound | apply State.freePorts_sound
    | apply State.modCol_sound | apply State.trapMembers_sound | split | dsimp only

theorem State.failGang_sound {s : State} (h : Sound s) (c id : Nat) (l : List (Nat × TrapInfo))  : Sound (s.failGang c id l) := by
  unfold State.failGang
  with_reducible repeat' first
    | intro _ | assumption | apply sound_next | apply sound_ite | apply out_ite | apply State.after_sound | apply State.modGang_sound
    | split | dsimp only

theorem State.setPlane_sound {s : State} (h : Sound s) (c : Nat) (pl : Bool) (f : Plane → Plane)  : Sound (s.setPlane c pl f) := by
  unfold State.setPlane
  with_reducible repeat' first
    | intro _ | assumption | apply sound_next | apply sound_ite | apply out_ite | apply State.modCol_sound | split | dsimp only

theorem State.startLayer_sound {s : State} (h : Sound s) (c id : Nat) (g : Gang) (n l : Nat)  : Sound (s.startLayer c id g n l) := by
  unfold State.startLayer
  with_reducible repeat' first
    | intro _ | assumption | apply sound_next | apply sound_ite | apply out_ite | apply State.demand_sound | apply State.modCol_sound
    | apply State.modGang_sound | apply State.noteUse_sound | apply sound_foldl | split | dsimp only

theorem State.sendQuarter_sound {s : State} (h : Sound s) (c : Nat) (g : Gang) (n : Nat) (m : Nat × PortItem)  : Sound (s.sendQuarter c g n m) := by
  unfold State.sendQuarter
  with_reducible repeat' first
    | intro _ | assumption | apply sound_next | apply sound_ite | apply out_ite | apply State.fresh_sound | apply State.present_sound
    | split | dsimp only

theorem State.dropPlane_sound {s : State} (h : Sound s) (c id : Nat)  : Sound (s.dropPlane c id) := by
  unfold State.dropPlane
  with_reducible repeat' first
    | intro _ | assumption | apply sound_next | apply sound_ite | apply out_ite | apply State.dropFlight_sound | apply sound_foldl | split
    | dsimp only

theorem State.moveLoad_sound {s : State} (h : Sound s) (c id : Nat) (f : WFmt)  : Sound (s.moveLoad c id f) := by
  unfold State.moveLoad
  with_reducible repeat' first
    | intro _ | assumption | apply sound_next | apply sound_ite | apply out_ite | apply State.after_sound | apply State.atOnce_sound
    | apply State.failGang_sound | apply State.fresh_sound | apply State.modGang_sound | apply State.modThr_sound
    | apply State.sendQuarter_sound | apply State.startFetch_sound | apply State.startLayer_sound | apply sound_foldl | split | dsimp only

theorem State.noteLoad_sound {s : State} (h : Sound s) (c : Nat) (g : Gang)  : Sound (s.noteLoad c g) := by
  unfold State.noteLoad
  with_reducible repeat' first
    | intro _ | assumption | apply sound_next | apply sound_ite | apply out_ite | apply State.noteRead_sound | apply State.noteTile_sound
    | apply sound_foldl | split | dsimp only

theorem State.fillPlane_sound {s : State} (h : Sound s) (c : Nat) (g : Gang) (f : WFmt) (sc : Reg)  : Sound (s.fillPlane c g f sc) := by
  unfold State.fillPlane
  with_reducible repeat' first
    | intro _ | assumption | apply sound_next | apply sound_ite | apply out_ite | apply State.setPlane_sound | apply sound_foldl | split
    | dsimp only

theorem State.noteRows_sound {s : State} (h : Sound s) (c : Nat) (g : Gang) (f : AFmt) (m : Nat)  : Sound (s.noteRows c g f m) := by
  unfold State.noteRows
  with_reducible repeat' first
    | intro _ | assumption | apply sound_next | apply sound_ite | apply out_ite | apply State.noteTile_sound | apply sound_foldl | split
    | dsimp only

theorem State.refuseGang_sound {s : State} (h : Sound s) (c : Nat) (g : Gang) (i : TrapInfo)  : Sound (s.refuseGang c g i) := by
  unfold State.refuseGang
  with_reducible repeat' first
    | intro _ | assumption | apply sound_next | apply sound_ite | apply out_ite | apply State.dropGang_sound | apply State.trapMembers_sound
    | split | dsimp only

theorem State.countMembers_sound {s : State} (h : Sound s) (c e : Nat)  : Sound (s.countMembers c e) := by
  unfold State.countMembers
  with_reducible repeat' first
    | intro _ | assumption | apply sound_next | apply sound_ite | apply out_ite | apply State.count_sound | apply sound_foldl | split
    | dsimp only

theorem State.startLoad_sound {s : State} (h : Sound s) (c : Nat) (g : Gang) (f : WFmt) (mem : Bool)  : Sound (s.startLoad c g f mem) := by
  unfold State.startLoad
  with_reducible repeat' first
    | intro _ | assumption | apply sound_next | apply sound_ite | apply out_ite | apply State.countMembers_sound
    | apply State.failGang_sound | apply State.modGang_sound | apply State.moveLoad_sound | apply State.setPlane_sound | split | dsimp only

theorem State.startCompute_sound {s : State} (h : Sound s) (c : Nat) (g : Gang) (k : Compute)  : Sound (s.startCompute c g k) := by
  unfold State.startCompute
  with_reducible repeat' first
    | intro _ | assumption | apply sound_next | apply sound_ite | apply out_ite | apply State.countMembers_sound
    | apply State.failGang_sound | apply State.modGang_sound | apply State.noteRows_sound | apply State.refuseGang_sound | split
    | dsimp only

theorem State.startRequest_sound {s : State} (h : Sound s) (c : Nat) (g : Gang) (r : ArrayReq)  : Sound (s.startRequest c g r) := by
  unfold State.startRequest
  with_reducible repeat' first
    | intro _ | assumption | apply sound_next | apply sound_ite | apply out_ite | apply State.after_sound | apply State.modGang_sound
    | split | dsimp only

theorem State.startGang_sound {s : State} (h : Sound s) (c : Nat) (g : Gang)  : Sound (s.startGang c g) := by
  unfold State.startGang
  with_reducible repeat' first
    | intro _ | assumption | apply sound_next | apply sound_ite | apply out_ite | apply State.dropGang_sound
    | apply State.startCompute_sound | apply State.startLoad_sound | apply State.startRequest_sound | split | dsimp only

theorem execGangStart_sound {s : State} (h : Sound s) (c id : Nat)  : OutSound (execGangStart c id s) := by
  unfold execGangStart
  with_reducible repeat' first
    | intro _ | assumption | apply sound_next | apply sound_ite | apply out_ite | apply State.moveLoad_sound | apply State.startGang_sound
    | split | dsimp only

theorem State.takeTokens_sound {s : State} (h : Sound s) (c : Nat) (g : Gang)  : Sound (s.takeTokens c g) := by
  unfold State.takeTokens
  with_reducible repeat' first
    | intro _ | assumption | apply sound_next | apply sound_ite | apply out_ite | apply State.count_sound | apply State.failGang_sound
    | apply State.modGang_sound | apply State.modThr_sound | apply State.returnChan_sound | apply sound_foldl | split | dsimp only

theorem State.releasePorts_sound {s : State} (h : Sound s) (c : Nat) (g : Gang)  : Sound (s.releasePorts c g) := by
  unfold State.releasePorts
  with_reducible repeat' first
    | intro _ | assumption | apply sound_next | apply sound_ite | apply out_ite | apply State.modCol_sound | apply sound_foldl | split
    | dsimp only

theorem State.completeMembers_sound {s : State} (h : Sound s) (c : Nat) (g : Gang)  : Sound (s.completeMembers c g) := by
  unfold State.completeMembers
  with_reducible repeat' first
    | intro _ | assumption | apply sound_next | apply sound_ite | apply out_ite | apply State.completeParked_sound | apply sound_foldl
    | split | dsimp only

theorem State.notePlane_sound {s : State} (h : Sound s) (c : Nat) (g : Gang) (f : WFmt)  : Sound (s.notePlane c g f) := by
  unfold State.notePlane
  with_reducible repeat' first
    | intro _ | assumption | apply sound_next | apply sound_ite | apply out_ite | apply State.noteItem_sound | apply State.setPlane_sound
    | apply sound_foldl | split | dsimp only

theorem State.noteBank_sound {s : State} (h : Sound s) (c : Nat) (g : Gang) (b m : Nat)  : Sound (s.noteBank c g b m) := by
  unfold State.noteBank
  with_reducible repeat' first
    | intro _ | assumption | apply sound_next | apply sound_ite | apply out_ite | apply State.modCol_sound | apply State.noteItem_sound
    | split | dsimp only

theorem State.noteMask_sound {s : State} (h : Sound s) (c : Nat) (g : Gang)  : Sound (s.noteMask c g) := by
  unfold State.noteMask
  with_reducible repeat' first
    | intro _ | assumption | apply sound_next | apply sound_ite | apply out_ite | apply State.modCol_sound | apply State.noteItem_sound
    | split | dsimp only

theorem State.noteCompute_sound {s : State} (h : Sound s) (c : Nat) (g : Gang) (f : WFmt) (k : Compute)  : Sound (s.noteCompute c g f k) := by
  unfold State.noteCompute
  with_reducible repeat' first
    | intro _ | assumption | apply sound_next | apply sound_ite | apply out_ite | apply State.noteBank_sound | apply State.noteMask_sound
    | apply State.notePlane_sound | apply sound_foldl | split | dsimp only

theorem State.completeLoad_sound {s : State} (h : Sound s) (c : Nat) (g : Gang) (f : WFmt) (sc : Reg)  : Sound (s.completeLoad c g f sc) := by
  unfold State.completeLoad
  with_reducible repeat' first
    | intro _ | assumption | apply sound_next | apply sound_ite | apply out_ite | apply State.completeMembers_sound
    | apply State.dropGang_sound | apply State.dropPlane_sound | apply State.failGang_sound | apply State.fillPlane_sound
    | apply State.noteLoad_sound | apply State.releasePorts_sound | split | dsimp only

theorem State.completeCompute_sound {s : State} (h : Sound s) (c : Nat) (g : Gang) (k : Compute)  : Sound (s.completeCompute c g k) := by
  unfold State.completeCompute
  with_reducible repeat' first
    | intro _ | assumption | apply sound_next | apply sound_ite | apply out_ite | apply State.completeMembers_sound
    | apply State.dropGang_sound | apply State.failGang_sound | apply State.modCol_sound | apply State.noteCompute_sound | split
    | dsimp only

theorem execGangComplete_sound {s : State} (h : Sound s) (c id : Nat)  : OutSound (execGangComplete c id s) := by
  unfold execGangComplete
  with_reducible repeat' first
    | intro _ | assumption | apply sound_next | apply sound_ite | apply out_ite | apply State.completeCompute_sound
    | apply State.completeLoad_sound | apply State.takeTokens_sound | split | dsimp only

theorem State.reclaimChan_sound {s : State} (h : Sound s) (ch : Chan)  : Sound (s.reclaimChan ch) := by
  unfold State.reclaimChan
  with_reducible repeat' first
    | intro _ | assumption | apply sound_next | apply sound_ite | apply out_ite | apply State.modNode_sound | split | dsimp only

theorem State.putBack_sound {s : State} (h : Sound s) (l : List (Nat × PReg × Chan))  : Sound (s.putBack l) := by
  unfold State.putBack
  with_reducible repeat' first
    | intro _ | assumption | apply sound_next | apply sound_ite | apply out_ite | apply State.modThr_sound | apply State.reclaimChan_sound
    | apply sound_foldl | split | dsimp only

theorem execGangAbort_sound {s : State} (h : Sound s) (c id : Nat)  : OutSound (execGangAbort c id s) := by
  unfold execGangAbort
  with_reducible repeat' first
    | intro _ | assumption | apply sound_next | apply sound_ite | apply out_ite | apply State.dropGang_sound | apply State.dropPlane_sound
    | apply State.modCol_sound | apply State.putBack_sound | apply State.releasePorts_sound | apply State.setPlane_sound
    | apply State.trap_sound | apply sound_foldl | split | dsimp only

theorem State.failFetchingGangs_sound {s : State} (h : Sound s) (tbl i : Nat)  : Sound (s.failFetchingGangs tbl i) := by
  unfold State.failFetchingGangs
  with_reducible repeat' first
    | intro _ | assumption | apply sound_next | apply sound_ite | apply out_ite | apply State.failGang_sound | apply sound_foldl | split
    | dsimp only

theorem execMhold_sound {s : State} (h : Sound s)   : OutSound (execMhold s) := by
  unfold execMhold
  with_reducible repeat' first
    | intro _ | assumption | apply sound_next | apply sound_ite | apply out_ite | apply State.finish_sound | apply State.modCol_sound
    | apply State.parkMe_sound | apply State.supervisor_sound | split | dsimp only

theorem execMyield_sound {s : State} (h : Sound s)   : OutSound (execMyield s) := by
  unfold execMyield
  with_reducible repeat' first
    | intro _ | assumption | apply sound_next | apply sound_ite | apply out_ite | apply State.dropHold_sound | apply State.finish_sound
    | split | dsimp only

theorem execMclr_sound {s : State} (h : Sound s) (acc : BitVec 2)  : OutSound (execMclr acc s) := by
  unfold execMclr
  with_reducible repeat' first
    | intro _ | assumption | apply sound_next | apply sound_ite | apply out_ite | apply State.emptyBank_sound | apply State.finish_sound
    | apply State.modCol_sound | apply State.parkMe_sound | split | dsimp only

theorem execArrayWatchdog_sound {s : State} (h : Sound s) (c : Nat)  : OutSound (execArrayWatchdog c s) := by
  unfold execArrayWatchdog
  with_reducible repeat' first
    | intro _ | assumption | apply sound_next | apply sound_ite | apply out_ite | apply State.modCol_sound | apply State.modThr_sound
    | split | dsimp only

theorem State.countRows_sound {s : State} (h : Sound s) (c : Nat)  : Sound (s.countRows c) := by
  unfold State.countRows
  with_reducible repeat' first
    | intro _ | assumption | apply sound_next | apply sound_ite | apply out_ite | apply State.countMembers_sound | apply sound_foldl | split
    | dsimp only

end Sys2Proof.Machine
end

