-- ==== Sys2Proof/Laws/SoundThreads.lean ====
section
/-! SUPPORT. The invariant of `Safety` through the operations of `Machine/Threads`. -/
namespace Sys2Proof.Machine
open Sys2Proof.Safety

theorem State.dropMessages_sound {s : State} (h : Sound s) (t : Nat)  : Sound (s.dropMessages t) := by
  unfold State.dropMessages
  with_reducible repeat' first
    | intro _ | assumption | apply sound_next | apply sound_ite | apply out_ite | apply sound_mk | split | dsimp only

theorem State.abandonAll_sound {s : State} (h : Sound s) (t : Nat)  : Sound (s.abandonAll t) := by
  unfold State.abandonAll
  with_reducible repeat' first
    | intro _ | assumption | apply sound_next | apply sound_ite | apply out_ite | apply State.admitInvs_sound | apply State.modIsl_sound
    | apply sound_foldl | split | dsimp only

theorem State.orphanInvals_sound {s : State} (h : Sound s) (t : Nat)  : Sound (s.orphanInvals t) := by
  unfold State.orphanInvals
  with_reducible repeat' first
    | intro _ | assumption | apply sound_next | apply sound_ite | apply out_ite | apply State.modCol_sound | apply sound_mk | split
    | dsimp only

theorem State.endThread_sound {s : State} (h : Sound s) (t : Nat)  : Sound (s.endThread t) := by
  unfold State.endThread
  with_reducible repeat' first
    | intro _ | assumption | apply sound_next | apply sound_ite | apply out_ite | apply State.abandonAll_sound | apply State.dropHold_sound
    | apply State.dropMessages_sound | apply State.emptySlot_sound | apply State.orphanInvals_sound | apply sound_mk | split | dsimp only

theorem State.askWithdraw_sound {s : State} (h : Sound s) (a : Access)  : Sound (s.askWithdraw a) := by
  unfold State.askWithdraw
  with_reducible repeat' first
    | intro _ | assumption | apply sound_next | apply sound_ite | apply out_ite | apply State.tell_sound | split | dsimp only

theorem State.dropRequests_sound {s : State} (h : Sound s) (t : Nat)  : Sound (s.dropRequests t) := by
  unfold State.dropRequests
  with_reducible repeat' first
    | intro _ | assumption | apply sound_next | apply sound_ite | apply out_ite | apply State.askWithdraw_sound | apply sound_foldl
    | apply sound_mk | split | dsimp only

theorem State.withdraw_sound {s : State} (h : Sound s) (t : Nat)  : Sound (s.withdraw t) := by
  unfold State.withdraw
  with_reducible repeat' first
    | intro _ | assumption | apply sound_next | apply sound_ite | apply out_ite | apply State.dropRequests_sound
    | apply State.leaveGang_sound | split | dsimp only

theorem State.feBack_sound {s : State} (h : Sound s) (t : Nat)  : Sound (s.feBack t) := by
  unfold State.feBack
  with_reducible repeat' first
    | intro _ | assumption | apply sound_next | apply sound_ite | apply out_ite | apply State.modThr_sound | split | dsimp only

theorem State.withdrawFe_sound {s : State} (h : Sound s) (t : Nat)  : Sound (s.withdrawFe t) := by
  unfold State.withdrawFe
  with_reducible repeat' first
    | intro _ | assumption | apply sound_next | apply sound_ite | apply out_ite | apply State.askWithdraw_sound
    | apply State.dropFlight_sound | apply State.entered_sound | apply State.feBack_sound | apply State.modFlight_sound | split | dsimp only

theorem State.finishKill_sound {s : State} (h : Sound s) (t : Nat)  : Sound (s.finishKill t) := by
  unfold State.finishKill
  with_reducible repeat' first
    | intro _ | assumption | apply sound_next | apply sound_ite | apply out_ite | apply State.endThread_sound | apply State.withdraw_sound
    | split | dsimp only

theorem State.kill_sound {s : State} (h : Sound s) (t : Nat)  : Sound (s.kill t) := by
  unfold State.kill
  with_reducible repeat' first
    | intro _ | assumption | apply sound_next | apply sound_ite | apply out_ite | apply State.finishKill_sound | apply State.modThr_sound
    | split | dsimp only

theorem execSpawn_sound {s : State} (h : Sound s) (d a : Reg)  : OutSound (execSpawn d a s) := by
  unfold execSpawn
  with_reducible repeat' first
    | intro _ | assumption | apply sound_next | apply sound_ite | apply out_ite | apply State.finish_sound | apply State.startThread_sound
    | apply State.wr_sound | split | dsimp only

theorem State.finishExit_sound {s : State} (h : Sound s) (t : Nat)  : Sound (s.finishExit t) := by
  unfold State.finishExit
  with_reducible repeat' first
    | intro _ | assumption | apply sound_next | apply sound_ite | apply out_ite | apply State.count_sound | apply State.endThread_sound
    | apply State.modThr_sound | apply State.trap_sound | split | dsimp only

theorem execExit_sound {s : State} (h : Sound s)   : OutSound (execExit s) := by
  unfold execExit
  with_reducible repeat' first
    | intro _ | assumption | apply sound_next | apply sound_ite | apply out_ite | apply State.finishExit_sound | apply State.parkMe_sound
    | apply State.trapMe_sound | split | dsimp only

theorem execYield_sound {s : State} (h : Sound s) (n : BitVec 12)  : OutSound (execYield n s) := by
  unfold execYield
  with_reducible repeat' first
    | intro _ | assumption | apply sound_next | apply sound_ite | apply out_ite | apply State.finish_sound | apply State.modThr_sound
    | split | dsimp only

theorem State.deal_sound {s : State} (h : Sound s) (op : DealerOp)  : Sound (s.deal op) := by
  unfold State.deal
  with_reducible repeat' first
    | intro _ | assumption | apply sound_next | apply sound_ite | apply out_ite | apply State.classZero_sound | apply State.modThr_sound
    | apply State.parkMe_sound | split | dsimp only

theorem execDpush_sound {s : State} (h : Sound s) (d a : Reg)  : OutSound (execDpush d a s) := by
  unfold execDpush
  with_reducible repeat' first
    | intro _ | assumption | apply sound_next | apply sound_ite | apply out_ite | apply State.deal_sound | split | dsimp only

theorem execDkey_sound {s : State} (h : Sound s) (d a : Reg)  : OutSound (execDkey d a s) := by
  unfold execDkey
  with_reducible repeat' first
    | intro _ | assumption | apply sound_next | apply sound_ite | apply out_ite | apply State.deal_sound | split | dsimp only

theorem execDdel_sound {s : State} (h : Sound s) (d a : Reg)  : OutSound (execDdel d a s) := by
  unfold execDdel
  with_reducible repeat' first
    | intro _ | assumption | apply sound_next | apply sound_ite | apply out_ite | apply State.deal_sound | split | dsimp only

theorem execDpop_sound {s : State} (h : Sound s) (d a : Reg)  : OutSound (execDpop d a s) := by
  unfold execDpop
  with_reducible repeat' first
    | intro _ | assumption | apply sound_next | apply sound_ite | apply out_ite | apply State.deal_sound | split | dsimp only

theorem State.farReply_sound {s : State} (h : Sound s) (t : Nat) (d : Reg) (v : Nat)  : Sound (s.farReply t d v) := by
  unfold State.farReply
  with_reducible repeat' first
    | intro _ | assumption | apply sound_next | apply sound_ite | apply out_ite | apply State.classZero_sound | split | dsimp only

theorem State.putHeap_sound {s : State} (h : Sound s) (h : List DealReq)  : Sound (s.putHeap h) := by
  unfold State.putHeap
  with_reducible repeat' first
    | intro _ | assumption | apply sound_next | apply sound_ite | apply out_ite | apply sound_mk | split | dsimp only

theorem State.parkFar_sound {s : State} (h : Sound s) (t : Nat) (w : Wait)  : Sound (s.parkFar t w) := by
  unfold State.parkFar
  with_reducible repeat' first
    | intro _ | assumption | apply sound_next | apply sound_ite | apply out_ite | apply State.modThr_sound | apply State.park_sound | split
    | dsimp only

theorem State.farNoAccess_sound {s : State} (h : Sound s) (t va : Nat) (r : Trans) : Sound (s.farNoAccess t va r) := by
  cases r <;> unfold State.farNoAccess
  all_goals
    with_reducible repeat' first
      | intro _ | assumption | apply sound_next | apply sound_ite | apply out_ite | apply State.parkFar_sound | apply State.startFetch_sound
      | apply State.trap_sound | split | dsimp only

theorem State.takeBatch_sound {s : State} (h : Sound s) (b : List DealReq)  : Sound (s.takeBatch b) := by
  unfold State.takeBatch
  with_reducible repeat' first
    | intro _ | assumption | apply sound_next | apply sound_ite | apply out_ite | apply State.putHeap_sound | apply sound_mk | split
    | dsimp only

theorem State.writeBatch_sound {s : State} (h : Sound s) (t g va : Nat) (via : List Via) (ws : List W64) (r : Reply)  : Sound (s.writeBatch t g va via ws r) := by
  unfold State.writeBatch
  with_reducible repeat' first
    | intro _ | assumption | apply sound_next | apply sound_ite | apply out_ite | apply State.fresh_sound | apply State.present_sound
    | split | dsimp only

theorem State.dealPop_sound {s : State} (h : Sound s) (t : Nat) (list : W64) (d : Reg)  : Sound (s.dealPop t list d) := by
  unfold State.dealPop
  with_reducible repeat' first
    | intro _ | assumption | apply sound_next | apply sound_ite | apply out_ite | apply State.farNoAccess_sound | apply State.farReply_sound
    | apply State.takeBatch_sound | apply State.trap_sound | apply State.writeBatch_sound | split | dsimp only

theorem execDealerOperation_sound {s : State} (h : Sound s) (t : Nat) (op : DealerOp)  : OutSound (execDealerOperation t op s) := by
  unfold execDealerOperation
  with_reducible repeat' first
    | intro _ | assumption | apply sound_next | apply sound_ite | apply out_ite | apply State.dealPop_sound | apply State.demand_sound
    | apply State.farReply_sound | apply State.putHeap_sound | split | dsimp only

theorem execTrap_sound {s : State} (h : Sound s) (imm : BitVec 12)  : OutSound (execTrap imm s) := by
  unfold execTrap
  with_reducible repeat' first
    | intro _ | assumption | apply sound_next | apply sound_ite | apply out_ite | apply State.trapMe_sound | split | dsimp only

theorem execBkpt_sound {s : State} (h : Sound s) (imm : BitVec 12)  : OutSound (execBkpt imm s) := by
  unfold execBkpt
  with_reducible repeat' first
    | intro _ | assumption | apply sound_next | apply sound_ite | apply out_ite | apply State.trapMe_sound | split | dsimp only

theorem State.popRecord_sound {s : State} (h : Sound s) (q : Nat) (r : TrapRec) (rs : List TrapRec) (hq : (s.core q).tq = r :: rs) :
    Sound (s.modCore q (fun c => { c with tq := rs })) := by
  refine sound_putCore h q _ ?_
  have := h.2 q
  rw [hq] at this
  exact Nat.le_of_succ_le this

theorem execTqpop_sound {s : State} (h : Sound s) (d : Reg) (nw : Bool) : OutSound (execTqpop d nw s) := by
  unfold execTqpop
  with_reducible apply sound_next
  with_reducible apply State.supervisor_sound h
  intro s h
  dsimp only
  split
  · with_reducible apply sound_ite <;> intro _
    · exact State.finish_sound (State.modThr_sound h _ _)
    · exact State.parkMe_sound h _ _
  · rename_i r rs hq
    exact State.finish_sound (State.admitWaiting_sound (State.modThr_sound (State.popRecord_sound h _ r rs hq) _ _) _)

theorem State.dropRecord_sound {s : State} (h : Sound s) (q n : Nat) : Sound (s.dropRecord q n) := by
  unfold State.dropRecord
  with_reducible apply sound_ite <;> intro _
  · exact State.admitWaiting_sound (sound_modCore h _ _ (fun _ hc => Nat.le_trans (List.length_filter_le _ _) hc)) _
  · exact h

theorem State.resumeThread_sound {s : State} (h : Sound s) (t : Nat) (skip : Bool)  : Sound (s.resumeThread t skip) := by
  unfold State.resumeThread
  with_reducible repeat' first
    | intro _ | assumption | apply sound_next | apply sound_ite | apply out_ite | apply State.modThr_sound | split | dsimp only

theorem execTresume_sound {s : State} (h : Sound s) (d a : Reg) (act : ResumeAct)  : OutSound (execTresume d a act s) := by
  unfold execTresume
  with_reducible repeat' first
    | intro _ | assumption | apply sound_next | apply sound_ite | apply out_ite | apply State.dropRecord_sound | apply State.finish_sound
    | apply State.kill_sound | apply State.resumeThread_sound | apply State.supervisor_sound | apply State.wr_sound | split | dsimp only

theorem execDebugHalt_sound {s : State} (h : Sound s) (t : Nat)  : OutSound (execDebugHalt t s) := by
  unfold execDebugHalt
  with_reducible repeat' first
    | intro _ | assumption | apply sound_next | apply sound_ite | apply out_ite | apply State.modThr_sound | split | dsimp only

theorem execDebugResume_sound {s : State} (h : Sound s) (t : Nat)  : OutSound (execDebugResume t s) := by
  unfold execDebugResume
  with_reducible repeat' first
    | intro _ | assumption | apply sound_next | apply sound_ite | apply out_ite | apply State.modThr_sound | split | dsimp only

theorem execWaitWatchdog_sound {s : State} (h : Sound s) (t : Nat)  : OutSound (execWaitWatchdog t s) := by
  unfold execWaitWatchdog
  with_reducible repeat' first
    | intro _ | assumption | apply sound_next | apply sound_ite | apply out_ite | apply State.trap_sound | apply State.withdraw_sound
    | split | dsimp only

end Sys2Proof.Machine
end

