-- ==== Sys2Proof/Laws/SoundDescriptor.lean ====
section
/-! SUPPORT. The invariant of `Safety` through the operations of `Machine/Descriptor`. -/
namespace Sys2Proof.Machine
open Sys2Proof.Safety

theorem State.readDescriptor_sound {s : State} (h : Sound s) (va n kind : Nat) (whole : Bool)  : Sound (s.readDescriptor va n kind whole) := by
  unfold State.readDescriptor
  with_reducible repeat' first
    | intro _ | assumption | apply sound_next | apply sound_ite | apply out_ite | apply State.launchAccess_sound
    | apply State.noAccess_sound | apply State.trapMe_sound | split | dsimp only

theorem State.asIssuing_sound {s : State} (h : Sound s) (t : Nat)  : Sound (s.asIssuing t) := by
  unfold State.asIssuing
  with_reducible repeat' first
    | intro _ | assumption | apply sound_next | apply sound_ite | apply out_ite | apply State.wake_sound | apply sound_mk | split
    | dsimp only

theorem State.keepWords_sound {s : State} (h : Sound s) (got : Sparse Byte) (whole : Bool)  : Sound (s.keepWords got whole) := by
  unfold State.keepWords
  with_reducible repeat' first
    | intro _ | assumption | apply sound_next | apply sound_ite | apply out_ite | apply State.modThr_sound | split | dsimp only

theorem State.completionWord_sound {s : State} (h : Sound s) (va : Nat) (go : Option Nat → List Via → State → State) (hgo : ∀ (x0 : Option Nat) (x1 : List Via) (x2 : State), Sound x2 → Sound (go x0 x1 x2)) : Sound (s.completionWord va go) := by
  unfold State.completionWord
  with_reducible repeat' first
    | intro _ | assumption | apply sound_next | apply sound_ite | apply out_ite | apply hgo | apply State.mapChecked_sound
    | apply State.noAccess_sound | apply State.trapMe_sound | split | dsimp only

theorem State.writeStatus_sound {s : State} (h : Sound s) (fin sent : Option Nat) (v : Nat) (a : Agent)  : Sound ((s.writeStatus fin sent v a).1) := by
  unfold State.writeStatus
  with_reducible repeat' first
    | intro _ | assumption | apply sound_next | apply sound_ite | apply out_ite | apply State.demand_sound | apply State.fresh_sound
    | apply State.noteUse_sound | apply State.present_sound | apply State.store_sound | apply State.takeOwner_sound
    | apply State.writePiece_sound | split | dsimp only

theorem State.engineTurn_sound {s : State} (h : Sound s) (p : Piece) (pipe : Nat) (wr : Bool)  : Sound ((s.engineTurn p pipe wr).1) := by
  unfold State.engineTurn
  with_reducible repeat' first
    | intro _ | assumption | apply sound_next | apply sound_ite | apply out_ite | apply State.demand_sound | apply State.takeOwner_sound
    | apply State.wr_sound | split | dsimp only

theorem State.engineRead_sound {s : State} (h : Sound s) (a : Agent) (p : Piece) (x : Transfer) : Sound (s.engineRead a p x).1 := by
  unfold State.engineRead
  have h1 := State.engineTurn_sound h p x.pipe false
  generalize s.engineTurn p x.pipe false = r at h1
  obtain ⟨s1, n, _ | _⟩ := r <;>
  with_reducible repeat' first
    | intro _ | assumption | apply State.present_sound | apply State.fresh_sound | apply State.dropFlight_sound | apply State.noteRead_sound
    | apply State.noteUse_sound | split | dsimp only

theorem State.writeMarked_sound {s : State} (h : Sound s) (p : Piece) (data : Sparse Byte) (bad : List Nat) (a : Agent)  : Sound (s.writeMarked p data bad a) := by
  unfold State.writeMarked
  with_reducible repeat' first
    | intro _ | assumption | apply sound_next | apply sound_ite | apply out_ite | apply State.poisonWord_sound
    | apply State.writePiece_sound | apply sound_foldl | split | dsimp only

theorem State.engineWrite_sound {s : State} (h : Sound s) (a : Agent) (p : Piece) (x : Transfer) : Sound (s.engineWrite a p x).1 := by
  unfold State.engineWrite
  have h1 := State.engineTurn_sound h p x.pipe true
  generalize s.engineTurn p x.pipe true = r at h1
  obtain ⟨s1, n, _ | _⟩ := r <;>
  with_reducible repeat' first
    | intro _ | assumption | apply State.present_sound | apply State.fresh_sound | apply State.dropFlight_sound | apply State.writeMarked_sound
    | apply State.noteUse_sound | split | dsimp only

end Sys2Proof.Machine
end

