-- ==== Sys2Proof/Laws/SoundRanges.lean ====
section
/-! SUPPORT. The invariant of `Safety` through the operations of `Machine/Ranges`. -/
namespace Sys2Proof.Machine
open Sys2Proof.Safety

theorem State.mapVia_sound {s : State} (h : Sound s) (f : List Via → List Via) : Sound (s.mapVia f) :=
  sound_mk (sound_copies h (fun l => l.map (fun c => { c with via := f c.via })) rfl) ..

theorem State.releaseVia_sound {s : State} (h : Sound s) (tbl i : Nat)  : Sound (s.releaseVia tbl i) := by
  unfold State.releaseVia
  with_reducible repeat' first
    | intro _ | assumption | apply sound_next | apply sound_ite | apply out_ite | apply State.mapVia_sound | split | dsimp only

theorem State.moveVia_sound {s : State} (h : Sound s) (tbl i j a : Nat)  : Sound (s.moveVia tbl i j a) := by
  unfold State.moveVia
  with_reducible repeat' first
    | intro _ | assumption | apply sound_next | apply sound_ite | apply out_ite | apply State.mapVia_sound | split | dsimp only

theorem State.setEntry_go_sound {s : State} (h : Sound s) (tbl i : Nat) (d : Reg) (e : Entry) : Sound (State.setEntry.go s tbl i d e) := by
  unfold State.setEntry.go
  split
  · exact State.parkMe_sound (sound_mk h ..) _ _
  · exact State.finish_sound (State.wr_sound (State.putEntry_sound (State.releaseVia_sound h _ _) _ _ _) _ _)

theorem State.setEntry_sound {s : State} (h : Sound s) (tbl i : Nat) (d a : Reg) : Sound (s.setEntry tbl i d a) := by
  unfold State.setEntry
  with_reducible repeat' first
    | intro _ | assumption | apply sound_ite | apply State.finish_sound | apply State.parkMe_sound | apply State.setEntry_go_sound
    | apply State.wr_sound | split | dsimp only

theorem State.setTag_sound {s : State} (h : Sound s) (d a : Reg) (k : BitVec 12 → State) (hk : ∀ (x0 : BitVec 12), Sound (k x0)) : Sound (s.setTag d a k) := by
  unfold State.setTag
  with_reducible repeat' first
    | intro _ | assumption | apply sound_next | apply sound_ite | apply out_ite | apply hk | apply State.finish_sound | apply State.wr_sound
    | split | dsimp only

theorem execRgset_sound {s : State} (h : Sound s) (d : Reg) (t : RgTarget) (a : Reg)  : OutSound (execRgset d t a s) := by
  unfold execRgset
  with_reducible repeat' first
    | intro _ | assumption | apply sound_next | apply sound_ite | apply out_ite | apply State.modIsl_sound | apply State.modThr_sound
    | apply State.setEntry_sound | apply State.setTag_sound | apply State.supervisor_sound | split | dsimp only

theorem execRgget_sound {s : State} (h : Sound s) (d : Reg) (t : RgTarget)  : OutSound (execRgget d t s) := by
  unfold execRgget
  with_reducible repeat' first
    | intro _ | assumption | apply sound_next | apply sound_ite | apply out_ite | apply State.finish_sound | apply State.modThr_sound
    | apply State.supervisor_sound | apply State.wr_sound | split | dsimp only

theorem execRgprobe_sound {s : State} (h : Sound s) (d a : Reg)  : OutSound (execRgprobe d a s) := by
  unfold execRgprobe
  with_reducible repeat' first
    | intro _ | assumption | apply sound_next | apply sound_ite | apply out_ite | apply State.finish_sound | apply State.modThr_sound
    | split | dsimp only

theorem execRgsplit_sound {s : State} (h : Sound s) (d : Reg) (i j : BitVec 5) (a : Reg)  : OutSound (execRgsplit d i j a s) := by
  unfold execRgsplit
  with_reducible repeat' first
    | intro _ | assumption | apply sound_next | apply sound_ite | apply out_ite | apply State.finish_sound | apply State.moveVia_sound
    | apply State.putEntry_sound | apply State.supervisor_sound | apply State.wr_sound | split | dsimp only

theorem execRgmerge_sound {s : State} (h : Sound s) (d : Reg) (i j : BitVec 5)  : OutSound (execRgmerge d i j s) := by
  unfold execRgmerge
  with_reducible repeat' first
    | intro _ | assumption | apply sound_next | apply sound_ite | apply out_ite | apply State.finish_sound | apply State.moveVia_sound
    | apply State.putEntry_sound | apply State.supervisor_sound | apply State.wr_sound | split | dsimp only

theorem State.modInval_sound {s : State} (h : Sound s) (id : Nat) (f : Inval → Inval)  : Sound (s.modInval id f) := by
  unfold State.modInval
  with_reducible repeat' first
    | intro _ | assumption | apply sound_next | apply sound_ite | apply out_ite | split | apply sound_mk | dsimp only

theorem State.sweepInvals_sound {s : State} (h : Sound s)   : Sound (s.sweepInvals) := by
  unfold State.sweepInvals
  with_reducible repeat' first
    | intro _ | assumption | apply sound_next | apply sound_ite | apply out_ite | apply State.answer_sound | apply State.tell_sound
    | apply sound_foldl | split | apply sound_mk | dsimp only

theorem State.finishInval_sound {s : State} (h : Sound s) (t id : Nat)  : Sound (s.finishInval t id) := by
  unfold State.finishInval
  with_reducible repeat' first
    | intro _ | assumption | apply sound_next | apply sound_ite | apply out_ite | apply State.completeParked_sound | split | apply sound_mk
    | dsimp only

theorem State.discardHeld_sound {s : State} (h : Sound s) (a : Access) (cause : Nat)  : Sound (s.discardHeld a cause) := by
  unfold State.discardHeld
  with_reducible repeat' first
    | intro _ | assumption | apply sound_next | apply sound_ite | apply out_ite | apply State.dropFlight_sound | apply State.modThr_sound
    | split | dsimp only

theorem State.dropEntry_sound {s : State} (h : Sound s) (id tbl i : Nat)  : Sound (s.dropEntry id tbl i) := by
  unfold State.dropEntry
  with_reducible repeat' first
    | intro _ | assumption | apply sound_next | apply sound_ite | apply out_ite | apply State.discardHeld_sound | apply State.later_sound
    | apply State.modInval_sound | apply State.putEntry_sound | apply sound_foldl | split | apply sound_mk | dsimp only

theorem State.clearTable_sound {s : State} (h : Sound s) (tbl : Nat)  : Sound (s.clearTable tbl) := by
  unfold State.clearTable
  with_reducible repeat' first
    | intro _ | assumption | apply sound_next | apply sound_ite | apply out_ite | apply State.later_sound | apply State.putTable_sound
    | apply State.releaseVia_sound | apply sound_foldl | split | apply sound_mk | dsimp only

theorem State.dropAt_sound {s : State} (h : Sound s) (id tbl : Nat)  : Sound (s.dropAt id tbl) := by
  unfold State.dropAt
  with_reducible repeat' first
    | intro _ | assumption | apply sound_next | apply sound_ite | apply out_ite | apply State.dropEntry_sound | apply sound_foldl | split
    | dsimp only

theorem State.sendScope_sound {s : State} (h : Sound s) (x : Inval) (q : Nat)  : Sound (s.sendScope x q) := by
  unfold State.sendScope
  with_reducible repeat' first
    | intro _ | assumption | apply sound_next | apply sound_ite | apply out_ite | apply State.classZero_sound | apply State.modInval_sound
    | apply State.tell_sound | apply sound_foldl | split | dsimp only

theorem State.addInval_sound {s : State} (h : Sound s) (x : Inval)  : Sound (s.addInval x) := by
  unfold State.addInval
  with_reducible repeat' first
    | intro _ | assumption | apply sound_next | apply sound_ite | apply out_ite | split | apply sound_mk | dsimp only

theorem State.afterInval_sound {s : State} (h : Sound s) (id : Nat) (nowait : Bool)  : Sound (s.afterInval id nowait) := by
  unfold State.afterInval
  with_reducible repeat' first
    | intro _ | assumption | apply sound_next | apply sound_ite | apply out_ite | apply State.finish_sound | apply State.parkMe_sound
    | split | apply sound_mk | dsimp only

theorem execRginv_sound {s : State} (h : Sound s) (sc : Scope) (nw : Bool) (d a : Reg)  : OutSound (execRginv sc nw d a s) := by
  unfold execRginv
  with_reducible repeat' first
    | intro _ | assumption | apply sound_next | apply sound_ite | apply out_ite | apply State.addInval_sound | apply State.afterInval_sound
    | apply State.dropAt_sound | apply State.fresh_sound | apply State.parkMe_sound | apply State.sendScope_sound
    | apply State.supervisor_sound | apply State.trapMe_sound | split | dsimp only

theorem execRangeDropArrive_sound {s : State} (h : Sound s) (id tbl : Nat)  : OutSound (execRangeDropArrive id tbl s) := by
  unfold execRangeDropArrive
  with_reducible repeat' first
    | intro _ | assumption | apply sound_next | apply sound_ite | apply out_ite | apply State.classZero_sound | apply State.dropAt_sound
    | split | dsimp only

theorem execRangeDropAck_sound {s : State} (h : Sound s) (id tbl : Nat)  : OutSound (execRangeDropAck id tbl s) := by
  unfold execRangeDropAck
  with_reducible repeat' first
    | intro _ | assumption | apply sound_next | apply sound_ite | apply out_ite | apply State.modInval_sound | split | dsimp only

theorem execRangeEntryInvalid_sound {s : State} (h : Sound s) (tbl i : Nat)  : OutSound (execRangeEntryInvalid tbl i s) := by
  unfold execRangeEntryInvalid
  with_reducible repeat' first
    | intro _ | assumption | apply sound_next | apply sound_ite | apply out_ite | apply State.putEntry_sound | split | apply sound_mk
    | dsimp only

theorem execRgsync_sound {s : State} (h : Sound s)   : OutSound (execRgsync s) := by
  unfold execRgsync
  with_reducible repeat' first
    | intro _ | assumption | apply sound_next | apply sound_ite | apply out_ite | apply State.finish_sound | apply State.parkMe_sound
    | split | dsimp only

theorem State.resEntry_sound {s : State} (h : Sound s) (id tbl i : Nat)  : Sound (s.resEntry id tbl i) := by
  unfold State.resEntry
  with_reducible repeat' first
    | intro _ | assumption | apply sound_next | apply sound_ite | apply out_ite | apply State.later_sound | apply State.modInval_sound
    | apply State.putEntry_sound | split | dsimp only

theorem State.resAt_sound {s : State} (h : Sound s) (id tbl : Nat)  : Sound (s.resAt id tbl) := by
  unfold State.resAt
  with_reducible repeat' first
    | intro _ | assumption | apply sound_next | apply sound_ite | apply out_ite | apply State.resEntry_sound | apply sound_foldl | split
    | dsimp only

theorem execRgres_sound {s : State} (h : Sound s) (sc : Scope) (d a : Reg)  : OutSound (execRgres sc d a s) := by
  unfold execRgres
  with_reducible repeat' first
    | intro _ | assumption | apply sound_next | apply sound_ite | apply out_ite | apply State.addInval_sound | apply State.afterInval_sound
    | apply State.fresh_sound | apply State.resAt_sound | apply State.sendScope_sound | apply State.supervisor_sound
    | apply State.trapMe_sound | split | dsimp only

theorem execRgresUpdateArrive_sound {s : State} (h : Sound s) (id tbl : Nat)  : OutSound (execRgresUpdateArrive id tbl s) := by
  unfold execRgresUpdateArrive
  with_reducible repeat' first
    | intro _ | assumption | apply sound_next | apply sound_ite | apply out_ite | apply State.modInval_sound | apply State.resAt_sound
    | split | dsimp only

theorem State.lateUpdates_sound {s : State} (h : Sound s) (tbl i : Nat)  : Sound (s.lateUpdates tbl i) := by
  unfold State.lateUpdates
  with_reducible repeat' first
    | intro _ | assumption | apply sound_next | apply sound_ite | apply out_ite | apply State.later_sound | apply State.modInval_sound
    | apply State.resEntry_sound | apply sound_foldl | split | dsimp only

theorem State.retryHeld_sound {s : State} (h : Sound s) (a : Access) (tbl i : Nat)  : Sound (s.retryHeld a tbl i) := by
  unfold State.retryHeld
  with_reducible repeat' first
    | intro _ | assumption | apply sound_next | apply sound_ite | apply out_ite | apply State.discardHeld_sound
    | apply State.modFlight_sound | apply State.present_sound | apply State.startFetch_sound | split | dsimp only

theorem State.releaseHeld_sound {s : State} (h : Sound s) (tbl i : Nat)  : Sound (s.releaseHeld tbl i) := by
  unfold State.releaseHeld
  with_reducible repeat' first
    | intro _ | assumption | apply sound_next | apply sound_ite | apply out_ite | apply State.retryHeld_sound | apply sound_foldl | split
    | dsimp only

theorem State.widen_sound {s : State} (h : Sound s) (f : Fetch)  : Sound (s.widen f) := by
  unfold State.widen
  with_reducible repeat' first
    | intro _ | assumption | apply sound_next | apply sound_ite | apply out_ite | apply State.putTable_sound | apply sound_foldl | split
    | dsimp only

theorem State.dropFetch_sound {s : State} (h : Sound s) (id : Nat)  : Sound (s.dropFetch id) := by
  unfold State.dropFetch
  with_reducible repeat' first
    | intro _ | assumption | apply sound_next | apply sound_ite | apply out_ite | split | apply sound_mk | dsimp only

theorem execResidencyFetchComplete_sound {s : State} (h : Sound s) (id : Nat)  : OutSound (execResidencyFetchComplete id s) := by
  unfold execResidencyFetchComplete
  with_reducible repeat' first
    | intro _ | assumption | apply sound_next | apply sound_ite | apply out_ite | apply State.dropFetch_sound
    | apply State.lateUpdates_sound | apply State.putEntry_sound | apply State.releaseHeld_sound | apply State.widen_sound | split
    | dsimp only

theorem State.failWaiters_sound {s : State} (h : Sound s) (tbl i : Nat)  : Sound (s.failWaiters tbl i) := by
  unfold State.failWaiters
  with_reducible repeat' first
    | intro _ | assumption | apply sound_next | apply sound_ite | apply out_ite | apply State.discardHeld_sound
    | apply State.failFetchingGangs_sound | apply State.modIsl_sound | apply State.trap_sound | apply sound_foldl | split | dsimp only

theorem execResidencyFetchFail_sound {s : State} (h : Sound s) (id : Nat)  : OutSound (execResidencyFetchFail id s) := by
  unfold execResidencyFetchFail
  with_reducible repeat' first
    | intro _ | assumption | apply sound_next | apply sound_ite | apply out_ite | apply State.dropFetch_sound
    | apply State.failWaiters_sound | apply State.lateUpdates_sound | apply State.putEntry_sound | apply State.releaseHeld_sound | split
    | dsimp only

theorem State.compDescribed_sound {s : State} (h : Sound s) (got : Sparse Byte)  : Sound (s.compDescribed got) := by
  unfold State.compDescribed
  with_reducible repeat' first
    | intro _ | assumption | apply sound_next | apply sound_ite | apply out_ite | apply State.completionWord_sound
    | apply State.finish_sound | apply State.fresh_sound | apply State.parkMe_sound | apply State.trapMe_sound | split | apply sound_mk
    | dsimp only

theorem execRgcpt_sound {s : State} (h : Sound s) (a : Reg)  : OutSound (execRgcpt a s) := by
  unfold execRgcpt
  with_reducible repeat' first
    | intro _ | assumption | apply sound_next | apply sound_ite | apply out_ite | apply State.compDescribed_sound
    | apply State.keepWords_sound | apply State.readDescriptor_sound | apply State.supervisor_sound | split | dsimp only

theorem State.modComp_sound {s : State} (h : Sound s) (f : CompCmd → CompCmd)  : Sound (s.modComp f) := by
  unfold State.modComp
  with_reducible repeat' first
    | intro _ | assumption | apply sound_next | apply sound_ite | apply out_ite | split | apply sound_mk | dsimp only

theorem State.finishComp_sound {s : State} (h : Sound s) (c : CompCmd) (v : Nat)  : Sound (s.finishComp c v) := by
  unfold State.finishComp
  with_reducible repeat' first
    | intro _ | assumption | apply sound_next | apply sound_ite | apply out_ite | apply State.modComp_sound | apply State.writeStatus_sound
    | apply State.writeStatus_sound | split | apply sound_mk | dsimp only

theorem execCompactorTake_sound {s : State} (h : Sound s)   : OutSound (execCompactorTake s) := by
  unfold execCompactorTake
  with_reducible repeat' first
    | intro _ | assumption | apply sound_next | apply sound_ite | apply out_ite | apply State.finishComp_sound | apply State.modComp_sound
    | apply State.putEntry_sound | apply sound_foldl | split | dsimp only

theorem execCompactorDrainDone_sound {s : State} (h : Sound s)   : OutSound (execCompactorDrainDone s) := by
  unfold execCompactorDrainDone
  with_reducible repeat' first
    | intro _ | assumption | apply sound_next | apply sound_ite | apply out_ite | apply State.later_sound | apply State.modComp_sound
    | split | dsimp only

theorem State.copyRegion_sound {s : State} (h : Sound s) (src dst len : Nat) (a : Agent) : Sound (s.copyRegion src dst len a).1 := by
  unfold State.copyRegion
  with_reducible repeat' first
    | intro _ | assumption | apply sound_ite | apply sound_foldl | apply State.poisonWord_sound | apply State.setMark_sound
    | apply State.putByte_sound | apply State.setFull_sound | apply State.corrected_sound | apply State.noteRead_sound

theorem State.moveDemand_sound {s : State} (h : Sound s) (g n : Nat)  : Sound (s.moveDemand g n) := by
  unfold State.moveDemand
  with_reducible repeat' first
    | intro _ | assumption | apply sound_next | apply sound_ite | apply out_ite | apply State.demand_sound | apply sound_foldl | split
    | dsimp only

theorem State.moveNoted_sound {s : State} (h : Sound s) (g n : Nat)  : Sound (s.moveNoted g n) := by
  unfold State.moveNoted
  with_reducible repeat' first
    | intro _ | assumption | apply sound_next | apply sound_ite | apply out_ite | apply State.noteUse_sound | apply sound_foldl | split
    | dsimp only

theorem State.rewrite_sound {s : State} (h : Sound s) (c : CompCmd) (x : Nat × Nat)  : Sound (s.rewrite c x) := by
  unfold State.rewrite
  with_reducible repeat' first
    | intro _ | assumption | apply sound_next | apply sound_ite | apply out_ite | apply State.lateUpdates_sound | apply State.putEntry_sound
    | split | dsimp only

theorem execCompactorMoveDone_sound {s : State} (h : Sound s)   : OutSound (execCompactorMoveDone s) := by
  unfold execCompactorMoveDone
  with_reducible repeat' first
    | intro _ | assumption | apply sound_next | apply sound_ite | apply out_ite | apply State.after_sound | apply State.copyRegion_sound
    | apply State.finishComp_sound | apply State.modComp_sound | apply State.moveDemand_sound | apply State.moveNoted_sound
    | apply State.rewrite_sound | apply sound_foldl | apply State.copyRegion_sound | split | dsimp only

end Sys2Proof.Machine
end

