-- ==== Sys2Proof/Laws/SoundTransit.lean ====
section
/-! SUPPORT. The invariant of `Safety` through the operations of `Machine/Transit`. -/
namespace Sys2Proof.Machine
open Sys2Proof.Safety

theorem State.putOut_sound {s : State} (h : Sound s) (c o : Nat) (x : OutChan)  : Sound (s.putOut c o x) := by
  unfold State.putOut
  with_reducible repeat' first
    | intro _ | assumption | apply sound_next | apply sound_ite | apply out_ite | apply State.modCol_sound | split | dsimp only

theorem State.putIn_sound {s : State} (h : Sound s) (c i : Nat) (x : InChan)  : Sound (s.putIn c i x) := by
  unfold State.putIn
  with_reducible repeat' first
    | intro _ | assumption | apply sound_next | apply sound_ite | apply out_ite | apply State.modCol_sound | split | dsimp only

theorem State.unbind_sound {s : State} (h : Sound s) (x : OutChan)  : Sound (s.unbind x) := by
  unfold State.unbind
  with_reducible repeat' first
    | intro _ | assumption | apply sound_next | apply sound_ite | apply out_ite | apply State.branch_sound | apply State.putIn_sound
    | apply sound_foldl | split | dsimp only

theorem State.bind_sound {s : State} (h : Sound s) (c o : Nat) (l : List Branch)  : Sound (s.bind c o l) := by
  unfold State.bind
  with_reducible repeat' first
    | intro _ | assumption | apply sound_next | apply sound_ite | apply out_ite | apply State.branch_sound | apply State.putIn_sound
    | apply State.putOut_sound | apply State.unbind_sound | apply sound_foldl | split | dsimp only

theorem execXbind_sound {s : State} (h : Sound s) (o : PReg) (a : Reg) (n : BitVec 3)  : OutSound (execXbind o a n s) := by
  unfold execXbind
  with_reducible repeat' first
    | intro _ | assumption | apply sound_next | apply sound_ite | apply out_ite | apply State.bind_sound | apply State.finish_sound
    | apply State.parkMe_sound | apply State.supervisor_sound | apply State.trapMe_sound | split | dsimp only

theorem State.queueSend_sound {s : State} (h : Sound s) (c : Nat) (i : SendItem)  : Sound (s.queueSend c i) := by
  unfold State.queueSend
  with_reducible repeat' first
    | intro _ | assumption | apply sound_next | apply sound_ite | apply out_ite | apply State.modCol_sound | split | dsimp only

theorem execXsend_sound {s : State} (h : Sound s) (o : PReg) (a d : Reg)  : OutSound (execXsend o a d s) := by
  unfold execXsend
  with_reducible repeat' first
    | intro _ | assumption | apply sound_next | apply sound_ite | apply out_ite | apply State.fresh_sound | apply State.mapChecked_sound
    | apply State.noAccess_sound | apply State.parkMe_sound | apply State.putOut_sound | apply State.queueSend_sound
    | apply State.trapMe_sound | split | dsimp only

theorem execXfold_sound {s : State} (h : Sound s) (o : PReg) (a : Reg)  : OutSound (execXfold o a s) := by
  unfold execXfold
  with_reducible repeat' first
    | intro _ | assumption | apply sound_next | apply sound_ite | apply out_ite | apply State.finish_sound | apply State.fresh_sound
    | apply State.parkMe_sound | apply State.putOut_sound | apply State.queueSend_sound | apply State.trapMe_sound | split | dsimp only

theorem execXflush_sound {s : State} (h : Sound s) (o : PReg)  : OutSound (execXflush o s) := by
  unfold execXflush
  with_reducible repeat' first
    | intro _ | assumption | apply sound_next | apply sound_ite | apply out_ite | apply State.fresh_sound | apply State.modCol_sound
    | apply State.parkMe_sound | apply State.queueSend_sound | apply State.trapMe_sound | split | dsimp only

theorem execXrecv_sound {s : State} (h : Sound s) (d : Reg) (i : PReg)  : OutSound (execXrecv d i s) := by
  unfold execXrecv
  with_reducible repeat' first
    | intro _ | assumption | apply sound_next | apply sound_ite | apply out_ite | apply State.finish_sound | apply State.modThr_sound
    | apply State.parkMe_sound | apply State.putIn_sound | apply State.trapMe_sound | split | dsimp only

theorem execXfree_sound {s : State} (h : Sound s) (i : PReg)  : OutSound (execXfree i s) := by
  unfold execXfree
  with_reducible repeat' first
    | intro _ | assumption | apply sound_next | apply sound_ite | apply out_ite | apply State.after_sound | apply State.branch_sound
    | apply State.finish_sound | apply State.parkMe_sound | apply State.putIn_sound | apply State.trapMe_sound | split | dsimp only

theorem execXstat_sound {s : State} (h : Sound s) (d : Reg) (inb : Bool) (c : PReg)  : OutSound (execXstat d inb c s) := by
  unfold execXstat
  with_reducible repeat' first
    | intro _ | assumption | apply sound_next | apply sound_ite | apply out_ite | apply State.finish_sound | apply State.wr_sound | split
    | dsimp only

theorem State.modSend_sound {s : State} (h : Sound s) (c : Nat) (f : SendItem → List SendItem)  : Sound (s.modSend c f) := by
  unfold State.modSend
  with_reducible repeat' first
    | intro _ | assumption | apply sound_next | apply sound_ite | apply out_ite | apply State.modCol_sound | split | dsimp only

theorem State.sendOver_sound {s : State} (h : Sound s) (i : SendItem)  : Sound (s.sendOver i) := by
  unfold State.sendOver
  with_reducible repeat' first
    | intro _ | assumption | apply sound_next | apply sound_ite | apply out_ite | apply State.completeParked_sound | split | dsimp only

theorem State.sendData_sound {s : State} (h : Sound s) (c : Nat) (i : SendItem) (x : OutChan)  : Sound (s.sendData c i x) := by
  unfold State.sendData
  with_reducible repeat' first
    | intro _ | assumption | apply sound_next | apply sound_ite | apply out_ite | apply State.branch_sound | apply State.engineRead_sound
    | apply State.fresh_sound | apply State.modCol_sound | apply State.modSend_sound | apply State.sendOver_sound | split | dsimp only

theorem State.sendMessage_sound {s : State} (h : Sound s) (c : Nat) (i : SendItem) (x : OutChan)  : Sound (s.sendMessage c i x) := by
  unfold State.sendMessage
  with_reducible repeat' first
    | intro _ | assumption | apply sound_next | apply sound_ite | apply out_ite | apply State.after_sound | apply State.fresh_sound
    | apply State.modSend_sound | split | dsimp only

theorem execTransitSenderPacket_sound {s : State} (h : Sound s) (c : Nat)  : OutSound (execTransitSenderPacket c s) := by
  unfold execTransitSenderPacket
  with_reducible repeat' first
    | intro _ | assumption | apply sound_next | apply sound_ite | apply out_ite | apply State.sendData_sound | apply State.sendMessage_sound
    | split | dsimp only

theorem State.deliver_sound {s : State} (h : Sound s) (p : TransitPkt)  : Sound (s.deliver p) := by
  unfold State.deliver
  with_reducible repeat' first
    | intro _ | assumption | apply sound_next | apply sound_ite | apply out_ite | apply State.modCol_sound | apply State.noteUse_sound
    | apply State.poisonWord_sound | apply State.putIn_sound | apply State.setAll_sound | apply State.store_sound
    | apply State.takeOwner_sound | apply sound_foldl | split | dsimp only

theorem execTransitPacket_sound {s : State} (h : Sound s) (p : TransitPkt)  : OutSound (execTransitPacket p s) := by
  unfold execTransitPacket
  with_reducible repeat' first
    | intro _ | assumption | apply sound_next | apply sound_ite | apply out_ite | apply State.deliver_sound | split | dsimp only

theorem execTransitFoldApply_sound {s : State} (h : Sound s) (c i tag emit : Nat)  : OutSound (execTransitFoldApply c i tag emit s) := by
  unfold execTransitFoldApply
  with_reducible repeat' first
    | intro _ | assumption | apply sound_next | apply sound_ite | apply out_ite | apply State.after_sound | apply State.branch_sound
    | apply State.putIn_sound | split | dsimp only

theorem execTransitFlushApply_sound {s : State} (h : Sound s) (c i emit : Nat)  : OutSound (execTransitFlushApply c i emit s) := by
  unfold execTransitFlushApply
  with_reducible repeat' first
    | intro _ | assumption | apply sound_next | apply sound_ite | apply out_ite | apply State.after_sound | apply State.branch_sound
    | apply State.putIn_sound | split | dsimp only

theorem State.flushAnswer_sound {s : State} (h : Sound s) (c o b : Nat)  : Sound (s.flushAnswer c o b) := by
  unfold State.flushAnswer
  with_reducible repeat' first
    | intro _ | assumption | apply sound_next | apply sound_ite | apply out_ite | apply State.completeParked_sound
    | apply State.modCol_sound | apply sound_foldl | split | dsimp only

theorem execTransitCredit_sound {s : State} (h : Sound s) (c o b n : Nat) (answer ret : Bool)  : OutSound (execTransitCredit c o b n answer ret s) := by
  unfold execTransitCredit
  with_reducible repeat' first
    | intro _ | assumption | apply sound_next | apply sound_ite | apply out_ite | apply State.answer_sound | apply State.flushAnswer_sound
    | apply State.putIn_sound | apply State.putOut_sound | split | dsimp only

end Sys2Proof.Machine
end

