-- ==== Sys2Proof/Laws/SoundEngines.lean ====
section
/-! SUPPORT. The invariant of `Safety` through the operations of `Machine/Engines`. -/
namespace Sys2Proof.Machine
open Sys2Proof.Safety

theorem State.extentChecked_sound {s : State} (h : Sound s) (x : Int × Int) (k : BitVec 5) (go : Nat → Bool → List Via → State → State) (hgo : ∀ (x0 : Nat) (x1 : Bool) (x2 : List Via) (x3 : State), Sound x3 → Sound (go x0 x1 x2 x3)) : Sound (s.extentChecked x k go) := by
  unfold State.extentChecked
  with_reducible repeat' first
    | intro _ | assumption | apply sound_next | apply sound_ite | apply out_ite | apply hgo | apply State.mapChecked_sound
    | apply State.noAccess_sound | split | dsimp only

theorem State.copyDescribed_sound {s : State} (h : Sound s) (got : Sparse Byte)  : Sound (s.copyDescribed got) := by
  unfold State.copyDescribed
  with_reducible repeat' first
    | intro _ | assumption | apply sound_next | apply sound_ite | apply out_ite | apply State.completionWord_sound
    | apply State.extentChecked_sound | apply State.finish_sound | apply State.fresh_sound | apply State.parkMe_sound
    | apply State.trapMe_sound | apply sound_foldl | apply sound_modCore | split | dsimp only

theorem State.copyRead_sound {s : State} (h : Sound s) (a : Reg) (got : Sparse Byte) (whole : Bool)  : Sound (s.copyRead a got whole) := by
  unfold State.copyRead
  with_reducible repeat' first
    | intro _ | assumption | apply sound_next | apply sound_ite | apply out_ite | apply State.copyDescribed_sound
    | apply State.keepWords_sound | apply State.readDescriptor_sound | split | dsimp only

theorem execCpy_sound {s : State} (h : Sound s) (a : Reg)  : OutSound (execCpy a s) := by
  unfold execCpy
  with_reducible repeat' first
    | intro _ | assumption | apply sound_next | apply sound_ite | apply out_ite | apply State.copyRead_sound
    | apply State.readDescriptor_sound | split | dsimp only

theorem State.modCopy_sound {s : State} (h : Sound s) (q : Nat) (f : CopyCmd → CopyCmd)  : Sound (s.modCopy q f) := by
  unfold State.modCopy
  with_reducible repeat' first
    | intro _ | assumption | apply sound_next | apply sound_ite | apply out_ite | apply sound_modCore | split | dsimp only

theorem execCopyTransfer_sound {s : State} (h : Sound s) (c : Nat)  : OutSound (execCopyTransfer c s) := by
  unfold execCopyTransfer
  with_reducible repeat' first
    | intro _ | assumption | apply sound_next | apply sound_ite | apply out_ite | apply State.engineRead_sound
    | apply State.engineWrite_sound | apply State.modCol_sound | apply State.modCopy_sound | split | dsimp only

theorem execCopyComplete_sound {s : State} (h : Sound s) (c q : Nat)  : OutSound (execCopyComplete c q s) := by
  unfold execCopyComplete
  with_reducible repeat' first
    | intro _ | assumption | apply sound_next | apply sound_ite | apply out_ite | apply State.modCopy_sound | apply State.writeStatus_sound
    | apply sound_modCore | split | dsimp only

theorem State.swapDescribed_sound {s : State} (h : Sound s) (got : Sparse Byte)  : Sound (s.swapDescribed got) := by
  unfold State.swapDescribed
  with_reducible repeat' first
    | intro _ | assumption | apply sound_next | apply sound_ite | apply out_ite | apply State.completionWord_sound
    | apply State.finish_sound | apply State.fresh_sound | apply State.parkMe_sound | apply State.trapMe_sound | split | apply sound_mk
    | dsimp only

theorem execLswap_sound {s : State} (h : Sound s) (a : Reg)  : OutSound (execLswap a s) := by
  unfold execLswap
  with_reducible repeat' first
    | intro _ | assumption | apply sound_next | apply sound_ite | apply out_ite | apply State.keepWords_sound
    | apply State.readDescriptor_sound | apply State.supervisor_sound | apply State.swapDescribed_sound | split | dsimp only

theorem execEngstat_sound {s : State} (h : Sound s) (d : Reg) (swap : Bool)  : OutSound (execEngstat d swap s) := by
  unfold execEngstat
  with_reducible repeat' first
    | intro _ | assumption | apply sound_next | apply sound_ite | apply out_ite | apply State.finish_sound | apply State.wr_sound | split
    | dsimp only

theorem State.modSwap_sound {s : State} (h : Sound s) (id : Nat) (f : SwapCmd → SwapCmd)  : Sound (s.modSwap id f) := by
  unfold State.modSwap
  with_reducible repeat' first
    | intro _ | assumption | apply sound_next | apply sound_ite | apply out_ite | split | apply sound_mk | dsimp only

theorem execSwapHold_sound {s : State} (h : Sound s) (id : Nat)  : OutSound (execSwapHold id s) := by
  unfold execSwapHold
  with_reducible repeat' first
    | intro _ | assumption | apply sound_next | apply sound_ite | apply out_ite | apply State.classZero_sound | apply State.modSwap_sound
    | apply sound_foldl | split | apply sound_mk | dsimp only

theorem execSwapHoldArrive_sound {s : State} (h : Sound s) (id c : Nat)  : OutSound (execSwapHoldArrive id c s) := by
  unfold execSwapHoldArrive
  with_reducible repeat' first
    | intro _ | assumption | apply sound_next | apply sound_ite | apply out_ite | apply State.after_sound | apply State.fresh_sound
    | apply State.putIn_sound | apply State.putOut_sound | apply sound_foldl | split | dsimp only

theorem execSwapHoldAck_sound {s : State} (h : Sound s) (id c : Nat)  : OutSound (execSwapHoldAck id c s) := by
  unfold execSwapHoldAck
  with_reducible repeat' first
    | intro _ | assumption | apply sound_next | apply sound_ite | apply out_ite | apply State.modSwap_sound | split | dsimp only

theorem execSwapRun_sound {s : State} (h : Sound s) (id : Nat)  : OutSound (execSwapRun id s) := by
  unfold execSwapRun
  with_reducible repeat' first
    | intro _ | assumption | apply sound_next | apply sound_ite | apply out_ite | apply State.fresh_sound | apply State.modSwap_sound
    | split | dsimp only

theorem State.startBurst_sound {s : State} (h : Sound s) (m : Mover) (i a n : Nat)  : Sound (s.startBurst m i a n) := by
  unfold State.startBurst
  with_reducible repeat' first
    | intro _ | assumption | apply sound_next | apply sound_ite | apply out_ite | apply State.modCol_sound | apply State.noteUse_sound
    | split | apply sound_mk | dsimp only

theorem State.tryBurst_sound {s : State} (h : Sound s) (m : Mover)  : Sound (s.tryBurst m) := by
  unfold State.tryBurst
  with_reducible repeat' first
    | intro _ | assumption | apply sound_next | apply sound_ite | apply out_ite | apply State.demand_sound | apply State.startBurst_sound
    | split | dsimp only

theorem State.endBurst_sound {s : State} (h : Sound s) (b : Burst)  : Sound (s.endBurst b) := by
  unfold State.endBurst
  with_reducible repeat' first
    | intro _ | assumption | apply sound_next | apply sound_ite | apply out_ite | apply State.copyRegion_sound | apply State.modCol_sound
    | apply State.modSwap_sound | apply State.noteUse_sound | split | apply sound_mk | dsimp only

theorem execSwapBurst_sound {s : State} (h : Sound s) (id : Nat)  : OutSound (execSwapBurst id s) := by
  unfold execSwapBurst
  with_reducible repeat' first
    | intro _ | assumption | apply sound_next | apply sound_ite | apply out_ite | apply State.after_sound | apply State.endBurst_sound
    | apply State.tryBurst_sound | apply sound_foldl | split | dsimp only

theorem execSwapDone_sound {s : State} (h : Sound s) (id : Nat)  : OutSound (execSwapDone id s) := by
  unfold execSwapDone
  with_reducible repeat' first
    | intro _ | assumption | apply sound_next | apply sound_ite | apply out_ite | apply State.classZero_sound | apply State.modSwap_sound
    | apply State.writeStatus_sound | apply sound_foldl | split | apply sound_mk | dsimp only

theorem execSwapLiftArrive_sound {s : State} (h : Sound s) (id c : Nat)  : OutSound (execSwapLiftArrive id c s) := by
  unfold execSwapLiftArrive
  with_reducible repeat' first
    | intro _ | assumption | apply sound_next | apply sound_ite | apply out_ite | apply State.modCol_sound | split | dsimp only

end Sys2Proof.Machine
end

