-- ==== Sys2Proof/Laws/SoundNodes.lean ====
section
/-! SUPPORT. The invariant of `Safety` through the operations of `Machine/Nodes`. -/
namespace Sys2Proof.Machine
open Sys2Proof.Safety

theorem State.fire_sound {s : State} (h : Sound s) (k n : Nat) (own : NEnv → Node → Option NStep)  : Sound (s.fire k n own) := by
  unfold State.fire
  with_reducible repeat' first
    | intro _ | assumption | apply sound_next | apply sound_ite | apply out_ite | apply State.putIsl_sound | split | dsimp only

theorem State.fireAlu_sound {s : State} (h : Sound s) (k n op : Nat)  : Sound (s.fireAlu k n op) := by
  unfold State.fireAlu
  with_reducible repeat' first
    | intro _ | assumption | apply sound_next | apply sound_ite | apply out_ite | apply State.fire_sound | split | dsimp only

theorem State.fireOp_sound {s : State} (h : Sound s) (k n op : Nat) (own : NEnv → Node → Option NStep)  : Sound (s.fireOp k n op own) := by
  unfold State.fireOp
  with_reducible repeat' first
    | intro _ | assumption | apply sound_next | apply sound_ite | apply out_ite | apply State.fire_sound | split | dsimp only

theorem execIntersect_sound {s : State} (h : Sound s) (k n : Nat)  : OutSound (execIntersect k n s) := by
  unfold execIntersect
  with_reducible repeat' first
    | intro _ | assumption | apply sound_next | apply sound_ite | apply out_ite | apply State.fireOp_sound | split | dsimp only

theorem execUnion_sound {s : State} (h : Sound s) (k n : Nat)  : OutSound (execUnion k n s) := by
  unfold execUnion
  with_reducible repeat' first
    | intro _ | assumption | apply sound_next | apply sound_ite | apply out_ite | apply State.fireOp_sound | split | dsimp only

theorem execRepeatNode_sound {s : State} (h : Sound s) (k n : Nat)  : OutSound (execRepeatNode k n s) := by
  unfold execRepeatNode
  with_reducible repeat' first
    | intro _ | assumption | apply sound_next | apply sound_ite | apply out_ite | apply State.fireOp_sound | split | dsimp only

theorem execReduce_sound {s : State} (h : Sound s) (k n : Nat)  : OutSound (execReduce k n s) := by
  unfold execReduce
  with_reducible repeat' first
    | intro _ | assumption | apply sound_next | apply sound_ite | apply out_ite | apply State.fireOp_sound | split | dsimp only

theorem execAluAdd_sound {s : State} (h : Sound s) (k n : Nat)  : OutSound (execAluAdd k n s) := by
  unfold execAluAdd
  with_reducible repeat' first
    | intro _ | assumption | apply sound_next | apply sound_ite | apply out_ite | apply State.fireAlu_sound | split | dsimp only

theorem execAluSub_sound {s : State} (h : Sound s) (k n : Nat)  : OutSound (execAluSub k n s) := by
  unfold execAluSub
  with_reducible repeat' first
    | intro _ | assumption | apply sound_next | apply sound_ite | apply out_ite | apply State.fireAlu_sound | split | dsimp only

theorem execAluMul_sound {s : State} (h : Sound s) (k n : Nat)  : OutSound (execAluMul k n s) := by
  unfold execAluMul
  with_reducible repeat' first
    | intro _ | assumption | apply sound_next | apply sound_ite | apply out_ite | apply State.fireAlu_sound | split | dsimp only

theorem execAluDiv_sound {s : State} (h : Sound s) (k n : Nat)  : OutSound (execAluDiv k n s) := by
  unfold execAluDiv
  with_reducible repeat' first
    | intro _ | assumption | apply sound_next | apply sound_ite | apply out_ite | apply State.fireAlu_sound | split | dsimp only

theorem execAluMin_sound {s : State} (h : Sound s) (k n : Nat)  : OutSound (execAluMin k n s) := by
  unfold execAluMin
  with_reducible repeat' first
    | intro _ | assumption | apply sound_next | apply sound_ite | apply out_ite | apply State.fireAlu_sound | split | dsimp only

theorem execAluMax_sound {s : State} (h : Sound s) (k n : Nat)  : OutSound (execAluMax k n s) := by
  unfold execAluMax
  with_reducible repeat' first
    | intro _ | assumption | apply sound_next | apply sound_ite | apply out_ite | apply State.fireAlu_sound | split | dsimp only

theorem execAluAnd_sound {s : State} (h : Sound s) (k n : Nat)  : OutSound (execAluAnd k n s) := by
  unfold execAluAnd
  with_reducible repeat' first
    | intro _ | assumption | apply sound_next | apply sound_ite | apply out_ite | apply State.fireAlu_sound | split | dsimp only

theorem execAluOr_sound {s : State} (h : Sound s) (k n : Nat)  : OutSound (execAluOr k n s) := by
  unfold execAluOr
  with_reducible repeat' first
    | intro _ | assumption | apply sound_next | apply sound_ite | apply out_ite | apply State.fireAlu_sound | split | dsimp only

theorem execAluXor_sound {s : State} (h : Sound s) (k n : Nat)  : OutSound (execAluXor k n s) := by
  unfold execAluXor
  with_reducible repeat' first
    | intro _ | assumption | apply sound_next | apply sound_ite | apply out_ite | apply State.fireAlu_sound | split | dsimp only

theorem execAluShl_sound {s : State} (h : Sound s) (k n : Nat)  : OutSound (execAluShl k n s) := by
  unfold execAluShl
  with_reducible repeat' first
    | intro _ | assumption | apply sound_next | apply sound_ite | apply out_ite | apply State.fireAlu_sound | split | dsimp only

theorem execAluShr_sound {s : State} (h : Sound s) (k n : Nat)  : OutSound (execAluShr k n s) := by
  unfold execAluShr
  with_reducible repeat' first
    | intro _ | assumption | apply sound_next | apply sound_ite | apply out_ite | apply State.fireAlu_sound | split | dsimp only

theorem execAluAbs_sound {s : State} (h : Sound s) (k n : Nat)  : OutSound (execAluAbs k n s) := by
  unfold execAluAbs
  with_reducible repeat' first
    | intro _ | assumption | apply sound_next | apply sound_ite | apply out_ite | apply State.fireAlu_sound | split | dsimp only

theorem execAluNeg_sound {s : State} (h : Sound s) (k n : Nat)  : OutSound (execAluNeg k n s) := by
  unfold execAluNeg
  with_reducible repeat' first
    | intro _ | assumption | apply sound_next | apply sound_ite | apply out_ite | apply State.fireAlu_sound | split | dsimp only

theorem execAluPass_sound {s : State} (h : Sound s) (k n : Nat)  : OutSound (execAluPass k n s) := by
  unfold execAluPass
  with_reducible repeat' first
    | intro _ | assumption | apply sound_next | apply sound_ite | apply out_ite | apply State.fireAlu_sound | split | dsimp only

theorem execAluCmp_sound {s : State} (h : Sound s) (k n : Nat)  : OutSound (execAluCmp k n s) := by
  unfold execAluCmp
  with_reducible repeat' first
    | intro _ | assumption | apply sound_next | apply sound_ite | apply out_ite | apply State.fireAlu_sound | split | dsimp only

theorem execAluFma_sound {s : State} (h : Sound s) (k n : Nat)  : OutSound (execAluFma k n s) := by
  unfold execAluFma
  with_reducible repeat' first
    | intro _ | assumption | apply sound_next | apply sound_ite | apply out_ite | apply State.fireAlu_sound | split | dsimp only

theorem execCvt_sound {s : State} (h : Sound s) (k n : Nat)  : OutSound (execCvt k n s) := by
  unfold execCvt
  with_reducible repeat' first
    | intro _ | assumption | apply sound_next | apply sound_ite | apply out_ite | apply State.fireOp_sound | split | dsimp only

theorem execSd2b_sound {s : State} (h : Sound s) (k n : Nat)  : OutSound (execSd2b k n s) := by
  unfold execSd2b
  with_reducible repeat' first
    | intro _ | assumption | apply sound_next | apply sound_ite | apply out_ite | apply State.fireOp_sound | split | dsimp only

theorem execB2sd_sound {s : State} (h : Sound s) (k n : Nat)  : OutSound (execB2sd k n s) := by
  unfold execB2sd
  with_reducible repeat' first
    | intro _ | assumption | apply sound_next | apply sound_ite | apply out_ite | apply State.fireOp_sound | split | dsimp only

theorem execWconv_sound {s : State} (h : Sound s) (k n : Nat)  : OutSound (execWconv k n s) := by
  unfold execWconv
  with_reducible repeat' first
    | intro _ | assumption | apply sound_next | apply sound_ite | apply out_ite | apply State.fireOp_sound | split | dsimp only

theorem execSteer_sound {s : State} (h : Sound s) (k n : Nat)  : OutSound (execSteer k n s) := by
  unfold execSteer
  with_reducible repeat' first
    | intro _ | assumption | apply sound_next | apply sound_ite | apply out_ite | apply State.fireOp_sound | split | dsimp only

theorem execMerge_sound {s : State} (h : Sound s) (k n : Nat)  : OutSound (execMerge k n s) := by
  unfold execMerge
  with_reducible repeat' first
    | intro _ | assumption | apply sound_next | apply sound_ite | apply out_ite | apply State.fireOp_sound | split | dsimp only

theorem execCarry_sound {s : State} (h : Sound s) (k n : Nat)  : OutSound (execCarry k n s) := by
  unfold execCarry
  with_reducible repeat' first
    | intro _ | assumption | apply sound_next | apply sound_ite | apply out_ite | apply State.fireOp_sound | split | dsimp only

theorem execInvariant_sound {s : State} (h : Sound s) (k n : Nat)  : OutSound (execInvariant k n s) := by
  unfold execInvariant
  with_reducible repeat' first
    | intro _ | assumption | apply sound_next | apply sound_ite | apply out_ite | apply State.fireOp_sound | split | dsimp only

theorem execSelect_sound {s : State} (h : Sound s) (k n : Nat)  : OutSound (execSelect k n s) := by
  unfold execSelect
  with_reducible repeat' first
    | intro _ | assumption | apply sound_next | apply sound_ite | apply out_ite | apply State.fireOp_sound | split | dsimp only

theorem execPmenter_sound {s : State} (h : Sound s) (k n : Nat)  : OutSound (execPmenter k n s) := by
  unfold execPmenter
  with_reducible repeat' first
    | intro _ | assumption | apply sound_next | apply sound_ite | apply out_ite | apply State.fireOp_sound | split | dsimp only

theorem execPmexit_sound {s : State} (h : Sound s) (k n : Nat)  : OutSound (execPmexit k n s) := by
  unfold execPmexit
  with_reducible repeat' first
    | intro _ | assumption | apply sound_next | apply sound_ite | apply out_ite | apply State.fireOp_sound | split | dsimp only

theorem execSink_sound {s : State} (h : Sound s) (k n : Nat)  : OutSound (execSink k n s) := by
  unfold execSink
  with_reducible repeat' first
    | intro _ | assumption | apply sound_next | apply sound_ite | apply out_ite | apply State.fireOp_sound | split | dsimp only

theorem execArg_sound {s : State} (h : Sound s) (k n : Nat)  : OutSound (execArg k n s) := by
  unfold execArg
  with_reducible repeat' first
    | intro _ | assumption | apply sound_next | apply sound_ite | apply out_ite | apply State.fireOp_sound | split | dsimp only

theorem State.clearBarrier_sound {s : State} (h : Sound s) (k n : Nat)  : Sound (s.clearBarrier k n) := by
  unfold State.clearBarrier
  with_reducible repeat' first
    | intro _ | assumption | apply sound_next | apply sound_ite | apply out_ite | apply State.modIsl_sound | split | dsimp only

theorem execMbar_sound {s : State} (h : Sound s) (k n : Nat)  : OutSound (execMbar k n s) := by
  unfold execMbar
  with_reducible repeat' first
    | intro _ | assumption | apply sound_next | apply sound_ite | apply out_ite | apply State.clearBarrier_sound | apply State.fireOp_sound
    | split | dsimp only

theorem State.sendRead_sound {s : State} (h : Sound s) (k n g va : Nat) (z : MSize) (via : List Via)  : Sound (s.sendRead k n g va z via) := by
  unfold State.sendRead
  with_reducible repeat' first
    | intro _ | assumption | apply sound_next | apply sound_ite | apply out_ite | apply State.fresh_sound | apply State.modNode_sound
    | apply State.present_sound | split | dsimp only

theorem State.streamTrap_sound {s : State} (h : Sound s) (k : Nat) (e : NEnv) (code va : Nat)  : Sound (s.streamTrap k e code va) := by
  unfold State.streamTrap
  with_reducible repeat' first
    | intro _ | assumption | apply sound_next | apply sound_ite | apply out_ite | apply State.putIsl_sound | split | dsimp only

theorem State.scanStart_sound {s : State} (h : Sound s) (k n : Nat) (l : Bool)  : Sound (s.scanStart k n l) := by
  unfold State.scanStart
  with_reducible repeat' first
    | intro _ | assumption | apply sound_next | apply sound_ite | apply out_ite | apply State.modNode_sound | apply State.sendRead_sound
    | apply State.startFetch_sound | apply State.streamTrap_sound | split | dsimp only

theorem State.fireScan_sound {s : State} (h : Sound s) (k n : Nat) (l : Bool)  : Sound (s.fireScan k n l) := by
  unfold State.fireScan
  with_reducible repeat' first
    | intro _ | assumption | apply sound_next | apply sound_ite | apply out_ite | apply State.putIsl_sound | apply State.scanStart_sound
    | split | dsimp only

theorem execScan_sound {s : State} (h : Sound s) (k n : Nat)  : OutSound (execScan k n s) := by
  unfold execScan
  with_reducible repeat' first
    | intro _ | assumption | apply sound_next | apply sound_ite | apply out_ite | apply State.fireScan_sound | split | dsimp only

theorem execScanl_sound {s : State} (h : Sound s) (k n : Nat)  : OutSound (execScanl k n s) := by
  unfold execScanl
  with_reducible repeat' first
    | intro _ | assumption | apply sound_next | apply sound_ite | apply out_ite | apply State.fireScan_sound | split | dsimp only

theorem State.memTake_sound {s : State} (h : Sound s) (k : Nat) (e : NEnv) (l : List (Nat × ITok))  : Sound (s.memTake k e l) := by
  unfold State.memTake
  with_reducible repeat' first
    | intro _ | assumption | apply sound_next | apply sound_ite | apply out_ite | apply State.entered_sound | apply State.fresh_sound
    | apply State.modNode_sound | apply State.putIsl_sound | apply State.store_sound | apply State.takeOwner_sound | apply sound_foldl
    | split | apply sound_mk | dsimp only

theorem State.memCommon_sound {s : State} (h : Sound s) (k : Nat) (e : NEnv)  : Sound (s.memCommon k e) := by
  unfold State.memCommon
  with_reducible repeat' first
    | intro _ | assumption | apply sound_next | apply sound_ite | apply out_ite | apply State.putIsl_sound | split | dsimp only

theorem State.memFold_sound {s : State} (h : Sound s) (k : Nat) (e : NEnv) (p : Nat × ITok)  : Sound (s.memFold k e p) := by
  unfold State.memFold
  with_reducible repeat' first
    | intro _ | assumption | apply sound_next | apply sound_ite | apply out_ite | apply State.modIsl_sound | apply State.modNode_sound
    | apply State.putIsl_sound | split | dsimp only

theorem State.fireMem_sound {s : State} (h : Sound s) (k n op : Nat)  : Sound (s.fireMem k n op) := by
  unfold State.fireMem
  with_reducible repeat' first
    | intro _ | assumption | apply sound_next | apply sound_ite | apply out_ite | apply State.memCommon_sound | apply State.memFold_sound
    | apply State.memTake_sound | apply State.modIsl_sound | apply State.putIsl_sound | apply State.store_sound | split | dsimp only

theorem execMtload_sound {s : State} (h : Sound s) (k n : Nat)  : OutSound (execMtload k n s) := by
  unfold execMtload
  with_reducible repeat' first
    | intro _ | assumption | apply sound_next | apply sound_ite | apply out_ite | apply State.fireMem_sound | split | dsimp only

theorem execMtstore_sound {s : State} (h : Sound s) (k n : Nat)  : OutSound (execMtstore k n s) := by
  unfold execMtstore
  with_reducible repeat' first
    | intro _ | assumption | apply sound_next | apply sound_ite | apply out_ite | apply State.fireMem_sound | split | dsimp only

theorem execMtrmw_sound {s : State} (h : Sound s) (k n : Nat)  : OutSound (execMtrmw k n s) := by
  unfold execMtrmw
  with_reducible repeat' first
    | intro _ | assumption | apply sound_next | apply sound_ite | apply out_ite | apply State.fireMem_sound | split | dsimp only

theorem State.formRequest_sound {s : State} (h : Sound s) (k : Nat) (e : NEnv)  : Sound (s.formRequest k e) := by
  unfold State.formRequest
  with_reducible repeat' first
    | intro _ | assumption | apply sound_next | apply sound_ite | apply out_ite | apply State.modCol_sound | apply State.modNode_sound
    | split | dsimp only

theorem execArray_sound {s : State} (h : Sound s) (k n : Nat)  : OutSound (execArray k n s) := by
  unfold execArray
  with_reducible repeat' first
    | intro _ | assumption | apply sound_next | apply sound_ite | apply out_ite | apply State.formRequest_sound | apply State.putIsl_sound
    | split | dsimp only

theorem execArrayRequestComplete_sound {s : State} (h : Sound s) (k n id : Nat)  : OutSound (execArrayRequestComplete k n id s) := by
  unfold execArrayRequestComplete
  with_reducible repeat' first
    | intro _ | assumption | apply sound_next | apply sound_ite | apply out_ite | apply State.dropGang_sound | apply State.modIsl_sound
    | apply State.modNode_sound | apply State.notePlane_sound | split | dsimp only

theorem execPortin_sound {s : State} (h : Sound s) (k n : Nat)  : OutSound (execPortin k n s) := by
  unfold execPortin
  with_reducible repeat' first
    | intro _ | assumption | apply sound_next | apply sound_ite | apply out_ite | apply State.fireOp_sound | split | dsimp only

theorem State.portSend_sound {s : State} (h : Sound s) (k n : Nat)  : Sound (s.portSend k n) := by
  unfold State.portSend
  with_reducible repeat' first
    | intro _ | assumption | apply sound_next | apply sound_ite | apply out_ite | apply State.after_sound | apply State.modNode_sound
    | split | dsimp only

theorem execPortout_sound {s : State} (h : Sound s) (k n : Nat)  : OutSound (execPortout k n s) := by
  unfold execPortout
  with_reducible repeat' first
    | intro _ | assumption | apply sound_next | apply sound_ite | apply out_ite | apply State.fire_sound | apply State.portSend_sound
    | split | dsimp only

end Sys2Proof.Machine
end

