-- ==== Sys2Proof/Laws/SoundIslands.lean ====
section
/-! SUPPORT. The invariant of `Safety` through the operations of `Machine/Islands`. -/
namespace Sys2Proof.Machine
open Sys2Proof.Safety

theorem State.answerStatus_sound {s : State} (h : Sound s) (k : Nat) (w : Nat × Reg) (v : Nat)  : Sound (s.answerStatus k w v) := by
  unfold State.answerStatus
  with_reducible repeat' first
    | intro _ | assumption | apply sound_next | apply sound_ite | apply out_ite | apply State.answerInvoke_sound | split | dsimp only

theorem State.answerAll_sound {s : State} (h : Sound s) (k : Nat) (l : List (Nat × Reg)) (v : Nat)  : Sound (s.answerAll k l v) := by
  unfold State.answerAll
  with_reducible repeat' first
    | intro _ | assumption | apply sound_next | apply sound_ite | apply out_ite | apply State.answerStatus_sound | apply sound_foldl | split
    | dsimp only

theorem State.writeBacking_sound {s : State} (h : Sound s) (k b : Nat)  : Sound (s.writeBacking k b) := by
  unfold State.writeBacking
  with_reducible repeat' first
    | intro _ | assumption | apply sound_next | apply sound_ite | apply out_ite | apply State.ringWord_sound | apply sound_foldl | split
    | dsimp only

theorem State.installNow_sound {s : State} (h : Sound s) (k b : Nat) (ws : List (BitVec 128))  : Sound (s.installNow k b ws) := by
  unfold State.installNow
  with_reducible repeat' first
    | intro _ | assumption | apply sound_next | apply sound_ite | apply out_ite | apply State.modIsl_sound | apply State.writeBacking_sound
    | split | dsimp only

theorem execIslandInstall_sound {s : State} (h : Sound s) (k : Nat) (r : InstallReq)  : OutSound (execIslandInstall k r s) := by
  unfold execIslandInstall
  with_reducible repeat' first
    | intro _ | assumption | apply sound_next | apply sound_ite | apply out_ite | apply State.after_sound | apply State.answerStatus_sound
    | apply State.modIsl_sound | split | dsimp only

theorem execIslandInstallDone_sound {s : State} (h : Sound s) (k b : Nat)  : OutSound (execIslandInstallDone k b s) := by
  unfold execIslandInstallDone
  with_reducible repeat' first
    | intro _ | assumption | apply sound_next | apply sound_ite | apply out_ite | apply State.answerStatus_sound | apply State.modIsl_sound
    | apply State.writeBacking_sound | split | dsimp only

theorem State.noteStore_sound {s : State} (h : Sound s) (k b : Nat)  : Sound (s.noteStore k b) := by
  unfold State.noteStore
  with_reducible repeat' first
    | intro _ | assumption | apply sound_next | apply sound_ite | apply out_ite | apply State.atOnce_sound | apply State.logItem_sound
    | apply State.modIsl_sound | apply sound_foldl | split | dsimp only

theorem State.beginReconf_sound {s : State} (h : Sound s) (k b : Nat) (ws : List (Nat × Reg)) (head : Bool)  : Sound (s.beginReconf k b ws head) := by
  unfold State.beginReconf
  with_reducible repeat' first
    | intro _ | assumption | apply sound_next | apply sound_ite | apply out_ite | apply State.after_sound | apply State.modIsl_sound
    | apply State.noteStore_sound | split | dsimp only

theorem State.restoreNodes_sound {s : State} (h : Sound s) (k : Nat) (v : Inv)  : Sound (s.restoreNodes k v) := by
  unfold State.restoreNodes
  with_reducible repeat' first
    | intro _ | assumption | apply sound_next | apply sound_ite | apply out_ite | apply State.putIsl_sound | apply sound_foldl | split
    | dsimp only

theorem State.startHead_sound {s : State} (h : Sound s) (k : Nat)  : Sound (s.startHead k) := by
  unfold State.startHead
  with_reducible repeat' first
    | intro _ | assumption | apply sound_next | apply sound_ite | apply out_ite | apply State.admitInvs_sound | apply State.after_sound
    | apply State.putIsl_sound | apply State.restoreNodes_sound | split | dsimp only

theorem State.refuseHead_sound {s : State} (h : Sound s) (k : Nat) (v : Inv)  : Sound (s.refuseHead k v) := by
  unfold State.refuseHead
  with_reducible repeat' first
    | intro _ | assumption | apply sound_next | apply sound_ite | apply out_ite | apply State.admitInvs_sound | apply State.after_sound
    | apply State.modIsl_sound | split | dsimp only

theorem State.headWork_sound {s : State} (h : Sound s) (k : Nat)  : Sound (s.headWork k) := by
  unfold State.headWork
  with_reducible repeat' first
    | intro _ | assumption | apply sound_next | apply sound_ite | apply out_ite | apply State.refuseHead_sound | apply State.startHead_sound
    | split | dsimp only

theorem execInvocationStart_sound {s : State} (h : Sound s) (k : Nat)  : OutSound (execInvocationStart k s) := by
  unfold execInvocationStart
  with_reducible repeat' first
    | intro _ | assumption | apply sound_next | apply sound_ite | apply out_ite | apply State.headWork_sound | split | dsimp only

theorem execReconfiguration_sound {s : State} (h : Sound s) (k b : Nat)  : OutSound (execReconfiguration k b s) := by
  unfold execReconfiguration
  with_reducible repeat' first
    | intro _ | assumption | apply sound_next | apply sound_ite | apply out_ite | apply State.answerAll_sound
    | apply State.beginReconf_sound | apply State.headWork_sound | apply State.modIsl_sound | split | dsimp only

theorem execReconfigurationDone_sound {s : State} (h : Sound s) (k b : Nat)  : OutSound (execReconfigurationDone k b s) := by
  unfold execReconfigurationDone
  with_reducible repeat' first
    | intro _ | assumption | apply sound_next | apply sound_ite | apply out_ite | apply State.answerAll_sound | apply State.headWork_sound
    | apply State.putIsl_sound | split | dsimp only

theorem State.closeInv_sound {s : State} (h : Sound s) (k : Nat)  : Sound (s.closeInv k) := by
  unfold State.closeInv
  with_reducible repeat' first
    | intro _ | assumption | apply sound_next | apply sound_ite | apply out_ite | apply State.answerStatus_sound | apply State.modIsl_sound
    | apply State.putIsl_sound | apply sound_foldl | apply sound_foldl_fst | split | dsimp only

theorem execInvocationEnd_sound {s : State} (h : Sound s) (k : Nat)  : OutSound (execInvocationEnd k s) := by
  unfold execInvocationEnd
  with_reducible repeat' first
    | intro _ | assumption | apply sound_next | apply sound_ite | apply out_ite | apply State.closeInv_sound | split | dsimp only

theorem execNodeFaultReport_sound {s : State} (h : Sound s) (k : Nat)  : OutSound (execNodeFaultReport k s) := by
  unfold execNodeFaultReport
  with_reducible repeat' first
    | intro _ | assumption | apply sound_next | apply sound_ite | apply out_ite | apply State.after_sound | apply State.closeInv_sound
    | split | dsimp only

theorem State.sweepBank_sound {s : State} (h : Sound s) (k b : Nat)  : Sound (s.sweepBank k b) := by
  unfold State.sweepBank
  with_reducible repeat' first
    | intro _ | assumption | apply sound_next | apply sound_ite | apply out_ite | apply State.answerAll_sound | apply State.putIsl_sound
    | split | dsimp only

theorem State.sweepDrains_sound {s : State} (h : Sound s) (k : Nat)  : Sound (s.sweepDrains k) := by
  unfold State.sweepDrains
  with_reducible repeat' first
    | intro _ | assumption | apply sound_next | apply sound_ite | apply out_ite | apply State.sweepBank_sound | apply sound_foldl | split
    | dsimp only

theorem State.applyGarg_sound {s : State} (h : Sound s) (k b : Nat) (t graph slot : Nat) (v : W64) (d : Reg)  : Sound (s.applyGarg k b t graph slot v d) := by
  unfold State.applyGarg
  with_reducible repeat' first
    | intro _ | assumption | apply sound_next | apply sound_ite | apply out_ite | apply State.answerStatus_sound | apply State.putIsl_sound
    | split | dsimp only

theorem State.refuseReconf_sound {s : State} (h : Sound s) (k b : Nat)  : Sound (s.refuseReconf k b) := by
  unfold State.refuseReconf
  with_reducible repeat' first
    | intro _ | assumption | apply sound_next | apply sound_ite | apply out_ite | apply State.answerAll_sound | apply State.putIsl_sound
    | split | dsimp only

theorem State.applyDrain_sound {s : State} (h : Sound s) (k b : Nat) (w : Nat × Reg)  : Sound (s.applyDrain k b w) := by
  unfold State.applyDrain
  with_reducible repeat' first
    | intro _ | assumption | apply sound_next | apply sound_ite | apply out_ite | apply State.modIsl_sound | apply State.refuseReconf_sound
    | split | dsimp only

theorem State.applyReconf_sound {s : State} (h : Sound s) (k b : Nat) (w : Nat × Reg)  : Sound (s.applyReconf k b w) := by
  unfold State.applyReconf
  with_reducible repeat' first
    | intro _ | assumption | apply sound_next | apply sound_ite | apply out_ite | apply State.answerAll_sound | apply State.modIsl_sound
    | split | dsimp only

theorem execIslandCommand_sound {s : State} (h : Sound s) (k : Nat) (c : IslCmd)  : OutSound (execIslandCommand k c s) := by
  unfold execIslandCommand
  with_reducible repeat' first
    | intro _ | assumption | apply sound_next | apply sound_ite | apply out_ite | apply State.answerStatus_sound
    | apply State.applyDrain_sound | apply State.applyGarg_sound | apply State.applyReconf_sound | split | dsimp only

theorem execConfigError_sound {s : State} (h : Sound s) (k b n : Nat)  : OutSound (execConfigError k b n s) := by
  unfold execConfigError
  with_reducible repeat' first
    | intro _ | assumption | apply sound_next | apply sound_ite | apply out_ite | apply State.later_sound | apply State.logItem_sound
    | apply State.modIsl_sound | split | dsimp only

theorem State.loseBank_sound {s : State} (h : Sound s) (k b : Nat)  : Sound (s.loseBank k b) := by
  unfold State.loseBank
  with_reducible repeat' first
    | intro _ | assumption | apply sound_next | apply sound_ite | apply out_ite | apply State.answerAll_sound | apply State.putIsl_sound
    | apply State.refuseReconf_sound | split | dsimp only

theorem execConfigReloadDone_sound {s : State} (h : Sound s) (k b : Nat)  : OutSound (execConfigReloadDone k b s) := by
  unfold execConfigReloadDone
  with_reducible repeat' first
    | intro _ | assumption | apply sound_next | apply sound_ite | apply out_ite | apply State.after_sound | apply State.loseBank_sound
    | apply State.noteRead_sound | apply State.putIsl_sound | split | dsimp only

theorem State.readBlock_sound {s : State} (h : Sound s) (va n : Nat) (use : GatherUse)  : Sound (s.readBlock va n use) := by
  unfold State.readBlock
  with_reducible repeat' first
    | intro _ | assumption | apply sound_next | apply sound_ite | apply out_ite | apply State.launchAccess_sound
    | apply State.noAccess_sound | apply State.trapMe_sound | split | dsimp only

theorem State.readWhole_sound {s : State} (h : Sound s) (got : Sparse Byte) (a d : Reg) (k : Nat)  : Sound (s.readWhole got a d k) := by
  unfold State.readWhole
  with_reducible repeat' first
    | intro _ | assumption | apply sound_next | apply sound_ite | apply out_ite | apply State.keepWords_sound | apply State.readBlock_sound
    | split | dsimp only

theorem execGinstall_sound {s : State} (h : Sound s) (d a : Reg) (k : BitVec 4)  : OutSound (execGinstall d a k s) := by
  unfold execGinstall
  with_reducible repeat' first
    | intro _ | assumption | apply sound_next | apply sound_ite | apply out_ite | apply State.readBlock_sound | apply State.readWhole_sound
    | apply State.supervisor_sound | apply State.trapMe_sound | split | dsimp only

theorem State.installRead_sound {s : State} (h : Sound s) (got : Sparse Byte) (a d : Reg) (k : Nat) (whole : Bool)  : Sound (s.installRead got a d k whole) := by
  unfold State.installRead
  with_reducible repeat' first
    | intro _ | assumption | apply sound_next | apply sound_ite | apply out_ite | apply State.after_sound | apply State.parkMe_sound
    | apply State.readWhole_sound | split | dsimp only

theorem State.sendCommand_sound {s : State} (h : Sound s) (d a : Reg) (c : Nat → IslCmd)  : Sound (s.sendCommand d a c) := by
  unfold State.sendCommand
  with_reducible repeat' first
    | intro _ | assumption | apply sound_next | apply sound_ite | apply out_ite | apply State.after_sound | apply State.finish_sound
    | apply State.parkMe_sound | apply State.wr_sound | split | dsimp only

theorem execGarg_sound {s : State} (h : Sound s) (d a : Reg) (j : BitVec 7)  : OutSound (execGarg d a j s) := by
  unfold execGarg
  with_reducible repeat' first
    | intro _ | assumption | apply sound_next | apply sound_ite | apply out_ite | apply State.sendCommand_sound | split | dsimp only

theorem execGdrain_sound {s : State} (h : Sound s) (d a : Reg)  : OutSound (execGdrain d a s) := by
  unfold execGdrain
  with_reducible repeat' first
    | intro _ | assumption | apply sound_next | apply sound_ite | apply out_ite | apply State.sendCommand_sound
    | apply State.supervisor_sound | split | dsimp only

theorem execGreconf_sound {s : State} (h : Sound s) (d a : Reg)  : OutSound (execGreconf d a s) := by
  unfold execGreconf
  with_reducible repeat' first
    | intro _ | assumption | apply sound_next | apply sound_ite | apply out_ite | apply State.sendCommand_sound | split | dsimp only

end Sys2Proof.Machine
end

