-- ==== Sys2Proof/Laws/SoundCounters.lean ====
section
/-! SUPPORT. The invariant of `Safety` through the operations of `Machine/Counters`. -/
namespace Sys2Proof.Machine
open Sys2Proof.Safety

theorem execBarj_sound {s : State} (h : Sound s) (d : Reg) (n : BitVec 4)  : OutSound (execBarj d n s) := by
  unfold execBarj
  with_reducible repeat' first
    | intro _ | assumption | apply sound_next | apply sound_ite | apply out_ite | apply State.finish_sound | apply State.modCol_sound
    | apply State.wr_sound | split | dsimp only

theorem execBarw_sound {s : State} (h : Sound s) (a : Reg) (n : BitVec 4)  : OutSound (execBarw a n s) := by
  unfold execBarw
  with_reducible repeat' first
    | intro _ | assumption | apply sound_next | apply sound_ite | apply out_ite | apply State.finish_sound | apply State.parkMe_sound
    | split | dsimp only

theorem execCntinc_sound {s : State} (h : Sound s) (n : BitVec 4) (a : Reg)  : OutSound (execCntinc n a s) := by
  unfold execCntinc
  with_reducible repeat' first
    | intro _ | assumption | apply sound_next | apply sound_ite | apply out_ite | apply State.finish_sound | apply State.modCol_sound
    | split | dsimp only

theorem execCntwait_sound {s : State} (h : Sound s) (n : BitVec 4) (a : Reg)  : OutSound (execCntwait n a s) := by
  unfold execCntwait
  with_reducible repeat' first
    | intro _ | assumption | apply sound_next | apply sound_ite | apply out_ite | apply State.finish_sound | apply State.parkMe_sound
    | split | dsimp only

theorem execSnoise_sound {s : State} (h : Sound s) (v : VReg) (a : Reg)  : OutSound (execSnoise v a s) := by
  unfold execSnoise
  with_reducible repeat' first
    | intro _ | assumption | apply sound_next | apply sound_ite | apply out_ite | apply State.finish_sound | apply State.wrV_sound | split
    | dsimp only

theorem execSmaxk_sound {s : State} (h : Sound s) (d : Reg) (v : VReg) (a : Reg) (new : Bool)  : OutSound (execSmaxk d v a new s) := by
  unfold execSmaxk
  with_reducible repeat' first
    | intro _ | assumption | apply sound_next | apply sound_ite | apply out_ite | apply State.finish_sound | apply State.modThr_sound
    | apply State.wr_sound | apply sound_foldl | split | dsimp only

theorem State.putSeq_sound {s : State} (h : Sound s) (j : Nat) (x : SeqEntry)  : Sound (s.putSeq j x) := by
  unfold State.putSeq
  with_reducible repeat' first
    | intro _ | assumption | apply sound_next | apply sound_ite | apply out_ite | split | apply sound_mk | dsimp only

theorem State.sendSeq_sound {s : State} (h : Sound s) (op : SeqOp)  : Sound (s.sendSeq op) := by
  unfold State.sendSeq
  with_reducible repeat' first
    | intro _ | assumption | apply sound_next | apply sound_ite | apply out_ite | apply State.classZero_sound | apply State.parkMe_sound
    | split | dsimp only

theorem State.seqSet_sound {s : State} (h : Sound s) (j m : Nat)  : Sound (s.seqSet j m) := by
  unfold State.seqSet
  with_reducible repeat' first
    | intro _ | assumption | apply sound_next | apply sound_ite | apply out_ite | split | apply sound_mk | dsimp only

theorem execRngdraw_sound {s : State} (h : Sound s) (d a : Reg)  : OutSound (execRngdraw d a s) := by
  unfold execRngdraw
  with_reducible repeat' first
    | intro _ | assumption | apply sound_next | apply sound_ite | apply out_ite | apply State.sendSeq_sound | split | dsimp only

theorem execAccept_sound {s : State} (h : Sound s) (d a : Reg)  : OutSound (execAccept d a s) := by
  unfold execAccept
  with_reducible repeat' first
    | intro _ | assumption | apply sound_next | apply sound_ite | apply out_ite | apply State.sendSeq_sound | split | dsimp only

theorem execKvcommit_sound {s : State} (h : Sound s) (d a : Reg)  : OutSound (execKvcommit d a s) := by
  unfold execKvcommit
  with_reducible repeat' first
    | intro _ | assumption | apply sound_next | apply sound_ite | apply out_ite | apply State.parkMe_sound | apply State.sendSeq_sound
    | split | dsimp only

theorem execGenabort_sound {s : State} (h : Sound s) (a : Reg)  : OutSound (execGenabort a s) := by
  unfold execGenabort
  with_reducible repeat' first
    | intro _ | assumption | apply sound_next | apply sound_ite | apply out_ite | apply State.sendSeq_sound | apply State.supervisor_sound
    | split | dsimp only

theorem State.seqDraw_sound {s : State} (h : Sound s) (t j : Nat) (d : Reg)  : Sound (s.seqDraw t j d) := by
  unfold State.seqDraw
  with_reducible repeat' first
    | intro _ | assumption | apply sound_next | apply sound_ite | apply out_ite | apply State.classZero_sound | apply State.putSeq_sound
    | apply State.seqSet_sound | split | dsimp only

theorem State.seqAccept_sound {s : State} (h : Sound s) (t j : Nat) (ids : W64) (d : Reg)  : Sound (s.seqAccept t j ids d) := by
  unfold State.seqAccept
  with_reducible repeat' first
    | intro _ | assumption | apply sound_next | apply sound_ite | apply out_ite | apply State.farReply_sound | apply State.putSeq_sound
    | apply State.seqSet_sound | split | dsimp only

theorem State.seqCommit_sound {s : State} (h : Sound s) (t : Nat) (w : W64) (d : Reg)  : Sound (s.seqCommit t w d) := by
  unfold State.seqCommit
  with_reducible repeat' first
    | intro _ | assumption | apply sound_next | apply sound_ite | apply out_ite | apply State.farReply_sound | apply State.putSeq_sound
    | split | dsimp only

theorem execSequenceTableOperation_sound {s : State} (h : Sound s) (t : Nat) (op : SeqOp)  : OutSound (execSequenceTableOperation t op s) := by
  unfold execSequenceTableOperation
  with_reducible repeat' first
    | intro _ | assumption | apply sound_next | apply sound_ite | apply out_ite | apply State.classZero_sound | apply State.seqAccept_sound
    | apply State.seqCommit_sound | apply State.seqDraw_sound | split | apply sound_mk | dsimp only

theorem State.noteHold_sound {s : State} (h : Sound s)   : Sound (s.noteHold) := by
  unfold State.noteHold
  with_reducible repeat' first
    | intro _ | assumption | apply sound_next | apply sound_ite | apply out_ite | apply State.modCol_sound | apply State.modIsl_sound
    | apply sound_foldl | split | dsimp only

theorem execQwait_sound {s : State} (h : Sound s) (d a : Reg)  : OutSound (execQwait d a s) := by
  unfold execQwait
  with_reducible repeat' first
    | intro _ | assumption | apply sound_next | apply sound_ite | apply out_ite | apply State.after_sound | apply State.parkMe_sound
    | apply State.supervisor_sound | apply State.trapMe_sound | split | dsimp only

theorem State.endQwait_sound {s : State} (h : Sound s) (t : Nat) (d : Reg) (v : Nat)  : Sound (s.endQwait t d v) := by
  unfold State.endQwait
  with_reducible repeat' first
    | intro _ | assumption | apply sound_next | apply sound_ite | apply out_ite | apply State.completeParked_sound | split | apply sound_mk
    | dsimp only

theorem execQuiescenceReport_sound {s : State} (h : Sound s) (t : Nat)  : OutSound (execQuiescenceReport t s) := by
  unfold execQuiescenceReport
  with_reducible repeat' first
    | intro _ | assumption | apply sound_next | apply sound_ite | apply out_ite | apply State.endQwait_sound | split | dsimp only

theorem execQwaitLimit_sound {s : State} (h : Sound s) (t : Nat)  : OutSound (execQwaitLimit t s) := by
  unfold execQwaitLimit
  with_reducible repeat' first
    | intro _ | assumption | apply sound_next | apply sound_ite | apply out_ite | apply State.endQwait_sound | apply sound_foldl | split
    | dsimp only

theorem execDeadlock_sound {s : State} (h : Sound s) (c : Nat)  : OutSound (execDeadlock c s) := by
  unfold execDeadlock
  with_reducible repeat' first
    | intro _ | assumption | apply sound_next | apply sound_ite | apply out_ite | apply State.modCol_sound | apply State.modIsl_sound
    | apply State.trap_sound | apply sound_foldl | split | dsimp only

end Sys2Proof.Machine
end

