-- ==== Sys2Proof/Laws/SoundImages.lean ====
section
/-! SUPPORT. The invariant of `Safety` through the operations of `Machine/Images`. -/
namespace Sys2Proof.Machine
open Sys2Proof.Safety

theorem State.putInvWord_sound {s : State} (h : Sound s) (k : Nat) (v : Inv) (j : Nat) (x : W64)  : Sound (s.putInvWord k v j x) := by
  unfold State.putInvWord
  with_reducible repeat' first
    | intro _ | assumption | apply sound_next | apply sound_ite | apply out_ite | apply State.modThr_sound | apply State.putIsl_sound
    | split | dsimp only

end Sys2Proof.Machine
end

