-- ==== Sys2Proof/Laws/SoundRegisters.lean ====
section
/-! SUPPORT. The invariant of `Safety` through the operations of `Machine/Registers`. -/
namespace Sys2Proof.Machine
open Sys2Proof.Safety

theorem State.putSlotCode_sound {s : State} (h : Sound s) (t code : Nat)  : Sound (s.putSlotCode t code) := by
  unfold State.putSlotCode
  with_reducible repeat' first
    | intro _ | assumption | apply sound_next | apply sound_ite | apply out_ite | apply State.emptySlot_sound | apply State.modThr_sound
    | split | dsimp only

theorem State.putRecordWord_sound {s : State} (h : Sound s) (t j : Nat) (v : W64)  : Sound (s.putRecordWord t j v) := by
  unfold State.putRecordWord
  with_reducible repeat' first
    | intro _ | assumption | apply sound_next | apply sound_ite | apply out_ite | apply State.modThr_sound | apply sound_modCore
    | (simp only [List.length_map]; assumption) | split | dsimp only

theorem State.putScan_sound {s : State} (h : Sound s) (p : BitVec 32) (i : Nat) (v : W64)  : Sound (s.putScan p i v) := by
  unfold State.putScan
  with_reducible repeat' first
    | intro _ | assumption | apply sound_next | apply sound_ite | apply out_ite | apply State.modCol_sound | apply State.putTileByte_sound
    | apply State.writeClean_sound | apply sound_foldl | split | apply sound_mk | dsimp only

theorem State.debugPut_sound {s : State} (h : Sound s) (i : Nat) (v : W64)  : Sound (s.debugPut i v) := by
  unfold State.debugPut
  with_reducible repeat' first
    | intro _ | assumption | apply sound_next | apply sound_ite | apply out_ite | apply State.modCol_sound | apply State.modThr_sound
    | apply State.putInvWord_sound | apply State.putRecordWord_sound | apply State.putScan_sound | apply State.putSlotCode_sound | split
    | dsimp only

theorem State.clearRead_sound {s : State} (h : Sound s) (l : RegLoc) (m : Nat)  : Sound (s.clearRead l m) := by
  unfold State.clearRead
  with_reducible repeat' first
    | intro _ | assumption | apply sound_next | apply sound_ite | apply out_ite | split | apply sound_mk | dsimp only

theorem State.putThreadReg_sound {s : State} (h : Sound s) (t n : Nat) (v : W64)  : Sound (s.putThreadReg t n v) := by
  unfold State.putThreadReg
  with_reducible repeat' first
    | intro _ | assumption | apply sound_next | apply sound_ite | apply out_ite | apply State.modThr_sound | split | dsimp only

theorem State.putCoreReg_sound {s : State} (h : Sound s) (q n : Nat) (v : W64)  : Sound (s.putCoreReg q n v) := by
  unfold State.putCoreReg
  with_reducible repeat' first
    | intro _ | assumption | apply sound_next | apply sound_ite | apply out_ite | apply sound_modCore | (unfold Core.putHctl; assumption)
    | split | dsimp only

theorem State.putColReg_sound {s : State} (h : Sound s) (c n : Nat) (v : W64) (clr : Nat)  : Sound (s.putColReg c n v clr) := by
  unfold State.putColReg
  with_reducible repeat' first
    | intro _ | assumption | apply sound_next | apply sound_ite | apply out_ite | apply State.modCol_sound | split | dsimp only

theorem State.putIslReg_sound {s : State} (h : Sound s) (k off clr : Nat)  : Sound (s.putIslReg k off clr) := by
  unfold State.putIslReg
  with_reducible repeat' first
    | intro _ | assumption | apply sound_next | apply sound_ite | apply out_ite | apply State.modIsl_sound | split | dsimp only

theorem State.resend_sound {s : State} (h : Sound s)   : Sound (s.resend) := by
  unfold State.resend
  with_reducible repeat' first
    | intro _ | assumption | apply sound_next | apply sound_ite | apply out_ite | apply State.tell_sound | apply sound_foldl | split
    | dsimp only

theorem State.freezeCmd_sound {s : State} (h : Sound s) (cmd : Nat)  : Sound (s.freezeCmd cmd) := by
  unfold State.freezeCmd
  with_reducible repeat' first
    | intro _ | assumption | apply sound_next | apply sound_ite | apply out_ite | apply State.after_sound | split | dsimp only

theorem State.putRcctl_sound {s : State} (h : Sound s) (v : W64) (clr : Nat)  : Sound (s.putRcctl v clr) := by
  unfold State.putRcctl
  with_reducible repeat' first
    | intro _ | assumption | apply sound_next | apply sound_ite | apply out_ite | split | apply sound_mk | dsimp only

theorem State.putPkgReg_sound {s : State} (h : Sound s) (n : Nat) (v : W64) (clr cmd : Nat)  : Sound (s.putPkgReg n v clr cmd) := by
  unfold State.putPkgReg
  with_reducible repeat' first
    | intro _ | assumption | apply sound_next | apply sound_ite | apply out_ite | apply State.freezeCmd_sound | apply State.putRcctl_sound
    | apply State.resend_sound | split | apply sound_mk | dsimp only

theorem State.putSeqReg_sound {s : State} (h : Sound s) (j w : Nat) (v : W64) (clr : Nat)  : Sound (s.putSeqReg j w v clr) := by
  unfold State.putSeqReg
  with_reducible repeat' first
    | intro _ | assumption | apply sound_next | apply sound_ite | apply out_ite | apply State.putSeq_sound | split | dsimp only

theorem State.putReg_sound {s : State} (h : Sound s) (l : RegLoc) (v : W64) (clr cmd : Nat)  : Sound (s.putReg l v clr cmd) := by
  unfold State.putReg
  with_reducible repeat' first
    | intro _ | assumption | apply sound_next | apply sound_ite | apply out_ite | apply State.debugPut_sound | apply State.putColReg_sound
    | apply State.putCoreReg_sound | apply State.putIslReg_sound | apply State.putPkgReg_sound | apply State.putSeqReg_sound
    | apply State.putThreadReg_sound | split | apply sound_mk | dsimp only

theorem State.writeReg_sound {s : State} (h : Sound s) (l : RegLoc) (v : W64) (m : Nat)  : Sound (s.writeReg l v m) := by
  unfold State.writeReg
  with_reducible repeat' first
    | intro _ | assumption | apply sound_next | apply sound_ite | apply out_ite | apply State.debugPut_sound | apply State.putReg_sound
    | split | dsimp only

theorem State.changeReg_sound {s : State} (h : Sound s) (l : RegLoc) (v : W64) (on : Bool)  : Sound (s.changeReg l v on) := by
  unfold State.changeReg
  with_reducible repeat' first
    | intro _ | assumption | apply sound_next | apply sound_ite | apply out_ite | apply State.putReg_sound | split | dsimp only

theorem State.crChecked_sound {s : State} (h : Sound s) (sup : Bool) (go : State → State) (hgo : ∀ (x0 : State), Sound x0 → Sound (go x0)) : Sound (s.crChecked sup go) := by
  unfold State.crChecked
  with_reducible repeat' first
    | intro _ | assumption | apply sound_next | apply sound_ite | apply out_ite | apply hgo | apply State.supervisor_sound | split
    | dsimp only

theorem execCrrd_sound {s : State} (h : Sound s) (d : Reg) (n : BitVec 14)  : OutSound (execCrrd d n s) := by
  unfold execCrrd
  with_reducible repeat' first
    | intro _ | assumption | apply sound_next | apply sound_ite | apply out_ite | apply State.clearRead_sound | apply State.crChecked_sound
    | apply State.finish_sound | apply State.wr_sound | split | dsimp only

theorem execCrwr_sound {s : State} (h : Sound s) (a : Reg) (n : BitVec 14)  : OutSound (execCrwr a n s) := by
  unfold execCrwr
  with_reducible repeat' first
    | intro _ | assumption | apply sound_next | apply sound_ite | apply out_ite | apply State.crChecked_sound | apply State.finish_sound
    | apply State.writeReg_sound | split | dsimp only

theorem execCrset_sound {s : State} (h : Sound s) (a : Reg) (n : BitVec 14)  : OutSound (execCrset a n s) := by
  unfold execCrset
  with_reducible repeat' first
    | intro _ | assumption | apply sound_next | apply sound_ite | apply out_ite | apply State.changeReg_sound | apply State.crChecked_sound
    | apply State.finish_sound | split | dsimp only

theorem execCrclr_sound {s : State} (h : Sound s) (a : Reg) (n : BitVec 14)  : OutSound (execCrclr a n s) := by
  unfold execCrclr
  with_reducible repeat' first
    | intro _ | assumption | apply sound_next | apply sound_ite | apply out_ite | apply State.changeReg_sound | apply State.crChecked_sound
    | apply State.finish_sound | split | dsimp only

theorem execOwnerAccess_sound {s : State} (h : Sound s) (seq : Nat)  : OutSound (execOwnerAccess seq s) := by
  unfold execOwnerAccess
  with_reducible repeat' first
    | intro _ | assumption | apply sound_next | apply sound_ite | apply out_ite | apply State.answer_sound | apply State.clearRead_sound
    | apply State.dropFlight_sound | apply State.ownerAccess_sound | apply State.writeReg_sound | split | dsimp only

theorem State.capture_sound {s : State} (h : Sound s) (src off : Nat) (data : List Byte)  : Sound (s.capture src off data) := by
  unfold State.capture
  with_reducible repeat' first
    | intro _ | assumption | apply sound_next | apply sound_ite | apply out_ite | apply State.interrupt_sound | apply State.ringWord_sound
    | apply sound_foldl | split | apply sound_mk | dsimp only

theorem State.hostError_sound {s : State} (h : Sound s) (n : Nat)  : Sound (s.hostError n) := by
  unfold State.hostError
  with_reducible repeat' first
    | intro _ | assumption | apply sound_next | apply sound_ite | apply out_ite | apply State.interrupt_sound | split | apply sound_mk
    | dsimp only

theorem State.bar0Write_sound {s : State} (h : Sound s) (off size : Nat) (v : W64)  : Sound (s.bar0Write off size v) := by
  unfold State.bar0Write
  with_reducible repeat' first
    | intro _ | assumption | apply sound_next | apply sound_ite | apply out_ite | apply State.hostError_sound | apply State.writeReg_sound
    | split | dsimp only

theorem State.bar0Read_sound {s : State} (h : Sound s) (off size : Nat)  : Sound (s.bar0Read off size) := by
  unfold State.bar0Read
  with_reducible repeat' first
    | intro _ | assumption | apply sound_next | apply sound_ite | apply out_ite | apply State.clearRead_sound | apply State.hostError_sound
    | apply State.tell_sound | split | dsimp only

theorem State.hostRequest_sound {s : State} (h : Sound s) (e : Event) (wr : Bool) (go : State → State) (hgo : ∀ (x0 : State), Sound x0 → Sound (go x0)) : Sound (s.hostRequest e wr go) := by
  unfold State.hostRequest
  with_reducible repeat' first
    | intro _ | assumption | apply sound_next | apply sound_ite | apply out_ite | apply hgo | apply State.wr_sound | split | apply sound_mk
    | dsimp only

theorem State.hostWrite0_sound {s : State} (h : Sound s) (e : Event) (off size : Nat) (v : W64)  : Sound (s.hostWrite0 e off size v) := by
  unfold State.hostWrite0
  with_reducible repeat' first
    | intro _ | assumption | apply sound_next | apply sound_ite | apply out_ite | apply State.bar0Write_sound | apply State.capture_sound
    | apply State.hostRequest_sound | split | dsimp only

theorem execRegisterWrite_sound {s : State} (h : Sound s) (off size : Nat) (v : W64)  : OutSound (execRegisterWrite off size v s) := by
  unfold execRegisterWrite
  with_reducible repeat' first
    | intro _ | assumption | apply sound_next | apply sound_ite | apply out_ite | apply State.hostWrite0_sound | split | dsimp only

theorem execPointerDropRead_sound {s : State} (h : Sound s) (off size : Nat)  : OutSound (execPointerDropRead off size s) := by
  unfold execPointerDropRead
  with_reducible repeat' first
    | intro _ | assumption | apply sound_next | apply sound_ite | apply out_ite | apply State.bar0Read_sound | apply State.hostRequest_sound
    | split | dsimp only

theorem execRingBaseWrite_sound {s : State} (h : Sound s) (err : Bool) (v : W64)  : OutSound (execRingBaseWrite err v s) := by
  unfold execRingBaseWrite
  with_reducible repeat' first
    | intro _ | assumption | apply sound_next | apply sound_ite | apply out_ite | apply State.hostWrite0_sound | split | dsimp only

theorem execIntstatWrite_sound {s : State} (h : Sound s) (en : Bool) (v : W64)  : OutSound (execIntstatWrite en v s) := by
  unfold execIntstatWrite
  with_reducible repeat' first
    | intro _ | assumption | apply sound_next | apply sound_ite | apply out_ite | apply State.hostWrite0_sound | split | dsimp only

theorem execRcctlWrite_sound {s : State} (h : Sound s) (v : W64)  : OutSound (execRcctlWrite v s) := by
  unfold execRcctlWrite
  with_reducible repeat' first
    | intro _ | assumption | apply sound_next | apply sound_ite | apply out_ite | apply State.hostWrite0_sound | split | dsimp only

theorem execDebugWrite_sound {s : State} (h : Sound s) (off : Nat) (v : W64)  : OutSound (execDebugWrite off v s) := by
  unfold execDebugWrite
  with_reducible repeat' first
    | intro _ | assumption | apply sound_next | apply sound_ite | apply out_ite | apply State.hostWrite0_sound | split | dsimp only

end Sys2Proof.Machine
end

