-- ==== Sys2Proof/Laws/SoundContext.lean ====
section
/-! SUPPORT. The invariant of `Safety` through the operations of `Machine/Context`. -/
namespace Sys2Proof.Machine
open Sys2Proof.Safety

theorem execGate_sound {s : State} (h : Sound s) (a : Reg) (opn : Bool)  : OutSound (execGate a opn s) := by
  unfold execGate
  with_reducible repeat' first
    | intro _ | assumption | apply sound_next | apply sound_ite | apply out_ite | apply State.classZero_sound | apply State.finish_sound
    | apply State.fresh_sound | apply State.parkMe_sound | apply State.supervisor_sound | apply State.trapMe_sound | apply sound_foldl
    | split | apply sound_mk | dsimp only

theorem execGateArrive_sound {s : State} (h : Sound s) (id : Nat) (u : GateUnit) (opn : Bool)  : OutSound (execGateArrive id u opn s) := by
  unfold execGateArrive
  with_reducible repeat' first
    | intro _ | assumption | apply sound_next | apply sound_ite | apply out_ite | apply State.classZero_sound | apply State.putOut_sound
    | apply sound_foldl | split | apply sound_mk | dsimp only

theorem execGateAck_sound {s : State} (h : Sound s) (id : Nat)  : OutSound (execGateAck id s) := by
  unfold execGateAck
  with_reducible repeat' first
    | intro _ | assumption | apply sound_next | apply sound_ite | apply out_ite | apply State.completeParked_sound | split | apply sound_mk
    | dsimp only

theorem State.ctxChecked_sound {s : State} (h : Sound s) (d a : Reg) (wr : Bool) (go : Nat → List Via → State → State) (hgo : ∀ (x0 : Nat) (x1 : List Via) (x2 : State), Sound x2 → Sound (go x0 x1 x2)) : Sound (s.ctxChecked d a wr go) := by
  unfold State.ctxChecked
  with_reducible repeat' first
    | intro _ | assumption | apply sound_next | apply sound_ite | apply out_ite | apply hgo | apply State.mapChecked_sound
    | apply State.noAccess_sound | apply State.preChecked_sound | apply State.reportDeferred_sound | apply State.trapMe_sound
    | apply State.wr_sound | split | dsimp only

theorem State.saveThread_sound {s : State} (h : Sound s) (t : Nat) : Sound (s.saveThread t).2 := by
  unfold State.saveThread
  with_reducible repeat' first
    | intro _ | assumption | apply State.endThread_sound | apply State.dropRecord_sound | apply sound_modCore | apply State.withdraw_sound
    | dsimp only

theorem State.saveColumn_sound {s : State} (h : Sound s) (c : Nat) : Sound (s.saveColumn c).2 := by
  unfold State.saveColumn
  dsimp only
  with_reducible exact State.putCol_sound h _ _

theorem State.releaseRegs_sound {s : State} (h : Sound s) (k : Nat) (v : Inv)  : Sound (s.releaseRegs k v) := by
  unfold State.releaseRegs
  with_reducible repeat' first
    | intro _ | assumption | apply sound_next | apply sound_ite | apply out_ite | apply State.modThr_sound | split | dsimp only

theorem State.saveInv_sound {s : State} (h : Sound s) (k : Nat) (v : Inv) (started : Bool) : Sound (s.saveInv k v started).2 := by
  unfold State.saveInv
  with_reducible repeat' first
    | intro _ | assumption | apply sound_ite | apply State.closeInv_sound | apply State.admitInvs_sound | apply State.modIsl_sound
    | apply State.releaseRegs_sound | dsimp only

theorem State.captureImage_sound {s : State} (h : Sound s) (v : Nat) : Sound (s.captureImage v).2 := by
  unfold State.captureImage
  with_reducible repeat' first
    | intro _ | assumption | apply State.saveThread_sound | apply State.saveColumn_sound | apply State.saveInv_sound | split | dsimp only

theorem State.markSaved_sound {s : State} (h : Sound s) (t : Nat) (by_ : Option Nat)  : Sound (s.markSaved t by_) := by
  unfold State.markSaved
  with_reducible repeat' first
    | intro _ | assumption | apply sound_next | apply sound_ite | apply out_ite | apply State.modThr_sound | split | dsimp only

theorem execCtxsave_sound {s : State} (h : Sound s) (d a : Reg)  : OutSound (execCtxsave d a s) := by
  unfold execCtxsave
  with_reducible repeat' first
    | intro _ | assumption | apply sound_next | apply sound_ite | apply out_ite | apply State.captureImage_sound
    | apply State.ctxChecked_sound | apply State.finish_sound | apply State.launchAccess_sound | apply State.markSaved_sound
    | apply State.parkMe_sound | apply State.supervisor_sound | apply State.wr_sound | apply State.captureImage_sound | split | dsimp only

theorem State.restoreThread_sound {s : State} (h : Sound s) (t : Nat) (w : Nat → W64)  : Sound (s.restoreThread t w) := by
  unfold State.restoreThread
  with_reducible repeat' first
    | intro _ | assumption | apply sound_next | apply sound_ite | apply out_ite | apply State.enterRecord_sound | apply State.modThr_sound
    | apply State.putThr_sound | split | dsimp only

theorem State.restoreCode_sound {s : State} (h : Sound s) (v : Nat) (got : Sparse Byte)  : Sound (s.restoreCode v got) := by
  unfold State.restoreCode
  with_reducible repeat' first
    | intro _ | assumption | apply sound_next | apply sound_ite | apply out_ite | apply sound_foldl | apply sound_modCore | split
    | dsimp only

theorem State.joinEnds_sound {s : State} (h : Sound s) (c : Nat)  : Sound (s.joinEnds c) := by
  unfold State.joinEnds
  with_reducible repeat' first
    | intro _ | assumption | apply sound_next | apply sound_ite | apply out_ite | apply State.branch_sound | apply State.putIn_sound
    | apply State.putOut_sound | apply sound_foldl | split | dsimp only

theorem State.restoreColumn_sound {s t : State} (h : Sound s) (c : Nat) (w : Nat → W64) (ht : s.restoreColumn c w = some t) : Sound t := by
  unfold State.restoreColumn at ht
  dsimp only at ht
  have h1 := State.putCol_sound h c ((s.col c).restored w)
  generalize s.putCol c ((s.col c).restored w) = s1 at ht h1
  with_reducible (split at ht)
  · exact Option.some.inj ht ▸ State.joinEnds_sound h1 c
  · exact absurd ht (by simp)

theorem State.restoreInv_sound {s : State} (h : Sound s) (k : Nat) (w : Nat → W64)  : Sound (s.restoreInv k w) := by
  unfold State.restoreInv
  with_reducible repeat' first
    | intro _ | assumption | apply sound_next | apply sound_ite | apply out_ite | apply State.fresh_sound | apply State.modIsl_sound
    | apply State.modThr_sound | apply sound_foldl | split | dsimp only

theorem State.contextRead_sound {s : State} (h : Sound s) (got : Sparse Byte) (d : Reg) (sel : W64) : Sound (s.contextRead got d sel) := by
  unfold State.contextRead
  extract_lets v w status
  have hs : ∀ (n : Nat) (t : State), Sound t → Sound (status n t) := fun n t ht => State.finish_sound (State.wr_sound ht _ _)
  clear_value status w v
  with_reducible
    refine sound_ite (fun _ => ?_) (fun _ => ?_)
    · exact hs _ _ h
    · extract_lets _
      refine sound_ite (fun _ => ?_) (fun _ => ?_)
      · exact hs _ _ h
      · refine sound_ite (fun _ => State.parkMe_sound h _ _) (fun _ => ?_)
        split
        · exact hs _ _ (State.restoreThread_sound h _ _)
        · exact hs _ _ (State.restoreCode_sound h _ _)
        · split
          · exact hs _ _ (State.restoreColumn_sound h _ _ ‹_›)
          · exact hs _ _ h
        · refine sound_ite (fun _ => ?_) (fun _ => ?_)
          · exact hs _ _ (State.restoreInv_sound h _ _)
          · exact State.parkMe_sound h _ _

theorem execCtxload_sound {s : State} (h : Sound s) (d a : Reg)  : OutSound (execCtxload d a s) := by
  unfold execCtxload
  with_reducible repeat' first
    | intro _ | assumption | apply sound_next | apply sound_ite | apply out_ite | apply State.ctxChecked_sound
    | apply State.launchAccess_sound | apply State.supervisor_sound | split | dsimp only

end Sys2Proof.Machine
end

