-- ==== Sys2Proof/Laws/SoundFreeze.lean ====
section
/-! SUPPORT. The invariant of `Safety` through the operations of `Machine/Freeze`. -/
namespace Sys2Proof.Machine
open Sys2Proof.Safety

theorem State.triggerCol_sound {s : State} (h : Sound s) (c : Nat) (stop byTrap : Bool)  : Sound (s.triggerCol c stop byTrap) := by
  unfold State.triggerCol
  with_reducible repeat' first
    | intro _ | assumption | apply sound_next | apply sound_ite | apply out_ite | apply State.modCol_sound | split | dsimp only

theorem State.triggerIsl_sound {s : State} (h : Sound s) (k : Nat)  : Sound (s.triggerIsl k) := by
  unfold State.triggerIsl
  with_reducible repeat' first
    | intro _ | assumption | apply sound_next | apply sound_ite | apply out_ite | apply State.modIsl_sound | split | dsimp only

theorem State.trigger_sound {s : State} (h : Sound s) (cols isls : Nat) (stop : Bool)  : Sound (s.trigger cols isls stop) := by
  unfold State.trigger
  with_reducible repeat' first
    | intro _ | assumption | apply sound_next | apply sound_ite | apply out_ite | apply State.triggerCol_sound
    | apply State.triggerIsl_sound | apply sound_foldl | split | dsimp only

theorem execFreeze_sound {s : State} (h : Sound s) (cols isls : Nat)  : OutSound (execFreeze cols isls s) := by
  unfold execFreeze
  with_reducible repeat' first
    | intro _ | assumption | apply sound_next | apply sound_ite | apply out_ite | apply State.trigger_sound | split | dsimp only

theorem execStopTheColumn_sound {s : State} (h : Sound s) (cols isls : Nat)  : OutSound (execStopTheColumn cols isls s) := by
  unfold execStopTheColumn
  with_reducible repeat' first
    | intro _ | assumption | apply sound_next | apply sound_ite | apply out_ite | apply State.trigger_sound | split | dsimp only

theorem execPartitionGate_sound {s : State} (h : Sound s) (p : Partition)  : OutSound (execPartitionGate p s) := by
  unfold execPartitionGate
  with_reducible repeat' first
    | intro _ | assumption | apply sound_next | apply sound_ite | apply out_ite | apply State.interrupt_sound | apply State.putCol_sound
    | apply State.putIsl_sound | split | dsimp only

theorem State.shiftFlights_sound {s : State} (h : Sound s) (p : Partition) (gated n : Nat)  : Sound (s.shiftFlights p gated n) := by
  unfold State.shiftFlights
  with_reducible repeat' first
    | intro _ | assumption | apply sound_next | apply sound_ite | apply out_ite | split | apply sound_mk | dsimp only

theorem State.shiftPipes_sound {s : State} (h : Sound s) (k gated n : Nat) : Sound (s.shiftPipes k gated n) := by
  unfold State.shiftPipes
  extract_lets at_ f
  exact sound_mk (sound_copies h (fun l => l.map (fun w => { w with pipe := f w.pipe (at_ w.src || at_ w.dst) })) rfl) ..

theorem State.resumeCol_sound {s : State} (h : Sound s) (c : Nat)  : Sound (s.resumeCol c) := by
  unfold State.resumeCol
  with_reducible repeat' first
    | intro _ | assumption | apply sound_next | apply sound_ite | apply out_ite | apply State.putCol_sound | apply State.shiftFlights_sound
    | apply sound_foldl | apply sound_modCore | split | apply sound_mk | dsimp only

theorem State.resumeIsl_sound {s : State} (h : Sound s) (k : Nat)  : Sound (s.resumeIsl k) := by
  unfold State.resumeIsl
  with_reducible repeat' first
    | intro _ | assumption | apply sound_next | apply sound_ite | apply out_ite | apply State.putIsl_sound | apply State.shiftFlights_sound
    | apply State.shiftPipes_sound | split | apply sound_mk | dsimp only

theorem State.leaveDouble_sound {s : State} (h : Sound s) (q : Nat)  : Sound (s.leaveDouble q) := by
  unfold State.leaveDouble
  with_reducible repeat' first
    | intro _ | assumption | apply sound_next | apply sound_ite | apply out_ite | apply State.finishKill_sound
    | apply State.startThread_sound | apply sound_modCore | split | dsimp only

theorem execRelease_sound {s : State} (h : Sound s) (cols isls : Nat)  : OutSound (execRelease cols isls s) := by
  unfold execRelease
  with_reducible repeat' first
    | intro _ | assumption | apply sound_next | apply sound_ite | apply out_ite | apply State.leaveDouble_sound
    | apply State.resumeCol_sound | apply State.resumeIsl_sound | apply sound_foldl | split | dsimp only

theorem execStep_sound {s : State} (h : Sound s) (cols core : Nat)  : OutSound (execStep cols core s) := by
  unfold execStep
  with_reducible repeat' first
    | intro _ | assumption | apply sound_next | apply sound_ite | apply out_ite | apply State.modCol_sound | apply State.resumeCol_sound
    | apply sound_foldl | split | dsimp only

theorem execStepEnd_sound {s : State} (h : Sound s) (c : Nat)  : OutSound (execStepEnd c s) := by
  unfold execStepEnd
  with_reducible repeat' first
    | intro _ | assumption | apply sound_next | apply sound_ite | apply out_ite | apply State.modCol_sound | split | dsimp only

theorem execFreezePinAssert_sound {s : State} (h : Sound s)   : OutSound (execFreezePinAssert s) := by
  unfold execFreezePinAssert
  with_reducible repeat' first
    | intro _ | assumption | apply sound_next | apply sound_ite | apply out_ite | split | apply sound_mk | dsimp only

theorem execFreezePinRelease_sound {s : State} (h : Sound s)   : OutSound (execFreezePinRelease s) := by
  unfold execFreezePinRelease
  with_reducible repeat' first
    | intro _ | assumption | apply sound_next | apply sound_ite | apply out_ite | split | apply sound_mk | dsimp only

end Sys2Proof.Machine
end

