-- ==== Sys2Proof/Laws/SoundLaunch.lean ====
section
/-! SUPPORT. The invariant of `Safety` through the operations of `Machine/Launch`. -/
namespace Sys2Proof.Machine
open Sys2Proof.Safety

theorem State.putLq_sound {s : State} (h : Sound s) (e w : Nat) (v : Nat)  : Sound (s.putLq e w v) := by
  unfold State.putLq
  with_reducible repeat' first
    | intro _ | assumption | apply sound_next | apply sound_ite | apply out_ite | split | apply sound_mk | dsimp only

theorem State.putLqState_sound {s : State} (h : Sound s) (e st code detail vc : Nat)  : Sound (s.putLqState e st code detail vc) := by
  unfold State.putLqState
  with_reducible repeat' first
    | intro _ | assumption | apply sound_next | apply sound_ite | apply out_ite | apply State.putLq_sound | split | dsimp only

theorem State.endEntry_sound {s : State} (h : Sound s) (e st code detail vc : Nat)  : Sound (s.endEntry e st code detail vc) := by
  unfold State.endEntry
  with_reducible repeat' first
    | intro _ | assumption | apply sound_next | apply sound_ite | apply out_ite | apply State.interrupt_sound | apply State.putLq_sound
    | apply State.putLqState_sound | split | dsimp only

theorem State.launchBlocks_sound {s t : State} (h : Sound s) (e : Nat) (g : Image) (l : List Section) (ht : s.launchBlocks e g l = .ok t) : Sound t := by
  induction l generalizing s with
  | nil => exact Except.ok.inj ht ▸ h
  | cons x xs ih =>
    unfold State.launchBlocks at ht
    dsimp only at ht
    split at ht
    · exact ih h ht
    · split at ht
      · split at ht
        · exact ih (State.installNow_sound h _ _ _) ht
        · exact nomatch ht
      · exact nomatch ht

theorem State.clearCore_sound {s : State} (h : Sound s) (q : Nat)  : Sound (s.clearCore q) := by
  unfold State.clearCore
  with_reducible repeat' first
    | intro _ | assumption | apply sound_next | apply sound_ite | apply out_ite | apply State.clearTable_sound | apply State.modThr_sound
    | apply sound_foldl | apply sound_modCore | split | dsimp only

theorem State.installCode_sound {s : State} (h : Sound s) (q : Nat) (g : Image) (x : Section)  : Sound (s.installCode q g x) := by
  unfold State.installCode
  with_reducible repeat' first
    | intro _ | assumption | apply sound_next | apply sound_ite | apply out_ite | apply sound_foldl | apply sound_modCore | split
    | dsimp only

theorem State.installRanges_sound {s : State} (h : Sound s) (q : Nat) (g : Image) (x : Section)  : Sound (s.installRanges q g x) := by
  unfold State.installRanges
  with_reducible repeat' first
    | intro _ | assumption | apply sound_next | apply sound_ite | apply out_ite | apply State.modThr_sound | apply State.putEntry_sound
    | apply sound_foldl | split | dsimp only

theorem State.installShapes_sound {s : State} (h : Sound s) (c : Nat) (g : Image) (x : Section)  : Sound (s.installShapes c g x) := by
  unfold State.installShapes
  with_reducible repeat' first
    | intro _ | assumption | apply sound_next | apply sound_ite | apply out_ite | apply State.modCol_sound | apply sound_foldl | split
    | dsimp only

theorem State.installSection_sound {s : State} (h : Sound s) (e : Nat) (g : Image) (x : Section)  : Sound (s.installSection e g x) := by
  unfold State.installSection
  with_reducible repeat' first
    | intro _ | assumption | apply sound_next | apply sound_ite | apply out_ite | apply State.installCode_sound
    | apply State.installRanges_sound | apply State.installShapes_sound | split | dsimp only

theorem State.launchBindings_sound {s : State} (h : Sound s) (e : Nat) (g : Image) (l : List (Section × Nat)) : Sound (s.launchBindings e g l).1 := by
  induction l generalizing s with
  | nil => exact h
  | cons p rest ih =>
    obtain ⟨x, j⟩ := p
    unfold State.launchBindings
    dsimp only
    split
    · exact h
    · exact ih (State.bind_sound h _ _ _)

/-- The state that a step of a data section leaves. -/
theorem State.dataStep_sound {s : State} (h : Sound s) (d : DataSection) :
    (∀ n t, s.dataStep d = .sent n t → Sound t) ∧ ∀ t, s.dataStep d = .waits t → Sound t := by
  unfold State.dataStep
  dsimp only
  split
  · split
    · exact ⟨fun _ _ ht => (nomatch ht), fun _ ht => (nomatch ht)⟩
    · refine ⟨fun n t ht => ?_, fun _ ht => (nomatch ht)⟩
      rw [← (DataStep.sent.inj ht).2]
      exact State.present_sound (State.fresh_sound h) _
  · exact ⟨fun _ _ ht => (nomatch ht), fun _ ht => (nomatch ht)⟩
  · exact ⟨fun _ _ ht => (nomatch ht), fun t ht => DataStep.waits.inj ht ▸ h⟩
  · split
    · exact ⟨fun _ _ ht => (nomatch ht), fun _ ht => (nomatch ht)⟩
    · exact ⟨fun _ _ ht => (nomatch ht), fun t ht => DataStep.waits.inj ht ▸ State.startFetch_sound h _ _ _ _ _ _⟩

theorem State.measure_sound {s : State} (h : Sound s) (i : Nat) (digest : List Byte)  : Sound (s.measure i digest) := by
  unfold State.measure
  with_reducible repeat' first
    | intro _ | assumption | apply sound_next | apply sound_ite | apply out_ite | split | apply sound_mk | dsimp only

theorem execLaunchTakeEntry_sound {s : State} (h : Sound s)   : OutSound (execLaunchTakeEntry s) := by
  unfold execLaunchTakeEntry
  with_reducible repeat' first
    | intro _ | assumption | apply sound_next | apply sound_ite | apply out_ite | apply State.later_sound | apply State.putLq_sound
    | apply State.putLqState_sound | split | apply sound_mk | dsimp only

theorem State.refuseLaunch_sound {s : State} (h : Sound s) (e : Nat) (digest : List Byte) (r : LaunchRefusal)  : Sound (s.refuseLaunch e digest r) := by
  unfold State.refuseLaunch
  with_reducible repeat' first
    | intro _ | assumption | apply sound_next | apply sound_ite | apply out_ite | apply State.endEntry_sound | apply State.measure_sound
    | split | apply sound_mk | dsimp only

theorem State.startLaunch_sound {s : State} (h : Sound s) (e : Nat) (starts : List (Nat × Nat)) (cols : List Nat)  : Sound (s.startLaunch e starts cols) := by
  unfold State.startLaunch
  with_reducible repeat' first
    | intro _ | assumption | apply sound_next | apply sound_ite | apply out_ite | apply State.putLqState_sound
    | apply State.startThread_sound | apply sound_foldl | split | apply sound_mk | dsimp only

theorem State.installImage_sound {s : State} (h : Sound s) (e : Nat) (g : Image) : Sound (s.installImage e g) := by
  unfold State.installImage
  dsimp only
  split
  · exact State.refuseLaunch_sound h _ _ _
  · split
    · exact State.refuseLaunch_sound h _ _ _
    · rename_i t ht
      have h0 := State.launchBlocks_sound h _ _ _ ht
      generalize hb : State.launchBindings _ _ _ _ = b
      have h2 : Sound b.1 := by
        rw [← hb]
        apply State.launchBindings_sound
        with_reducible repeat' first
          | intro _ | assumption | apply sound_foldl | apply State.installSection_sound | apply State.clearCore_sound | apply State.modCol_sound
      split
      · exact State.refuseLaunch_sound h2 _ _ _
      · exact State.after_sound (sound_mk h2 ..) _ _

theorem State.installData_sound {s : State} (h : Sound s) (e : Nat) (l : LaunchLoad) : Sound (s.installData e l) := by
  unfold State.installData
  refine sound_ite (fun _ => h) (fun _ => ?_)
  split
  · exact State.startLaunch_sound (State.measure_sound h _ _) _ _ _
  · rename_i d ds _
    have hd := State.dataStep_sound h d
    split
    · rename_i n t ht
      exact sound_mk (hd.1 n t ht) ..
    · rename_i t ht
      exact State.after_sound (hd.2 t ht) _ _
    · exact State.refuseLaunch_sound h _ _ _

theorem State.readImage_sound {s : State} (h : Sound s) (g o n : Nat) (got : Image)  : Sound (s.readImage g o n got) := by
  unfold State.readImage
  with_reducible repeat' first
    | intro _ | assumption | apply sound_next | apply sound_ite | apply out_ite | apply State.fresh_sound | apply State.present_sound
    | split | apply sound_mk | dsimp only

theorem State.beginImage_sound {s : State} (h : Sound s) (e : Nat)  : Sound (s.beginImage e) := by
  unfold State.beginImage
  with_reducible repeat' first
    | intro _ | assumption | apply sound_next | apply sound_ite | apply out_ite | apply State.readImage_sound
    | apply State.refuseLaunch_sound | split | dsimp only

theorem State.imageRead_sound {s : State} (h : Sound s) (e : Nat) (got : Image) (bad whole : Bool)  : Sound (s.imageRead e got bad whole) := by
  unfold State.imageRead
  with_reducible repeat' first
    | intro _ | assumption | apply sound_next | apply sound_ite | apply out_ite | apply State.installImage_sound
    | apply State.readImage_sound | apply State.refuseLaunch_sound | split | dsimp only

theorem execLaunchInstallDone_sound {s : State} (h : Sound s)   : OutSound (execLaunchInstallDone s) := by
  unfold execLaunchInstallDone
  with_reducible repeat' first
    | intro _ | assumption | apply sound_next | apply sound_ite | apply out_ite | apply State.beginImage_sound
    | apply State.dropFlight_sound | apply State.imageRead_sound | apply State.installData_sound | split | dsimp only

theorem State.sweepLaunches_sound {s : State} (h : Sound s)   : Sound (s.sweepLaunches) := by
  unfold State.sweepLaunches
  with_reducible repeat' first
    | intro _ | assumption | apply sound_next | apply sound_ite | apply out_ite | apply State.endEntry_sound | apply sound_foldl | split
    | apply sound_mk | dsimp only

end Sys2Proof.Machine
end

