-- ==== Sys2Proof/Laws/SoundHost.lean ====
section
/-! SUPPORT. The invariant of `Safety` through the operations of `Machine/Host`. -/
namespace Sys2Proof.Machine
open Sys2Proof.Safety

theorem State.hostStart_sound {s : State} (h : Sound s) (g n : Nat) (op : AccOp)  : Sound (s.hostStart g n op) := by
  unfold State.hostStart
  with_reducible repeat' first
    | intro _ | assumption | apply sound_next | apply sound_ite | apply out_ite | apply State.fresh_sound | apply State.present_sound
    | split | apply sound_mk | dsimp only

theorem State.bar2Clear_sound {s : State} (h : Sound s) (g n : Nat)  : Sound (s.bar2Clear g n) := by
  unfold State.bar2Clear
  with_reducible repeat' first
    | intro _ | assumption | apply sound_next | apply sound_ite | apply out_ite | apply State.clearRead_sound | apply sound_foldl | split
    | dsimp only

theorem execHostBar2Read_sound {s : State} (h : Sound s) (off n : Nat)  : OutSound (execHostBar2Read off n s) := by
  unfold execHostBar2Read
  with_reducible repeat' first
    | intro _ | assumption | apply sound_next | apply sound_ite | apply out_ite | apply State.bar2Clear_sound | apply State.hostError_sound
    | apply State.hostRequest_sound | apply State.hostStart_sound | apply State.tell_sound | split | dsimp only

theorem State.bar2Word_sound {s : State} (h : Sound s) (w : Nat) (en : List (Nat × Byte))  : Sound (s.bar2Word w en) := by
  unfold State.bar2Word
  with_reducible repeat' first
    | intro _ | assumption | apply sound_next | apply sound_ite | apply out_ite | apply State.writeReg_sound | apply sound_foldl | split
    | dsimp only

theorem State.bar2Regs_sound {s : State} (h : Sound s) (g : Nat) (data : List (Option Byte))  : Sound (s.bar2Regs g data) := by
  unfold State.bar2Regs
  with_reducible repeat' first
    | intro _ | assumption | apply sound_next | apply sound_ite | apply out_ite | apply State.bar2Word_sound | apply sound_foldl | split
    | dsimp only

theorem execHostBar2Write_sound {s : State} (h : Sound s) (off : Nat) (data : List (Option Byte))  : OutSound (execHostBar2Write off data s) := by
  unfold execHostBar2Write
  with_reducible repeat' first
    | intro _ | assumption | apply sound_next | apply sound_ite | apply out_ite | apply State.bar2Regs_sound | apply State.capture_sound
    | apply State.hostError_sound | apply State.hostRequest_sound | apply State.hostStart_sound | split | dsimp only

theorem execHostUnsupportedRequest_sound {s : State} (h : Sound s) (isRead : Bool)  : OutSound (execHostUnsupportedRequest isRead s) := by
  unfold execHostUnsupportedRequest
  with_reducible repeat' first
    | intro _ | assumption | apply sound_next | apply sound_ite | apply out_ite | apply State.hostError_sound | apply State.tell_sound
    | split | dsimp only

theorem State.failLoad_sound {s : State} (h : Sound s) (a : Access) (i : TrapInfo)  : Sound (s.failLoad a i) := by
  unfold State.failLoad
  with_reducible repeat' first
    | intro _ | assumption | apply sound_next | apply sound_ite | apply out_ite | apply State.answer_sound | apply State.dropFlight_sound
    | apply State.moveOver_sound | apply State.trap_sound | split | dsimp only

theorem execHostWindowTimeout_sound {s : State} (h : Sound s) (seq : Nat)  : OutSound (execHostWindowTimeout seq s) := by
  unfold execHostWindowTimeout
  with_reducible repeat' first
    | intro _ | assumption | apply sound_next | apply sound_ite | apply out_ite | apply State.failLoad_sound | apply State.hostError_sound
    | split | dsimp only

theorem execHostWindowStoreFail_sound {s : State} (h : Sound s) (seq : Nat)  : OutSound (execHostWindowStoreFail seq s) := by
  unfold execHostWindowStoreFail
  with_reducible repeat' first
    | intro _ | assumption | apply sound_next | apply sound_ite | apply out_ite | apply State.dropFlight_sound | apply State.hostError_sound
    | apply State.moveOn_sound | split | dsimp only

theorem execDeviceControl2Write_sound {s : State} (h : Sound s) (v : Nat)  : OutSound (execDeviceControl2Write v s) := by
  unfold execDeviceControl2Write
  with_reducible repeat' first
    | intro _ | assumption | apply sound_next | apply sound_ite | apply out_ite | split | apply sound_mk | dsimp only

end Sys2Proof.Machine
end

