-- ==== Sys2Proof/Laws/SoundChain.lean ====
section
/-! SUPPORT. The invariant of `Safety` through the operations of `Machine/Chain`. -/
namespace Sys2Proof.Machine
open Sys2Proof.Safety

theorem State.chainTables_sound {s : State} (h : Sound s) (src seq : Nat) (win : Bool) (sel a b : W64)  : Sound (s.chainTables src seq win sel a b) := by
  unfold State.chainTables
  with_reducible repeat' first
    | intro _ | assumption | apply sound_next | apply sound_ite | apply out_ite | apply State.addInval_sound | apply State.fresh_sound
    | apply State.sendScope_sound | split | dsimp only

theorem State.gatherAnswer_sound {s : State} (h : Sound s) (a : Access) (todo : List Piece) (got : Sparse Byte) (use : GatherUse) (data : List Byte) (bad : Nat)  : Sound (s.gatherAnswer a todo got use data bad) := by
  unfold State.gatherAnswer
  with_reducible repeat' first
    | intro _ | assumption | apply sound_next | apply sound_ite | apply out_ite | apply State.moveOn_sound | apply sound_foldl | split
    | dsimp only

theorem State.feServed_sound {s : State} (h : Sound s) (t seq : Nat)  : Sound (s.feServed t seq) := by
  unfold State.feServed
  with_reducible repeat' first
    | intro _ | assumption | apply sound_next | apply sound_ite | apply out_ite | apply State.modThr_sound | split | dsimp only

theorem State.chainWait_sound {s : State} (h : Sound s) (seq : Nat) (served : Bool)  : Sound (s.chainWait seq served) := by
  unfold State.chainWait
  with_reducible repeat' first
    | intro _ | assumption | apply sound_next | apply sound_ite | apply out_ite | apply State.feServed_sound | apply State.modThr_sound
    | split | dsimp only

theorem State.chainWithdraw_sound {s : State} (h : Sound s) (src seq : Nat)  : Sound (s.chainWithdraw src seq) := by
  unfold State.chainWithdraw
  with_reducible repeat' first
    | intro _ | assumption | apply sound_next | apply sound_ite | apply out_ite | apply State.dropFlight_sound | apply State.tell_sound
    | split | dsimp only

theorem State.chainWithdrawn_sound {s : State} (h : Sound s) (seq : Nat)  : Sound (s.chainWithdrawn seq) := by
  unfold State.chainWithdrawn
  with_reducible repeat' first
    | intro _ | assumption | apply sound_next | apply sound_ite | apply out_ite | apply State.dropFlight_sound | apply State.feBack_sound
    | split | dsimp only

theorem State.chainAnswered_sound {s : State} (h : Sound s) (a : Access) (data : List Byte) (bad : Nat)  : Sound (s.chainAnswered a data bad) := by
  unfold State.chainAnswered
  with_reducible repeat' first
    | intro _ | assumption | apply sound_next | apply sound_ite | apply out_ite | apply State.after_sound | apply State.answer_sound
    | apply State.dropFlight_sound | apply State.feServed_sound | apply State.gatherAnswer_sound | apply State.moveOn_sound
    | apply State.store_sound | apply State.trap_sound | split | dsimp only

theorem State.chainReply_sound {s : State} (h : Sound s) (src seq : Nat) (data : List Byte) (bad : Nat)  : Sound (s.chainReply src seq data bad) := by
  unfold State.chainReply
  with_reducible repeat' first
    | intro _ | assumption | apply sound_next | apply sound_ite | apply out_ite | apply State.chainAnswered_sound
    | apply State.modInval_sound | split | dsimp only

theorem State.chainStart_sound {s : State} (h : Sound s) : ∀ o : Option Access, Sound (s.chainStart o)
  | some _ => State.present_sound (State.fresh_sound h) _
  | none => h

theorem State.chainPerform_sound {s : State} (h : Sound s) (src seq : Nat) (op : ChainOp) : Sound (s.chainPerform src seq op) := by
  cases op with
  | answer data bad => exact State.chainReply_sound h src seq data bad
  | tables win sel a b => exact State.chainTables_sound h src seq win sel a b
  | feWait served => exact State.chainWait_sound h seq served
  | withdraw => exact State.chainWithdraw_sound h src seq
  | withdrawn => exact State.chainWithdrawn_sound h seq
  | _ => exact State.chainStart_sound h _

theorem State.chainTake_sound {s : State} (h : Sound s) (src dst seq : Nat) (op : ChainOp)  : Sound (s.chainTake src dst seq op) := by
  unfold State.chainTake
  with_reducible repeat' first
    | intro _ | assumption | apply sound_next | apply sound_ite | apply out_ite | apply State.chainPerform_sound | apply State.tell_sound
    | split | dsimp only

theorem State.captureFlit_sound {s : State} (h : Sound s) (src dst seq : Nat) (op : ChainOp)  : Sound (s.captureFlit src dst seq op) := by
  unfold State.captureFlit
  with_reducible repeat' first
    | intro _ | assumption | apply sound_next | apply sound_ite | apply out_ite | apply State.capture_sound | apply State.fresh_sound
    | split | apply sound_mk | dsimp only

theorem execChainPacket_sound {s : State} (h : Sound s) (src dst seq : Nat) (op : ChainOp)  : OutSound (execChainPacket src dst seq op s) := by
  unfold execChainPacket
  with_reducible repeat' first
    | intro _ | assumption | apply sound_next | apply sound_ite | apply out_ite | apply State.answer_sound | apply State.captureFlit_sound
    | apply State.chainPerform_sound | apply State.chainTake_sound | split | dsimp only

theorem State.dropLink_sound {s : State} (h : Sound s) (west : Bool)  : Sound (s.dropLink west) := by
  unfold State.dropLink
  with_reducible repeat' first
    | intro _ | assumption | apply sound_next | apply sound_ite | apply out_ite | split | apply sound_mk | dsimp only

theorem execChainLinkDown_sound {s : State} (h : Sound s) (west : Bool)  : OutSound (execChainLinkDown west s) := by
  unfold execChainLinkDown
  with_reducible repeat' first
    | intro _ | assumption | apply sound_next | apply sound_ite | apply out_ite | apply State.chainAnswered_sound
    | apply State.dropLink_sound | apply State.interrupt_sound | apply sound_foldl | split | dsimp only

theorem execUcieLinkRetrain_sound {s : State} (h : Sound s) (west : Bool) (width : Nat)  : OutSound (execUcieLinkRetrain west width s) := by
  unfold execUcieLinkRetrain
  with_reducible repeat' first
    | intro _ | assumption | apply sound_next | apply sound_ite | apply out_ite | split | apply sound_mk | dsimp only

theorem execTimeSyncSend_sound {s : State} (h : Sound s)   : OutSound (execTimeSyncSend s) := by
  unfold execTimeSyncSend
  with_reducible repeat' first
    | intro _ | assumption | apply sound_next | apply sound_ite | apply out_ite | apply State.tell_sound | split | dsimp only

theorem execTimeSyncReceive_sound {s : State} (h : Sound s) (v : Nat)  : OutSound (execTimeSyncReceive v s) := by
  unfold execTimeSyncReceive
  with_reducible repeat' first
    | intro _ | assumption | apply sound_next | apply sound_ite | apply out_ite | apply State.tell_sound | split | apply sound_mk
    | dsimp only

theorem State.advanceTime_sound {s : State} (h : Sound s)   : Sound (s.advanceTime) := by
  unfold State.advanceTime
  with_reducible repeat' first
    | intro _ | assumption | apply sound_next | apply sound_ite | apply out_ite | split | apply sound_mk | dsimp only

end Sys2Proof.Machine
end

