-- ==== Sys2Proof/Laws/SoundPower.lean ====
section
/-! SUPPORT. The invariant of `Safety` through the operations of `Machine/Power`. -/
namespace Sys2Proof.Machine
open Sys2Proof.Safety

theorem State.putRet_sound {s : State} (h : Sound s) (c g : Nat) (r : RetSt)  : Sound (s.putRet c g r) := by
  unfold State.putRet
  with_reducible repeat' first
    | intro _ | assumption | apply sound_next | apply sound_ite | apply out_ite | apply State.modCol_sound | split | dsimp only

theorem execRetentionEnter_sound {s : State} (h : Sound s) (c g : Nat)  : OutSound (execRetentionEnter c g s) := by
  unfold execRetentionEnter
  with_reducible repeat' first
    | intro _ | assumption | apply sound_next | apply sound_ite | apply out_ite | apply State.putRet_sound | split | dsimp only

theorem State.encodeSegment_sound {s : State} (h : Sound s) (c g : Nat)  : Sound (s.encodeSegment c g) := by
  unfold State.encodeSegment
  with_reducible repeat' first
    | intro _ | assumption | apply sound_next | apply sound_ite | apply out_ite | apply State.logError_sound | apply State.setMark_sound
    | apply sound_foldl | split | dsimp only

theorem execRetentionEnterDone_sound {s : State} (h : Sound s) (c g : Nat)  : OutSound (execRetentionEnterDone c g s) := by
  unfold execRetentionEnterDone
  with_reducible repeat' first
    | intro _ | assumption | apply sound_next | apply sound_ite | apply out_ite | apply State.encodeSegment_sound | apply State.putRet_sound
    | split | dsimp only

theorem State.failBlock_sound {s : State} (h : Sound s) (b : Nat)  : Sound (s.failBlock b) := by
  unfold State.failBlock
  with_reducible repeat' first
    | intro _ | assumption | apply sound_next | apply sound_ite | apply out_ite | apply State.logError_sound | apply State.setMark_sound
    | apply sound_foldl | split | dsimp only

theorem State.decodeSegment_sound {s : State} (h : Sound s) (c g : Nat) : Sound (s.decodeSegment c g) := by
  unfold State.decodeSegment
  extract_lets l s1
  have h1 : Sound s1 := by
    with_reducible repeat' first
      | intro _ | assumption | apply sound_foldl | apply State.logError_sound | apply State.failBlock_sound | split | dsimp only
  have hw := (wf_iff _).1 h1.1
  exact sound_mem h1 _ (wf_blocks h1.1 _ (swf_foldl _ (fun x => x.1) (fun _ => .clean) l _ hw.2.2.2))

theorem execRetentionExitDone_sound {s : State} (h : Sound s) (c g : Nat)  : OutSound (execRetentionExitDone c g s) := by
  unfold execRetentionExitDone
  with_reducible repeat' first
    | intro _ | assumption | apply sound_next | apply sound_ite | apply out_ite | apply State.decodeSegment_sound | apply State.modCol_sound
    | apply State.putRet_sound | split | dsimp only

theorem State.zeroFill_sound {s : State} (h : Sound s) (g n : Nat) : Sound (s.zeroFill g n) := by
  have hm := (wf_iff _).1 h.1
  refine sound_mem h _ ((wf_iff _).2 ?_)
  exact ⟨⟨swf_filter _ _ _ hm.1.1, hm.1.2⟩, swf_filter _ _ _ hm.2.1, swf_filter _ _ _ hm.2.2.1, hm.2.2.2⟩

theorem execPatrolClaim_sound {s : State} (h : Sound s) (g : PatrolSeg)  : OutSound (execPatrolClaim g s) := by
  unfold execPatrolClaim
  with_reducible repeat' first
    | intro _ | assumption | apply sound_next | apply sound_ite | apply out_ite | apply State.zeroFill_sound | split | apply sound_mk
    | dsimp only

theorem execPatrolChunkDone_sound {s : State} (h : Sound s) (fails : List Nat)  : OutSound (execPatrolChunkDone fails s) := by
  unfold execPatrolChunkDone
  with_reducible repeat' first
    | intro _ | assumption | apply sound_next | apply sound_ite | apply out_ite | apply State.logError_sound | apply sound_foldl | split
    | apply sound_mk | dsimp only

theorem execPatrolRelease_sound {s : State} (h : Sound s)   : OutSound (execPatrolRelease s) := by
  unfold execPatrolRelease
  with_reducible repeat' first
    | intro _ | assumption | apply sound_next | apply sound_ite | apply out_ite | apply State.fresh_sound | split | apply sound_mk
    | dsimp only

theorem State.thermal_sound {s : State} (h : Sound s) (kind sensor temp : Nat)  : Sound (s.thermal kind sensor temp) := by
  unfold State.thermal
  with_reducible repeat' first
    | intro _ | assumption | apply sound_next | apply sound_ite | apply out_ite | apply State.interrupt_sound | apply State.write4_sound
    | split | apply sound_mk | dsimp only

theorem State.setCap_sound {s : State} (h : Sound s)   : Sound (s.setCap) := by
  unfold State.setCap
  with_reducible repeat' first
    | intro _ | assumption | apply sound_next | apply sound_ite | apply out_ite | split | apply sound_mk | dsimp only

theorem State.wantStep_sound {s : State} (h : Sound s) (mhz : Nat)  : Sound (s.wantStep mhz) := by
  unfold State.wantStep
  with_reducible repeat' first
    | intro _ | assumption | apply sound_next | apply sound_ite | apply out_ite | apply State.after_sound | split | dsimp only

theorem execPowerWindow_sound {s : State} (h : Sound s) (watts : Nat)  : OutSound (execPowerWindow watts s) := by
  unfold execPowerWindow
  with_reducible repeat' first
    | intro _ | assumption | apply sound_next | apply sound_ite | apply out_ite | apply State.wantStep_sound | split | apply sound_mk
    | dsimp only

theorem execClockStepChange_sound {s : State} (h : Sound s) (mhz : Nat)  : OutSound (execClockStepChange mhz s) := by
  unfold execClockStepChange
  with_reducible repeat' first
    | intro _ | assumption | apply sound_next | apply sound_ite | apply out_ite | apply State.post_sound | apply State.thermal_sound | split
    | apply sound_mk | dsimp only

theorem execNewClockRuns_sound {s : State} (h : Sound s)   : OutSound (execNewClockRuns s) := by
  unfold execNewClockRuns
  with_reducible repeat' first
    | intro _ | assumption | apply sound_next | apply sound_ite | apply out_ite | split | apply sound_mk | dsimp only

theorem State.shutdown_sound {s : State} (h : Sound s) (sensor temp : Nat)  : Sound (s.shutdown sensor temp) := by
  unfold State.shutdown
  with_reducible repeat' first
    | intro _ | assumption | apply sound_next | apply sound_ite | apply out_ite | apply State.thermal_sound | split | apply sound_mk
    | dsimp only

theorem State.setLoops_sound {s : State} (h : Sound s) (l : BitVec 2)  : Sound (s.setLoops l) := by
  unfold State.setLoops
  with_reducible repeat' first
    | intro _ | assumption | apply sound_next | apply sound_ite | apply out_ite | apply State.setCap_sound | split | apply sound_mk
    | dsimp only

theorem execCoolingLoopLost_sound {s : State} (h : Sound s) (top : Bool) (sensor temp : Nat)  : OutSound (execCoolingLoopLost top sensor temp s) := by
  unfold execCoolingLoopLost
  with_reducible repeat' first
    | intro _ | assumption | apply sound_next | apply sound_ite | apply out_ite | apply State.setLoops_sound | apply State.shutdown_sound
    | apply State.thermal_sound | apply State.wantStep_sound | split | dsimp only

theorem execCoolingLoopRestored_sound {s : State} (h : Sound s) (top : Bool) (sensor temp : Nat)  : OutSound (execCoolingLoopRestored top sensor temp s) := by
  unfold execCoolingLoopRestored
  with_reducible repeat' first
    | intro _ | assumption | apply sound_next | apply sound_ite | apply out_ite | apply State.setLoops_sound | apply State.thermal_sound
    | split | dsimp only

theorem execJunctionHot_sound {s : State} (h : Sound s) (sensor temp : Nat)  : OutSound (execJunctionHot sensor temp s) := by
  unfold execJunctionHot
  with_reducible repeat' first
    | intro _ | assumption | apply sound_next | apply sound_ite | apply out_ite | apply State.shutdown_sound | apply State.thermal_sound
    | split | dsimp only

end Sys2Proof.Machine
end

