-- ==== Sys2Proof/Laws/SoundManage.lean ====
section
/-! SUPPORT. The invariant of `Safety` through the operations of `Machine/Manage`. -/
namespace Sys2Proof.Machine
open Sys2Proof.Safety

theorem State.manage_sound {s : State} (h : Sound s) (go : State → State) (hgo : ∀ (x0 : State), Sound x0 → Sound (go x0)) : Sound (s.manage go) := by
  unfold State.manage
  with_reducible repeat' first
    | intro _ | assumption | apply sound_next | apply sound_ite | apply out_ite | apply hgo | apply State.tell_sound | split | dsimp only

theorem State.managed_sound {s : State} (h : Sound s)   : Sound (s.managed) := by
  unfold State.managed
  with_reducible repeat' first
    | intro _ | assumption | apply sound_next | apply sound_ite | apply out_ite | apply State.tell_sound | split | dsimp only

theorem State.manageIf_sound {s : State} (h : Sound s) (ok : Bool) (go : State → State) (hgo : ∀ (x0 : State), Sound x0 → Sound (go x0)) : Sound (s.manageIf ok go) := by
  unfold State.manageIf
  with_reducible repeat' first
    | intro _ | assumption | apply sound_next | apply sound_ite | apply out_ite | apply hgo | apply State.manage_sound
    | apply State.managed_sound | apply State.tell_sound | split | dsimp only

theorem execSetret_sound {s : State} (h : Sound s) (c : Nat) (mask : BitVec 32)  : OutSound (execSetret c mask s) := by
  unfold execSetret
  with_reducible repeat' first
    | intro _ | assumption | apply sound_next | apply sound_ite | apply out_ite | apply State.manageIf_sound | apply State.modCol_sound
    | split | dsimp only

theorem execPatrol_sound {s : State} (h : Sound s) (en : Bool)  : OutSound (execPatrol en s) := by
  unfold execPatrol
  with_reducible repeat' first
    | intro _ | assumption | apply sound_next | apply sound_ite | apply out_ite | apply State.manageIf_sound | split | apply sound_mk
    | dsimp only

theorem execRepair_sound {s : State} (h : Sound s) (c bank row : Nat)  : OutSound (execRepair c bank row s) := by
  unfold execRepair
  with_reducible repeat' first
    | intro _ | assumption | apply sound_next | apply sound_ite | apply out_ite | apply State.manage_sound | apply State.managed_sound
    | apply State.tell_sound | apply State.zeroFill_sound | split | apply sound_mk | dsimp only

theorem execScanmap_sound {s : State} (h : Sound s) (off n : Nat)  : OutSound (execScanmap off n s) := by
  unfold execScanmap
  with_reducible repeat' first
    | intro _ | assumption | apply sound_next | apply sound_ite | apply out_ite | apply State.tell_sound | split | dsimp only

theorem execPowercap_sound {s : State} (h : Sound s) (watts : Nat)  : OutSound (execPowercap watts s) := by
  unfold execPowercap
  with_reducible repeat' first
    | intro _ | assumption | apply sound_next | apply sound_ite | apply out_ite | apply State.manageIf_sound | apply State.setCap_sound
    | split | apply sound_mk | dsimp only

theorem execChainnum_sound {s : State} (h : Sound s) (pkg count : BitVec 4)  : OutSound (execChainnum pkg count s) := by
  unfold execChainnum
  with_reducible repeat' first
    | intro _ | assumption | apply sound_next | apply sound_ite | apply out_ite | apply State.count_sound | apply State.manageIf_sound
    | split | apply sound_mk | dsimp only

theorem execReplay_sound {s : State} (h : Sound s) (on : Bool)  : OutSound (execReplay on s) := by
  unfold execReplay
  with_reducible repeat' first
    | intro _ | assumption | apply sound_next | apply sound_ite | apply out_ite | apply State.manageIf_sound | split | apply sound_mk
    | dsimp only

theorem execAttest_sound {s : State} (h : Sound s) (nonce : List Byte)  : OutSound (execAttest nonce s) := by
  unfold execAttest
  with_reducible repeat' first
    | intro _ | assumption | apply sound_next | apply sound_ite | apply out_ite | apply State.manage_sound | apply State.tell_sound | split
    | dsimp only

theorem execExtend_sound {s : State} (h : Sound s) (i : Nat) (digest : List Byte)  : OutSound (execExtend i digest s) := by
  unfold execExtend
  with_reducible repeat' first
    | intro _ | assumption | apply sound_next | apply sound_ite | apply out_ite | apply State.manageIf_sound | apply State.measure_sound
    | split | dsimp only

theorem execFirmwareUpdate_sound {s : State} (h : Sound s) (image : List Byte)  : OutSound (execFirmwareUpdate image s) := by
  unfold execFirmwareUpdate
  with_reducible repeat' first
    | intro _ | assumption | apply sound_next | apply sound_ite | apply out_ite | apply State.managed_sound | split | apply sound_mk
    | dsimp only

theorem execPlatformMonitoring_sound {s : State} (h : Sound s) (sensor : Nat)  : OutSound (execPlatformMonitoring sensor s) := by
  unfold execPlatformMonitoring
  with_reducible repeat' first
    | intro _ | assumption | apply sound_next | apply sound_ite | apply out_ite | apply State.tell_sound | split | apply sound_mk
    | dsimp only

theorem execPldmBase_sound {s : State} (h : Sound s) (cmd : Nat)  : OutSound (execPldmBase cmd s) := by
  unfold execPldmBase
  with_reducible repeat' first
    | intro _ | assumption | apply sound_next | apply sound_ite | apply out_ite | apply State.tell_sound | split | dsimp only

theorem wf_hostOnly {m : Memory} (h : m.wf = true) : ({ host := m.host } : Memory).wf = true :=
  (wf_iff _).2 ⟨⟨rfl, ((wf_iff _).1 h).1.2⟩, rfl, rfl, rfl⟩

theorem State.cleared_sound {s : State} (h : Sound s) (warm : Bool) : Sound (s.cleared warm) :=
  ⟨wf_hostOnly h.1, fun _ => Nat.zero_le _⟩

theorem cores_warm (l : List (Nat × Core)) (q : Nat) :
    (sget ({} : Core) ((l.map (fun e => (e.1, ({ code := e.2.code, codeMarks := e.2.codeMarks } : Core)))).foldl (fun m e => sset ({} : Core) m e.1 e.2) []) q).tq = [] := by
  have : ∀ m : Sparse Core, (sget ({} : Core) m q).tq = [] →
      (sget ({} : Core) ((l.map (fun e => (e.1, ({ code := e.2.code, codeMarks := e.2.codeMarks } : Core)))).foldl (fun m e => sset ({} : Core) m e.1 e.2) m) q).tq = [] := by
    induction l with
    | nil => exact fun _ h => h
    | cons e es ih =>
      intro m h
      refine ih _ ?_
      rw [sget_sset]
      split
      · rfl
      · exact h
  exact this [] rfl

theorem swf_poisonBlocks (r : List Nat) (l : List (Nat × Mark)) (m : Sparse Mark) (h : swf .clean m = true) :
    swf .clean (l.foldl (fun m b => r.foldl (fun m j => sset .clean m (8 * b.1 + j) .poison) m) m) = true := by
  induction l generalizing m with
  | nil => exact h
  | cons b bs ih =>
    rw [List.foldl_cons]
    apply ih
    exact swf_foldl .clean (fun j => 8 * b.1 + j) (fun _ => .poison) r m h

theorem wf_warm {m : Memory} (h : m.wf = true) : m.warm.wf = true := by
  have hm := (wf_iff _).1 h
  exact (wf_iff _).2 ⟨hm.1, rfl, swf_poisonBlocks (List.range 8) _ _ hm.2.2.1, rfl⟩

theorem State.warmReset_sound {s : State} (h : Sound s) : Sound s.warmReset := by
  refine ⟨wf_warm h.1, fun q => ?_⟩
  rw [show (s.warmReset.core q).tq = [] from cores_warm s.cores q]
  exact Nat.zero_le _

theorem execReset_sound {s : State} (h : Sound s)   : OutSound (execReset s) := by
  unfold execReset
  with_reducible repeat' first
    | intro _ | assumption | apply sound_next | apply sound_ite | apply out_ite | apply State.cleared_sound | apply State.noteStart_sound
    | apply State.tell_sound | split | dsimp only

theorem execConventionalReset_sound {s : State} (h : Sound s)   : OutSound (execConventionalReset s) := by
  unfold execConventionalReset
  with_reducible repeat' first
    | intro _ | assumption | apply sound_next | apply sound_ite | apply out_ite | apply State.warmReset_sound | split | dsimp only

theorem execHotReset_sound {s : State} (h : Sound s)   : OutSound (execHotReset s) := by
  unfold execHotReset
  with_reducible repeat' first
    | intro _ | assumption | apply sound_next | apply sound_ite | apply out_ite | apply State.warmReset_sound | split | dsimp only

theorem execFunctionLevelReset_sound {s : State} (h : Sound s)   : OutSound (execFunctionLevelReset s) := by
  unfold execFunctionLevelReset
  with_reducible repeat' first
    | intro _ | assumption | apply sound_next | apply sound_ite | apply out_ite | apply State.warmReset_sound | split | dsimp only

theorem State.putBoot_sound {s : State} (h : Sound s) (err stage : Nat)  : Sound (s.putBoot err stage) := by
  unfold State.putBoot
  with_reducible repeat' first
    | intro _ | assumption | apply sound_next | apply sound_ite | apply out_ite | split | apply sound_mk | dsimp only

theorem State.runStage_sound {s : State} (h : Sound s) (n : Nat) : Sound (s.runStage n) := by
  unfold State.runStage
  with_reducible repeat' first
    | intro _ | assumption | apply sound_ite | apply State.measure_sound
  exact ⟨wf_hostOnly h.1, h.2⟩

theorem execBootStage_sound {s : State} (h : Sound s) (err : BitVec 8)  : OutSound (execBootStage err s) := by
  unfold execBootStage
  with_reducible repeat' first
    | intro _ | assumption | apply sound_next | apply sound_ite | apply out_ite | apply State.putBoot_sound | apply State.runStage_sound
    | split | dsimp only

theorem State.applyRecord_sound {s : State} (h : Sound s)   : Sound (s.applyRecord) := by
  unfold State.applyRecord
  with_reducible repeat' first
    | intro _ | assumption | apply sound_next | apply sound_ite | apply out_ite | apply State.bar0Write_sound | apply State.bar2Regs_sound
    | apply State.chainTake_sound | apply State.hostStart_sound | split | dsimp only

theorem execReplayApply_sound {s : State} (h : Sound s)   : OutSound (execReplayApply s) := by
  unfold execReplayApply
  with_reducible repeat' first
    | intro _ | assumption | apply sound_next | apply sound_ite | apply out_ite | apply State.after_sound | apply State.applyRecord_sound
    | split | apply sound_mk | dsimp only

end Sys2Proof.Machine
end

