-- ==== Sys2Proof/Laws/SoundIssue.lean ====
section
/-! SUPPORT. The invariant of `Safety` through the operations of `Machine/Issue`. -/
namespace Sys2Proof.Machine
open Sys2Proof.Safety

theorem State.noteCode_sound {s : State} (h : Sound s) (q n pc : Nat)  : Sound (s.noteCode q n pc) := by
  unfold State.noteCode
  with_reducible repeat' first
    | intro _ | assumption | apply sound_next | apply sound_ite | apply out_ite | apply State.noteItem_sound | apply sound_modCore | split
    | dsimp only

theorem State.setIssuing_sound {s : State} (h : Sound s) (q : Nat)  : Sound (s.setIssuing q) := by
  unfold State.setIssuing
  with_reducible repeat' first
    | intro _ | assumption | apply sound_next | apply sound_ite | apply out_ite | apply State.modCol_sound | apply State.modThr_sound
    | apply State.noteCode_sound | split | apply sound_mk | dsimp only

theorem State.takeAsync_sound {s : State} (h : Sound s)   : Sound (s.takeAsync) := by
  unfold State.takeAsync
  with_reducible repeat' first
    | intro _ | assumption | apply sound_next | apply sound_ite | apply out_ite | apply State.modThr_sound | split | dsimp only

end Sys2Proof.Machine
end

