-- ==== Sys2Proof/Laws/SoundWake.lean ====
section
/-! SUPPORT. The invariant of `Safety` through the operations of `Machine/Wake`. -/
namespace Sys2Proof.Machine
open Sys2Proof.Safety

theorem State.described_sound {s : State} (h : Sound s) (kind : Nat) (whole : Bool) (got : Sparse Byte)  : Sound (s.described kind whole got) := by
  unfold State.described
  with_reducible repeat' first
    | intro _ | assumption | apply sound_next | apply sound_ite | apply out_ite | apply State.compDescribed_sound
    | apply State.copyRead_sound | apply State.keepWords_sound | apply State.swapDescribed_sound | split | dsimp only

theorem State.continueRead_sound {s : State} (h : Sound s) (got : Sparse Byte) (use : GatherUse)  : Sound (s.continueRead got use) := by
  unfold State.continueRead
  with_reducible repeat' first
    | intro _ | assumption | apply sound_next | apply sound_ite | apply out_ite | apply State.contextRead_sound
    | apply State.described_sound | apply State.installRead_sound | split | dsimp only

theorem State.endMove_sound {s : State} (h : Sound s) (t : Nat) (a : Access)  : Sound (s.endMove t a) := by
  unfold State.endMove
  with_reducible repeat' first
    | intro _ | assumption | apply sound_next | apply sound_ite | apply out_ite | apply State.applyReply_sound | apply State.asIssuing_sound
    | apply State.completeParked_sound | apply State.continueRead_sound | apply State.dropFlight_sound | apply State.emptyBank_sound
    | apply State.fillTile_sound | apply State.trap_sound | split | dsimp only

theorem State.endAccept_sound {s : State} (h : Sound s) (t n : Nat)  : Sound (s.endAccept t n) := by
  unfold State.endAccept
  with_reducible repeat' first
    | intro _ | assumption | apply sound_next | apply sound_ite | apply out_ite | apply State.acceptWaiting_sound
    | apply State.dropFlight_sound | apply State.wake_sound | split | dsimp only

theorem State.endLevel_sound {s : State} (h : Sound s) (t : Nat)  : Sound (s.endLevel t) := by
  unfold State.endLevel
  with_reducible repeat' first
    | intro _ | assumption | apply sound_next | apply sound_ite | apply out_ite | apply State.completeParked_sound | apply State.wake_sound
    | split | dsimp only

theorem State.endPark_sound {s : State} (h : Sound s) (t : Nat)  : Sound (s.endPark t) := by
  unfold State.endPark
  with_reducible repeat' first
    | intro _ | assumption | apply sound_next | apply sound_ite | apply out_ite | apply State.completeParked_sound
    | apply State.endAccept_sound | apply State.endLevel_sound | apply State.endMove_sound | apply State.finishExit_sound
    | apply State.finishInval_sound | apply State.finishKill_sound | apply State.wake_sound | apply State.withdrawFe_sound | split
    | dsimp only

theorem execParkWake_sound {s : State} (h : Sound s) (t : Nat)  : OutSound (execParkWake t s) := by
  unfold execParkWake
  with_reducible repeat' first
    | intro _ | assumption | apply sound_next | apply sound_ite | apply out_ite | apply State.endPark_sound | split | dsimp only

end Sys2Proof.Machine
end

