-- ==== Sys2Proof/Laws/SoundSchedule.lean ====
section
/-! SUPPORT. The invariant of `Safety` through the operations of `Machine/Schedule`. -/
namespace Sys2Proof.Machine
open Sys2Proof.Safety

theorem State.closeCycle_sound {s : State} (h : Sound s)   : Sound (s.closeCycle) := by
  unfold State.closeCycle
  with_reducible repeat' first
    | intro _ | assumption | apply sound_next | apply sound_ite | apply out_ite | apply State.countRows_sound | apply State.flushLog_sound
    | apply State.flushRings_sound | apply State.noteHold_sound | apply State.sweepDrains_sound | apply State.sweepInvals_sound
    | apply sound_foldl | split | dsimp only

theorem State.levelWaits_sound {s : State} (h : Sound s)   : Sound (s.levelWaits) := by
  unfold State.levelWaits
  with_reducible repeat' first
    | intro _ | assumption | apply sound_next | apply sound_ite | apply out_ite | apply State.endPark_sound | apply sound_foldl | split
    | dsimp only

theorem State.ownCycle_sound {s : State} (h : Sound s) (t : Nat)  : Sound (s.ownCycle t) := by
  unfold State.ownCycle
  with_reducible repeat' first
    | intro _ | assumption | apply sound_next | apply sound_ite | apply out_ite | apply State.count_sound | apply State.modThr_sound | split
    | dsimp only

theorem State.advanceCol_sound {s : State} (h : Sound s) (c : Nat)  : Sound (s.advanceCol c) := by
  unfold State.advanceCol
  with_reducible repeat' first
    | intro _ | assumption | apply sound_next | apply sound_ite | apply out_ite | apply State.modCol_sound | apply State.ownCycle_sound
    | apply sound_foldl | split | dsimp only

theorem State.advanceIsl_sound {s : State} (h : Sound s) (k : Nat)  : Sound (s.advanceIsl k) := by
  unfold State.advanceIsl
  with_reducible repeat' first
    | intro _ | assumption | apply sound_next | apply sound_ite | apply out_ite | apply State.modIsl_sound | split | dsimp only

theorem State.pinGate_sound {s : State} (h : Sound s)   : Sound (s.pinGate) := by
  unfold State.pinGate
  with_reducible repeat' first
    | intro _ | assumption | apply sound_next | apply sound_ite | apply out_ite | split | apply sound_mk | dsimp only

theorem State.forgetNow_sound {s : State} (h : Sound s)   : Sound (s.forgetNow) := by
  unfold State.forgetNow
  with_reducible repeat' first
    | intro _ | assumption | apply sound_next | apply sound_ite | apply out_ite | split | apply sound_mk | dsimp only

theorem State.tick_sound {s : State} (h : Sound s)   : Sound (s.tick) := by
  unfold State.tick
  with_reducible repeat' first
    | intro _ | assumption | apply sound_next | apply sound_ite | apply out_ite | apply State.advanceCol_sound
    | apply State.advanceIsl_sound | apply State.advanceTime_sound | apply State.closeCycle_sound | apply State.forgetNow_sound
    | apply State.levelWaits_sound | apply State.noteStart_sound | apply State.pinGate_sound | apply State.sweepLaunches_sound
    | apply sound_foldl | split | apply sound_mk | dsimp only

theorem State.scanTo_sound {s : State} (h : Sound s) (l : List Event) (pos : Nat)  : Sound (s.scanTo l pos) := by
  unfold State.scanTo
  with_reducible repeat' first
    | intro _ | assumption | apply sound_next | apply sound_ite | apply out_ite | split | apply sound_mk | dsimp only

theorem State.heldScan_sound {s : State} (h : Sound s)   : Sound (s.heldScan) := by
  unfold State.heldScan
  with_reducible repeat' first
    | intro _ | assumption | apply sound_next | apply sound_ite | apply out_ite | apply State.scanTo_sound | split | apply sound_mk
    | dsimp only

theorem State.placeWord_sound {s : State} (h : Sound s) (w : Word)  : Sound (s.placeWord w) := by
  unfold State.placeWord
  with_reducible repeat' first
    | intro _ | assumption | apply sound_next | apply sound_ite | apply out_ite | apply State.modCol_sound | apply State.modThr_sound
    | apply State.noteStart_sound | apply sound_modCore | split | apply sound_mk | dsimp only

end Sys2Proof.Machine
end

