-- ==== Sys2Proof/Laws/SoundControl.lean ====
section
/-! SUPPORT. The invariant of `Safety` through the operations of `Machine/Control`. -/
namespace Sys2Proof.Machine
open Sys2Proof.Safety

theorem execBra_sound {s : State} (h : Sound s) (neg : Bool) (p : PReg) (off : BitVec 21)  : OutSound (execBra neg p off s) := by
  unfold execBra
  with_reducible repeat' first
    | intro _ | assumption | apply sound_next | apply sound_ite | apply out_ite | apply State.branch_sound | apply State.finish_sound
    | simp only [id] | split | dsimp only

theorem execCall_sound {s : State} (h : Sound s) (l : Reg) (off : BitVec 21)  : OutSound (execCall l off s) := by
  unfold execCall
  with_reducible repeat' first
    | intro _ | assumption | apply sound_next | apply sound_ite | apply out_ite | apply State.branch_sound | apply State.wr_sound | split
    | dsimp only

theorem execLoop_sound {s : State} (h : Sound s) (c : Reg) (off : BitVec 21)  : OutSound (execLoop c off s) := by
  unfold execLoop
  with_reducible repeat' first
    | intro _ | assumption | apply sound_next | apply sound_ite | apply out_ite | apply State.branch_sound | apply State.finish_sound
    | apply State.wr_sound | split | dsimp only

theorem execJmpr_sound {s : State} (h : Sound s) (a : Reg)  : OutSound (execJmpr a s) := by
  unfold execJmpr
  with_reducible repeat' first
    | intro _ | assumption | apply sound_next | apply sound_ite | apply out_ite | apply State.finishAt_sound | split | dsimp only

theorem execCallr_sound {s : State} (h : Sound s) (d a : Reg)  : OutSound (execCallr d a s) := by
  unfold execCallr
  with_reducible repeat' first
    | intro _ | assumption | apply sound_next | apply sound_ite | apply out_ite | apply State.finishAt_sound | apply State.wr_sound | split
    | dsimp only

theorem execPand_sound {s : State} (h : Sound s) (d a b : PReg)  : OutSound (execPand d a b s) := by
  unfold execPand
  with_reducible repeat' first
    | intro _ | assumption | apply sound_next | apply sound_ite | apply out_ite | apply State.finish_sound | apply State.wrP_sound | split
    | dsimp only

theorem execPor_sound {s : State} (h : Sound s) (d a b : PReg)  : OutSound (execPor d a b s) := by
  unfold execPor
  with_reducible repeat' first
    | intro _ | assumption | apply sound_next | apply sound_ite | apply out_ite | apply State.finish_sound | apply State.wrP_sound | split
    | dsimp only

theorem execPxor_sound {s : State} (h : Sound s) (d a b : PReg)  : OutSound (execPxor d a b s) := by
  unfold execPxor
  with_reducible repeat' first
    | intro _ | assumption | apply sound_next | apply sound_ite | apply out_ite | apply State.finish_sound | apply State.wrP_sound | split
    | dsimp only

theorem execPnot_sound {s : State} (h : Sound s) (d a : PReg)  : OutSound (execPnot d a s) := by
  unfold execPnot
  with_reducible repeat' first
    | intro _ | assumption | apply sound_next | apply sound_ite | apply out_ite | apply State.finish_sound | apply State.wrP_sound | split
    | dsimp only

theorem execPmovFromScalar_sound {s : State} (h : Sound s) (d : PReg) (a : Reg)  : OutSound (execPmovFromScalar d a s) := by
  unfold execPmovFromScalar
  with_reducible repeat' first
    | intro _ | assumption | apply sound_next | apply sound_ite | apply out_ite | apply State.finish_sound | apply State.wrP_sound | split
    | dsimp only

theorem execPmovToScalar_sound {s : State} (h : Sound s) (d : Reg) (a : PReg)  : OutSound (execPmovToScalar d a s) := by
  unfold execPmovToScalar
  with_reducible repeat' first
    | intro _ | assumption | apply sound_next | apply sound_ite | apply out_ite | apply State.finish_sound | apply State.wr_sound | split
    | dsimp only

end Sys2Proof.Machine
end

