-- ==== Sys2Proof/Laws/SoundFloat.lean ====
section
/-! SUPPORT. The invariant of `Safety` through the operations of `Machine/Float`. -/
namespace Sys2Proof.Machine
open Sys2Proof.Safety

theorem State.fpBin_sound {s : State} (h : Sound s) (d a b : Reg) (f : Nat → Nat → Nat → Nat × FFlags)  : Sound (s.fpBin d a b f) := by
  unfold State.fpBin
  with_reducible repeat' first
    | intro _ | assumption | apply sound_next | apply sound_ite | apply out_ite | apply State.fpResult_sound | split | dsimp only

theorem State.fpFused_sound {s : State} (h : Sound s) (d a b : Reg) (negProd negAdd : Bool)  : Sound (s.fpFused d a b negProd negAdd) := by
  unfold State.fpFused
  with_reducible repeat' first
    | intro _ | assumption | apply sound_next | apply sound_ite | apply out_ite | apply State.fpResult_sound | split | dsimp only

theorem execFadd_sound {s : State} (h : Sound s) (d a b : Reg)  : OutSound (execFadd d a b s) := by
  unfold execFadd
  with_reducible repeat' first
    | intro _ | assumption | apply sound_next | apply sound_ite | apply out_ite | apply State.fpBin_sound | split | dsimp only

theorem execFsub_sound {s : State} (h : Sound s) (d a b : Reg)  : OutSound (execFsub d a b s) := by
  unfold execFsub
  with_reducible repeat' first
    | intro _ | assumption | apply sound_next | apply sound_ite | apply out_ite | apply State.fpBin_sound | split | dsimp only

theorem execFmul_sound {s : State} (h : Sound s) (d a b : Reg)  : OutSound (execFmul d a b s) := by
  unfold execFmul
  with_reducible repeat' first
    | intro _ | assumption | apply sound_next | apply sound_ite | apply out_ite | apply State.fpBin_sound | split | dsimp only

theorem execFdiv_sound {s : State} (h : Sound s) (d a b : Reg)  : OutSound (execFdiv d a b s) := by
  unfold execFdiv
  with_reducible repeat' first
    | intro _ | assumption | apply sound_next | apply sound_ite | apply out_ite | apply State.fpBin_sound | split | dsimp only

theorem execFsqrt_sound {s : State} (h : Sound s) (d a : Reg)  : OutSound (execFsqrt d a s) := by
  unfold execFsqrt
  with_reducible repeat' first
    | intro _ | assumption | apply sound_next | apply sound_ite | apply out_ite | apply State.fpResult_sound | split | dsimp only

theorem execFmin_sound {s : State} (h : Sound s) (d a b : Reg)  : OutSound (execFmin d a b s) := by
  unfold execFmin
  with_reducible repeat' first
    | intro _ | assumption | apply sound_next | apply sound_ite | apply out_ite | apply State.fpBin_sound | split | dsimp only

theorem execFmax_sound {s : State} (h : Sound s) (d a b : Reg)  : OutSound (execFmax d a b s) := by
  unfold execFmax
  with_reducible repeat' first
    | intro _ | assumption | apply sound_next | apply sound_ite | apply out_ite | apply State.fpBin_sound | split | dsimp only

theorem execFma_sound {s : State} (h : Sound s) (d a b : Reg)  : OutSound (execFma d a b s) := by
  unfold execFma
  with_reducible repeat' first
    | intro _ | assumption | apply sound_next | apply sound_ite | apply out_ite | apply State.fpFused_sound | split | dsimp only

theorem execFms_sound {s : State} (h : Sound s) (d a b : Reg)  : OutSound (execFms d a b s) := by
  unfold execFms
  with_reducible repeat' first
    | intro _ | assumption | apply sound_next | apply sound_ite | apply out_ite | apply State.fpFused_sound | split | dsimp only

theorem execFnma_sound {s : State} (h : Sound s) (d a b : Reg)  : OutSound (execFnma d a b s) := by
  unfold execFnma
  with_reducible repeat' first
    | intro _ | assumption | apply sound_next | apply sound_ite | apply out_ite | apply State.fpFused_sound | split | dsimp only

theorem execFcmp_sound {s : State} (h : Sound s) (p : PReg) (c : FCond) (a b : Reg)  : OutSound (execFcmp p c a b s) := by
  unfold execFcmp
  with_reducible repeat' first
    | intro _ | assumption | apply sound_next | apply sound_ite | apply out_ite | apply State.finish_sound | apply State.raiseFlags_sound
    | apply State.wrP_sound | split | dsimp only

theorem execFclass_sound {s : State} (h : Sound s) (d a : Reg)  : OutSound (execFclass d a s) := by
  unfold execFclass
  with_reducible repeat' first
    | intro _ | assumption | apply sound_next | apply sound_ite | apply out_ite | apply State.una_sound | split | dsimp only

theorem execFcvt_sound {s : State} (h : Sound s) (d a : Reg) (dst src : Fmt)  : OutSound (execFcvt d a dst src s) := by
  unfold execFcvt
  with_reducible repeat' first
    | intro _ | assumption | apply sound_next | apply sound_ite | apply out_ite | apply State.finish_sound | apply State.raiseFlags_sound
    | apply State.wr_sound | split | dsimp only

end Sys2Proof.Machine
end

