-- ==== Sys2Proof/Laws/SoundScalar.lean ====
section
/-! SUPPORT. The invariant of `Safety` through the operations of `Machine/Scalar`. -/
namespace Sys2Proof.Machine
open Sys2Proof.Safety

theorem execIll_sound {s : State} (h : Sound s)   : OutSound (execIll s) := by
  unfold execIll
  with_reducible repeat' first
    | intro _ | assumption | apply sound_next | apply sound_ite | apply out_ite | apply State.trapMe_sound | split | dsimp only

theorem execReservedEncoding_sound {s : State} (h : Sound s) (_w : Word)  : OutSound (execReservedEncoding _w s) := by
  unfold execReservedEncoding
  with_reducible repeat' first
    | intro _ | assumption | apply sound_next | apply sound_ite | apply out_ite | apply State.trapMe_sound | split | dsimp only

theorem execAdd_sound {s : State} (h : Sound s) (d a b : Reg)  : OutSound (execAdd d a b s) := by
  unfold execAdd
  with_reducible repeat' first
    | intro _ | assumption | apply sound_next | apply sound_ite | apply out_ite | apply State.bin_sound | split | dsimp only

theorem execSub_sound {s : State} (h : Sound s) (d a b : Reg)  : OutSound (execSub d a b s) := by
  unfold execSub
  with_reducible repeat' first
    | intro _ | assumption | apply sound_next | apply sound_ite | apply out_ite | apply State.bin_sound | split | dsimp only

theorem execAnd_sound {s : State} (h : Sound s) (d a b : Reg)  : OutSound (execAnd d a b s) := by
  unfold execAnd
  with_reducible repeat' first
    | intro _ | assumption | apply sound_next | apply sound_ite | apply out_ite | apply State.bin_sound | split | dsimp only

theorem execOr_sound {s : State} (h : Sound s) (d a b : Reg)  : OutSound (execOr d a b s) := by
  unfold execOr
  with_reducible repeat' first
    | intro _ | assumption | apply sound_next | apply sound_ite | apply out_ite | apply State.bin_sound | split | dsimp only

theorem execXor_sound {s : State} (h : Sound s) (d a b : Reg)  : OutSound (execXor d a b s) := by
  unfold execXor
  with_reducible repeat' first
    | intro _ | assumption | apply sound_next | apply sound_ite | apply out_ite | apply State.bin_sound | split | dsimp only

theorem execAndn_sound {s : State} (h : Sound s) (d a b : Reg)  : OutSound (execAndn d a b s) := by
  unfold execAndn
  with_reducible repeat' first
    | intro _ | assumption | apply sound_next | apply sound_ite | apply out_ite | apply State.bin_sound | split | dsimp only

theorem execMin_sound {s : State} (h : Sound s) (d a b : Reg)  : OutSound (execMin d a b s) := by
  unfold execMin
  with_reducible repeat' first
    | intro _ | assumption | apply sound_next | apply sound_ite | apply out_ite | apply State.bin_sound | split | dsimp only

theorem execMax_sound {s : State} (h : Sound s) (d a b : Reg)  : OutSound (execMax d a b s) := by
  unfold execMax
  with_reducible repeat' first
    | intro _ | assumption | apply sound_next | apply sound_ite | apply out_ite | apply State.bin_sound | split | dsimp only

theorem execMinu_sound {s : State} (h : Sound s) (d a b : Reg)  : OutSound (execMinu d a b s) := by
  unfold execMinu
  with_reducible repeat' first
    | intro _ | assumption | apply sound_next | apply sound_ite | apply out_ite | apply State.bin_sound | split | dsimp only

theorem execMaxu_sound {s : State} (h : Sound s) (d a b : Reg)  : OutSound (execMaxu d a b s) := by
  unfold execMaxu
  with_reducible repeat' first
    | intro _ | assumption | apply sound_next | apply sound_ite | apply out_ite | apply State.bin_sound | split | dsimp only

theorem execShl_sound {s : State} (h : Sound s) (d a b : Reg)  : OutSound (execShl d a b s) := by
  unfold execShl
  with_reducible repeat' first
    | intro _ | assumption | apply sound_next | apply sound_ite | apply out_ite | apply State.bin_sound | split | dsimp only

theorem execShr_sound {s : State} (h : Sound s) (d a b : Reg)  : OutSound (execShr d a b s) := by
  unfold execShr
  with_reducible repeat' first
    | intro _ | assumption | apply sound_next | apply sound_ite | apply out_ite | apply State.bin_sound | split | dsimp only

theorem execSra_sound {s : State} (h : Sound s) (d a b : Reg)  : OutSound (execSra d a b s) := by
  unfold execSra
  with_reducible repeat' first
    | intro _ | assumption | apply sound_next | apply sound_ite | apply out_ite | apply State.bin_sound | split | dsimp only

theorem execRol_sound {s : State} (h : Sound s) (d a b : Reg)  : OutSound (execRol d a b s) := by
  unfold execRol
  with_reducible repeat' first
    | intro _ | assumption | apply sound_next | apply sound_ite | apply out_ite | apply State.bin_sound | split | dsimp only

theorem execRor_sound {s : State} (h : Sound s) (d a b : Reg)  : OutSound (execRor d a b s) := by
  unfold execRor
  with_reducible repeat' first
    | intro _ | assumption | apply sound_next | apply sound_ite | apply out_ite | apply State.bin_sound | split | dsimp only

theorem execMul_sound {s : State} (h : Sound s) (d a b : Reg)  : OutSound (execMul d a b s) := by
  unfold execMul
  with_reducible repeat' first
    | intro _ | assumption | apply sound_next | apply sound_ite | apply out_ite | apply State.bin_sound | split | dsimp only

theorem execMulh_sound {s : State} (h : Sound s) (d a b : Reg)  : OutSound (execMulh d a b s) := by
  unfold execMulh
  with_reducible repeat' first
    | intro _ | assumption | apply sound_next | apply sound_ite | apply out_ite | apply State.bin_sound | split | dsimp only

theorem execMulhu_sound {s : State} (h : Sound s) (d a b : Reg)  : OutSound (execMulhu d a b s) := by
  unfold execMulhu
  with_reducible repeat' first
    | intro _ | assumption | apply sound_next | apply sound_ite | apply out_ite | apply State.bin_sound | split | dsimp only

theorem execDiv_sound {s : State} (h : Sound s) (d a b : Reg)  : OutSound (execDiv d a b s) := by
  unfold execDiv
  with_reducible repeat' first
    | intro _ | assumption | apply sound_next | apply sound_ite | apply out_ite | apply State.bin_sound | split | dsimp only

theorem execDivu_sound {s : State} (h : Sound s) (d a b : Reg)  : OutSound (execDivu d a b s) := by
  unfold execDivu
  with_reducible repeat' first
    | intro _ | assumption | apply sound_next | apply sound_ite | apply out_ite | apply State.bin_sound | split | dsimp only

theorem execRem_sound {s : State} (h : Sound s) (d a b : Reg)  : OutSound (execRem d a b s) := by
  unfold execRem
  with_reducible repeat' first
    | intro _ | assumption | apply sound_next | apply sound_ite | apply out_ite | apply State.bin_sound | split | dsimp only

theorem execRemu_sound {s : State} (h : Sound s) (d a b : Reg)  : OutSound (execRemu d a b s) := by
  unfold execRemu
  with_reducible repeat' first
    | intro _ | assumption | apply sound_next | apply sound_ite | apply out_ite | apply State.bin_sound | split | dsimp only

theorem execClz_sound {s : State} (h : Sound s) (d a : Reg)  : OutSound (execClz d a s) := by
  unfold execClz
  with_reducible repeat' first
    | intro _ | assumption | apply sound_next | apply sound_ite | apply out_ite | apply State.una_sound | split | dsimp only

theorem execCtz_sound {s : State} (h : Sound s) (d a : Reg)  : OutSound (execCtz d a s) := by
  unfold execCtz
  with_reducible repeat' first
    | intro _ | assumption | apply sound_next | apply sound_ite | apply out_ite | apply State.una_sound | split | dsimp only

theorem execPopc_sound {s : State} (h : Sound s) (d a : Reg)  : OutSound (execPopc d a s) := by
  unfold execPopc
  with_reducible repeat' first
    | intro _ | assumption | apply sound_next | apply sound_ite | apply out_ite | apply State.una_sound | split | dsimp only

theorem execBext_sound {s : State} (h : Sound s) (d a b : Reg)  : OutSound (execBext d a b s) := by
  unfold execBext
  with_reducible repeat' first
    | intro _ | assumption | apply sound_next | apply sound_ite | apply out_ite | apply State.bin_sound | split | dsimp only

theorem execBins_sound {s : State} (h : Sound s) (d a b : Reg)  : OutSound (execBins d a b s) := by
  unfold execBins
  with_reducible repeat' first
    | intro _ | assumption | apply sound_next | apply sound_ite | apply out_ite | apply State.bin_sound | split | dsimp only

theorem execSxtB_sound {s : State} (h : Sound s) (d a : Reg)  : OutSound (execSxtB d a s) := by
  unfold execSxtB
  with_reducible repeat' first
    | intro _ | assumption | apply sound_next | apply sound_ite | apply out_ite | apply State.una_sound | split | dsimp only

theorem execSxtH_sound {s : State} (h : Sound s) (d a : Reg)  : OutSound (execSxtH d a s) := by
  unfold execSxtH
  with_reducible repeat' first
    | intro _ | assumption | apply sound_next | apply sound_ite | apply out_ite | apply State.una_sound | split | dsimp only

theorem execSxtW_sound {s : State} (h : Sound s) (d a : Reg)  : OutSound (execSxtW d a s) := by
  unfold execSxtW
  with_reducible repeat' first
    | intro _ | assumption | apply sound_next | apply sound_ite | apply out_ite | apply State.una_sound | split | dsimp only

theorem execCmp_sound {s : State} (h : Sound s) (p : PReg) (c : Cond) (a b : Reg)  : OutSound (execCmp p c a b s) := by
  unfold execCmp
  with_reducible repeat' first
    | intro _ | assumption | apply sound_next | apply sound_ite | apply out_ite | apply State.finish_sound | apply State.wrP_sound | split
    | dsimp only

theorem execCmpi_sound {s : State} (h : Sound s) (p : PReg) (c : Cond) (a : Reg) (imm : BitVec 13)  : OutSound (execCmpi p c a imm s) := by
  unfold execCmpi
  with_reducible repeat' first
    | intro _ | assumption | apply sound_next | apply sound_ite | apply out_ite | apply State.finish_sound | apply State.wrP_sound | split
    | dsimp only

theorem execAddi_sound {s : State} (h : Sound s) (d a : Reg) (imm : BitVec 16)  : OutSound (execAddi d a imm s) := by
  unfold execAddi
  with_reducible repeat' first
    | intro _ | assumption | apply sound_next | apply sound_ite | apply out_ite | apply State.una_sound | split | dsimp only

theorem execAndi_sound {s : State} (h : Sound s) (d a : Reg) (imm : BitVec 16)  : OutSound (execAndi d a imm s) := by
  unfold execAndi
  with_reducible repeat' first
    | intro _ | assumption | apply sound_next | apply sound_ite | apply out_ite | apply State.una_sound | split | dsimp only

theorem execOri_sound {s : State} (h : Sound s) (d a : Reg) (imm : BitVec 16)  : OutSound (execOri d a imm s) := by
  unfold execOri
  with_reducible repeat' first
    | intro _ | assumption | apply sound_next | apply sound_ite | apply out_ite | apply State.una_sound | split | dsimp only

theorem execXori_sound {s : State} (h : Sound s) (d a : Reg) (imm : BitVec 16)  : OutSound (execXori d a imm s) := by
  unfold execXori
  with_reducible repeat' first
    | intro _ | assumption | apply sound_next | apply sound_ite | apply out_ite | apply State.una_sound | split | dsimp only

theorem execShli_sound {s : State} (h : Sound s) (d a : Reg) (k : BitVec 6)  : OutSound (execShli d a k s) := by
  unfold execShli
  with_reducible repeat' first
    | intro _ | assumption | apply sound_next | apply sound_ite | apply out_ite | apply State.una_sound | split | dsimp only

theorem execShri_sound {s : State} (h : Sound s) (d a : Reg) (k : BitVec 6)  : OutSound (execShri d a k s) := by
  unfold execShri
  with_reducible repeat' first
    | intro _ | assumption | apply sound_next | apply sound_ite | apply out_ite | apply State.una_sound | split | dsimp only

theorem execSrai_sound {s : State} (h : Sound s) (d a : Reg) (k : BitVec 6)  : OutSound (execSrai d a k s) := by
  unfold execSrai
  with_reducible repeat' first
    | intro _ | assumption | apply sound_next | apply sound_ite | apply out_ite | apply State.una_sound | split | dsimp only

theorem execMovk_sound {s : State} (h : Sound s) (d : Reg) (k : BitVec 2) (imm : BitVec 16)  : OutSound (execMovk d k imm s) := by
  unfold execMovk
  with_reducible repeat' first
    | intro _ | assumption | apply sound_next | apply sound_ite | apply out_ite | apply State.una_sound | split | dsimp only

end Sys2Proof.Machine
end

