-- ==== Sys2Proof/Laws/SoundVector.lean ====
section
/-! SUPPORT. The invariant of `Safety` through the operations of `Machine/Vector`. -/
namespace Sys2Proof.Machine
open Sys2Proof.Safety

theorem State.vecSigned_sound {s : State} (h : Sound s) (t : LaneType) (g : PReg) (d a b : VReg) (f : Nat → Int → Int → Nat)  : Sound (s.vecSigned t g d a b f) := by
  unfold State.vecSigned
  with_reducible repeat' first
    | intro _ | assumption | apply sound_next | apply sound_ite | apply out_ite | apply State.vecInt_sound | split | dsimp only

theorem execVadd_sound {s : State} (h : Sound s) (lt : LaneType) (g : PReg) (d a b : VReg)  : OutSound (execVadd lt g d a b s) := by
  unfold execVadd
  with_reducible repeat' first
    | intro _ | assumption | apply sound_next | apply sound_ite | apply out_ite | apply State.vecInt_sound | split | dsimp only

theorem execVsub_sound {s : State} (h : Sound s) (lt : LaneType) (g : PReg) (d a b : VReg)  : OutSound (execVsub lt g d a b s) := by
  unfold execVsub
  with_reducible repeat' first
    | intro _ | assumption | apply sound_next | apply sound_ite | apply out_ite | apply State.vecInt_sound | split | dsimp only

theorem execVmul_sound {s : State} (h : Sound s) (lt : LaneType) (g : PReg) (d a b : VReg)  : OutSound (execVmul lt g d a b s) := by
  unfold execVmul
  with_reducible repeat' first
    | intro _ | assumption | apply sound_next | apply sound_ite | apply out_ite | apply State.vecInt_sound | split | dsimp only

theorem execVmin_sound {s : State} (h : Sound s) (lt : LaneType) (g : PReg) (d a b : VReg)  : OutSound (execVmin lt g d a b s) := by
  unfold execVmin
  with_reducible repeat' first
    | intro _ | assumption | apply sound_next | apply sound_ite | apply out_ite | apply State.vecSigned_sound | split | dsimp only

theorem execVmax_sound {s : State} (h : Sound s) (lt : LaneType) (g : PReg) (d a b : VReg)  : OutSound (execVmax lt g d a b s) := by
  unfold execVmax
  with_reducible repeat' first
    | intro _ | assumption | apply sound_next | apply sound_ite | apply out_ite | apply State.vecSigned_sound | split | dsimp only

theorem execVabs_sound {s : State} (h : Sound s) (lt : LaneType) (g : PReg) (d a : VReg)  : OutSound (execVabs lt g d a s) := by
  unfold execVabs
  with_reducible repeat' first
    | intro _ | assumption | apply sound_next | apply sound_ite | apply out_ite | apply State.vecSigned_sound | split | dsimp only

theorem execVadds_sound {s : State} (h : Sound s) (lt : LaneType) (g : PReg) (d a b : VReg)  : OutSound (execVadds lt g d a b s) := by
  unfold execVadds
  with_reducible repeat' first
    | intro _ | assumption | apply sound_next | apply sound_ite | apply out_ite | apply State.vecSigned_sound | split | dsimp only

theorem execVsubs_sound {s : State} (h : Sound s) (lt : LaneType) (g : PReg) (d a b : VReg)  : OutSound (execVsubs lt g d a b s) := by
  unfold execVsubs
  with_reducible repeat' first
    | intro _ | assumption | apply sound_next | apply sound_ite | apply out_ite | apply State.vecSigned_sound | split | dsimp only

theorem State.vecFpBin_sound {s : State} (h : Sound s) (t : LaneType) (g : PReg) (d a b : VReg) (f : FpFmt → Nat → Nat → Nat → Nat × FFlags)  : Sound (s.vecFpBin t g d a b f) := by
  unfold State.vecFpBin
  with_reducible repeat' first
    | intro _ | assumption | apply sound_next | apply sound_ite | apply out_ite | apply State.vecFp_sound | split | dsimp only

theorem State.vecFused_sound {s : State} (h : Sound s) (t : LaneType) (g : PReg) (d a b : VReg) (negAdd : Bool)  : Sound (s.vecFused t g d a b negAdd) := by
  unfold State.vecFused
  with_reducible repeat' first
    | intro _ | assumption | apply sound_next | apply sound_ite | apply out_ite | apply State.vecFp_sound | split | dsimp only

theorem execVfadd_sound {s : State} (h : Sound s) (lt : LaneType) (g : PReg) (d a b : VReg)  : OutSound (execVfadd lt g d a b s) := by
  unfold execVfadd
  with_reducible repeat' first
    | intro _ | assumption | apply sound_next | apply sound_ite | apply out_ite | apply State.vecFpBin_sound | split | dsimp only

theorem execVfsub_sound {s : State} (h : Sound s) (lt : LaneType) (g : PReg) (d a b : VReg)  : OutSound (execVfsub lt g d a b s) := by
  unfold execVfsub
  with_reducible repeat' first
    | intro _ | assumption | apply sound_next | apply sound_ite | apply out_ite | apply State.vecFpBin_sound | split | dsimp only

theorem execVfmul_sound {s : State} (h : Sound s) (lt : LaneType) (g : PReg) (d a b : VReg)  : OutSound (execVfmul lt g d a b s) := by
  unfold execVfmul
  with_reducible repeat' first
    | intro _ | assumption | apply sound_next | apply sound_ite | apply out_ite | apply State.vecFpBin_sound | split | dsimp only

theorem execVfdiv_sound {s : State} (h : Sound s) (lt : LaneType) (g : PReg) (d a b : VReg)  : OutSound (execVfdiv lt g d a b s) := by
  unfold execVfdiv
  with_reducible repeat' first
    | intro _ | assumption | apply sound_next | apply sound_ite | apply out_ite | apply State.vecFpBin_sound | split | dsimp only

theorem execVfmin_sound {s : State} (h : Sound s) (lt : LaneType) (g : PReg) (d a b : VReg)  : OutSound (execVfmin lt g d a b s) := by
  unfold execVfmin
  with_reducible repeat' first
    | intro _ | assumption | apply sound_next | apply sound_ite | apply out_ite | apply State.vecFpBin_sound | split | dsimp only

theorem execVfmax_sound {s : State} (h : Sound s) (lt : LaneType) (g : PReg) (d a b : VReg)  : OutSound (execVfmax lt g d a b s) := by
  unfold execVfmax
  with_reducible repeat' first
    | intro _ | assumption | apply sound_next | apply sound_ite | apply out_ite | apply State.vecFpBin_sound | split | dsimp only

theorem execVfma_sound {s : State} (h : Sound s) (lt : LaneType) (g : PReg) (d a b : VReg)  : OutSound (execVfma lt g d a b s) := by
  unfold execVfma
  with_reducible repeat' first
    | intro _ | assumption | apply sound_next | apply sound_ite | apply out_ite | apply State.vecFused_sound | split | dsimp only

theorem execVfms_sound {s : State} (h : Sound s) (lt : LaneType) (g : PReg) (d a b : VReg)  : OutSound (execVfms lt g d a b s) := by
  unfold execVfms
  with_reducible repeat' first
    | intro _ | assumption | apply sound_next | apply sound_ite | apply out_ite | apply State.vecFused_sound | split | dsimp only

theorem execVcmp_sound {s : State} (h : Sound s) (lt : LaneType) (g : PReg) (p : PReg) (all : Bool) (c : Cond) (a b : VReg)  : OutSound (execVcmp lt g p all c a b s) := by
  unfold execVcmp
  with_reducible repeat' first
    | intro _ | assumption | apply sound_next | apply sound_ite | apply out_ite | apply State.finish_sound | apply State.wrP_sound | split
    | dsimp only

theorem execVfcmp_sound {s : State} (h : Sound s) (lt : LaneType) (g : PReg) (p : PReg) (all : Bool) (c : FCond) (a b : VReg)  : OutSound (execVfcmp lt g p all c a b s) := by
  unfold execVfcmp
  with_reducible repeat' first
    | intro _ | assumption | apply sound_next | apply sound_ite | apply out_ite | apply State.count_sound | apply State.finish_sound
    | apply State.raiseFlags_sound | apply State.wrP_sound | apply sound_foldl | split | dsimp only

theorem execVand_sound {s : State} (h : Sound s) (g : PReg) (d a b : VReg)  : OutSound (execVand g d a b s) := by
  unfold execVand
  with_reducible repeat' first
    | intro _ | assumption | apply sound_next | apply sound_ite | apply out_ite | apply State.vecResult_sound | split | dsimp only

theorem execVor_sound {s : State} (h : Sound s) (g : PReg) (d a b : VReg)  : OutSound (execVor g d a b s) := by
  unfold execVor
  with_reducible repeat' first
    | intro _ | assumption | apply sound_next | apply sound_ite | apply out_ite | apply State.vecResult_sound | split | dsimp only

theorem execVxor_sound {s : State} (h : Sound s) (g : PReg) (d a b : VReg)  : OutSound (execVxor g d a b s) := by
  unfold execVxor
  with_reducible repeat' first
    | intro _ | assumption | apply sound_next | apply sound_ite | apply out_ite | apply State.vecResult_sound | split | dsimp only

theorem execVshl_sound {s : State} (h : Sound s) (lt : LaneType) (g : PReg) (d a b : VReg)  : OutSound (execVshl lt g d a b s) := by
  unfold execVshl
  with_reducible repeat' first
    | intro _ | assumption | apply sound_next | apply sound_ite | apply out_ite | apply State.vecInt_sound | split | dsimp only

theorem execVshr_sound {s : State} (h : Sound s) (lt : LaneType) (g : PReg) (d a b : VReg)  : OutSound (execVshr lt g d a b s) := by
  unfold execVshr
  with_reducible repeat' first
    | intro _ | assumption | apply sound_next | apply sound_ite | apply out_ite | apply State.vecInt_sound | split | dsimp only

theorem execVsra_sound {s : State} (h : Sound s) (lt : LaneType) (g : PReg) (d a b : VReg)  : OutSound (execVsra lt g d a b s) := by
  unfold execVsra
  with_reducible repeat' first
    | intro _ | assumption | apply sound_next | apply sound_ite | apply out_ite | apply State.vecInt_sound | split | dsimp only

theorem execVsel_sound {s : State} (h : Sound s) (g : PReg) (d a b : VReg)  : OutSound (execVsel g d a b s) := by
  unfold execVsel
  with_reducible repeat' first
    | intro _ | assumption | apply sound_next | apply sound_ite | apply out_ite | apply State.vecResult_sound | split | dsimp only

theorem execVbcast_sound {s : State} (h : Sound s) (lt : LaneType) (g : PReg) (d a : VReg) (l : BitVec 6)  : OutSound (execVbcast lt g d a l s) := by
  unfold execVbcast
  with_reducible repeat' first
    | intro _ | assumption | apply sound_next | apply sound_ite | apply out_ite | apply State.vecResult_sound | split | dsimp only

theorem execVperm_sound {s : State} (h : Sound s) (lt : LaneType) (g : PReg) (d a b : VReg)  : OutSound (execVperm lt g d a b s) := by
  unfold execVperm
  with_reducible repeat' first
    | intro _ | assumption | apply sound_next | apply sound_ite | apply out_ite | apply State.vecResult_sound | split | dsimp only

theorem execVshuf_sound {s : State} (h : Sound s) (lt : LaneType) (g : PReg) (d a b : VReg) (k : ShufKind)  : OutSound (execVshuf lt g d a b k s) := by
  unfold execVshuf
  with_reducible repeat' first
    | intro _ | assumption | apply sound_next | apply sound_ite | apply out_ite | apply State.vecResult_sound | split | dsimp only

theorem execVslide_sound {s : State} (h : Sound s) (lt : LaneType) (g : PReg) (d a b : VReg) (k : BitVec 6)  : OutSound (execVslide lt g d a b k s) := by
  unfold execVslide
  with_reducible repeat' first
    | intro _ | assumption | apply sound_next | apply sound_ite | apply out_ite | apply State.vecResult_sound | split | dsimp only

theorem execVred_sound {s : State} (h : Sound s) (lt : LaneType) (g : PReg) (d a : VReg) (op : RedOp)  : OutSound (execVred lt g d a op s) := by
  unfold execVred
  with_reducible repeat' first
    | intro _ | assumption | apply sound_next | apply sound_ite | apply out_ite | apply State.count_sound | apply State.finish_sound
    | apply State.raiseFlags_sound | apply State.wrV_sound | split | dsimp only

theorem execVcvt_sound {s : State} (h : Sound s) (src dst : LaneType) (g : PReg) (d a : VReg) (part : BitVec 2)  : OutSound (execVcvt src dst g d a part s) := by
  unfold execVcvt
  with_reducible repeat' first
    | intro _ | assumption | apply sound_next | apply sound_ite | apply out_ite | apply State.count_sound | apply State.finish_sound
    | apply State.raiseFlags_sound | apply State.wrV_sound | split | dsimp only

theorem execVlog2_sound {s : State} (h : Sound s) (g : PReg) (d a : VReg)  : OutSound (execVlog2 g d a s) := by
  unfold execVlog2
  with_reducible repeat' first
    | intro _ | assumption | apply sound_next | apply sound_ite | apply out_ite | apply State.vecFp_sound | split | dsimp only

theorem execVexp2_sound {s : State} (h : Sound s) (g : PReg) (d a : VReg)  : OutSound (execVexp2 g d a s) := by
  unfold execVexp2
  with_reducible repeat' first
    | intro _ | assumption | apply sound_next | apply sound_ite | apply out_ite | apply State.vecFp_sound | split | dsimp only

theorem execVmovs_sound {s : State} (h : Sound s) (lt : LaneType) (g : PReg) (d : VReg) (r : Reg)  : OutSound (execVmovs lt g d r s) := by
  unfold execVmovs
  with_reducible repeat' first
    | intro _ | assumption | apply sound_next | apply sound_ite | apply out_ite | apply State.vecResult_sound | split | dsimp only

theorem execVins_sound {s : State} (h : Sound s) (lt : LaneType) (g : PReg) (d : VReg) (r : Reg) (l : BitVec 6)  : OutSound (execVins lt g d r l s) := by
  unfold execVins
  with_reducible repeat' first
    | intro _ | assumption | apply sound_next | apply sound_ite | apply out_ite | apply State.vecResult_sound | split | dsimp only

theorem execVext_sound {s : State} (h : Sound s) (lt : LaneType) (g : PReg) (r : Reg) (d : VReg) (l : BitVec 6)  : OutSound (execVext lt g r d l s) := by
  unfold execVext
  with_reducible repeat' first
    | intro _ | assumption | apply sound_next | apply sound_ite | apply out_ite | apply State.finish_sound | apply State.wr_sound | split
    | dsimp only

theorem execVmovp_sound {s : State} (h : Sound s) (g : PReg) (d a : VReg)  : OutSound (execVmovp g d a s) := by
  unfold execVmovp
  with_reducible repeat' first
    | intro _ | assumption | apply sound_next | apply sound_ite | apply out_ite | apply State.vecResult_sound | split | dsimp only

end Sys2Proof.Machine
end

