-- ==== Sys2Proof/Laws/SoundDispatch.lean ====
section
/-! SUPPORT. The invariant of `Safety` through the operations of `Machine/Dispatch`. -/
namespace Sys2Proof.Machine
open Sys2Proof.Safety

theorem exec_sound {s : State} (h : Sound s) (i : Instr) : OutSound (exec i s) := by
  cases i with
  | ill => exact execIll_sound h
  | reservedEncoding w => exact execReservedEncoding_sound h w
  | add d a b => exact execAdd_sound h d a b
  | sub d a b => exact execSub_sound h d a b
  | and d a b => exact execAnd_sound h d a b
  | or d a b => exact execOr_sound h d a b
  | xor d a b => exact execXor_sound h d a b
  | andn d a b => exact execAndn_sound h d a b
  | min d a b => exact execMin_sound h d a b
  | max d a b => exact execMax_sound h d a b
  | minu d a b => exact execMinu_sound h d a b
  | maxu d a b => exact execMaxu_sound h d a b
  | shl d a b => exact execShl_sound h d a b
  | shr d a b => exact execShr_sound h d a b
  | sra d a b => exact execSra_sound h d a b
  | rol d a b => exact execRol_sound h d a b
  | ror d a b => exact execRor_sound h d a b
  | mul d a b => exact execMul_sound h d a b
  | mulh d a b => exact execMulh_sound h d a b
  | mulhu d a b => exact execMulhu_sound h d a b
  | div d a b => exact execDiv_sound h d a b
  | divu d a b => exact execDivu_sound h d a b
  | rem d a b => exact execRem_sound h d a b
  | remu d a b => exact execRemu_sound h d a b
  | clz d a => exact execClz_sound h d a
  | ctz d a => exact execCtz_sound h d a
  | popc d a => exact execPopc_sound h d a
  | bext d a b => exact execBext_sound h d a b
  | bins d a b => exact execBins_sound h d a b
  | sxtB d a => exact execSxtB_sound h d a
  | sxtH d a => exact execSxtH_sound h d a
  | sxtW d a => exact execSxtW_sound h d a
  | cmp p c a b => exact execCmp_sound h p c a b
  | addi d a imm => exact execAddi_sound h d a imm
  | andi d a imm => exact execAndi_sound h d a imm
  | ori d a imm => exact execOri_sound h d a imm
  | xori d a imm => exact execXori_sound h d a imm
  | shli d a k => exact execShli_sound h d a k
  | shri d a k => exact execShri_sound h d a k
  | srai d a k => exact execSrai_sound h d a k
  | cmpi p c a imm => exact execCmpi_sound h p c a imm
  | movk d k imm => exact execMovk_sound h d k imm
  | fadd d a b => exact execFadd_sound h d a b
  | fsub d a b => exact execFsub_sound h d a b
  | fmul d a b => exact execFmul_sound h d a b
  | fdiv d a b => exact execFdiv_sound h d a b
  | fsqrt d a => exact execFsqrt_sound h d a
  | fmin d a b => exact execFmin_sound h d a b
  | fmax d a b => exact execFmax_sound h d a b
  | fma d a b => exact execFma_sound h d a b
  | fms d a b => exact execFms_sound h d a b
  | fnma d a b => exact execFnma_sound h d a b
  | fcmp p c a b => exact execFcmp_sound h p c a b
  | fclass d a => exact execFclass_sound h d a
  | fcvt d a dst src => exact execFcvt_sound h d a dst src
  | bra neg p off => exact execBra_sound h neg p off
  | call l off => exact execCall_sound h l off
  | loop c off => exact execLoop_sound h c off
  | jmpr a => exact execJmpr_sound h a
  | callr d a => exact execCallr_sound h d a
  | pand d a b => exact execPand_sound h d a b
  | por d a b => exact execPor_sound h d a b
  | pxor d a b => exact execPxor_sound h d a b
  | pnot d a => exact execPnot_sound h d a
  | pmovFromScalar d a => exact execPmovFromScalar_sound h d a
  | pmovToScalar d a => exact execPmovToScalar_sound h d a
  | vadd lt g d a b => exact execVadd_sound h lt g d a b
  | vsub lt g d a b => exact execVsub_sound h lt g d a b
  | vmul lt g d a b => exact execVmul_sound h lt g d a b
  | vmin lt g d a b => exact execVmin_sound h lt g d a b
  | vmax lt g d a b => exact execVmax_sound h lt g d a b
  | vabs lt g d a => exact execVabs_sound h lt g d a
  | vadds lt g d a b => exact execVadds_sound h lt g d a b
  | vsubs lt g d a b => exact execVsubs_sound h lt g d a b
  | vfadd lt g d a b => exact execVfadd_sound h lt g d a b
  | vfsub lt g d a b => exact execVfsub_sound h lt g d a b
  | vfmul lt g d a b => exact execVfmul_sound h lt g d a b
  | vfdiv lt g d a b => exact execVfdiv_sound h lt g d a b
  | vfmin lt g d a b => exact execVfmin_sound h lt g d a b
  | vfmax lt g d a b => exact execVfmax_sound h lt g d a b
  | vfma lt g d a b => exact execVfma_sound h lt g d a b
  | vfms lt g d a b => exact execVfms_sound h lt g d a b
  | vcmp lt g p all c a b => exact execVcmp_sound h lt g p all c a b
  | vfcmp lt g p all c a b => exact execVfcmp_sound h lt g p all c a b
  | vand g d a b => exact execVand_sound h g d a b
  | vor g d a b => exact execVor_sound h g d a b
  | vxor g d a b => exact execVxor_sound h g d a b
  | vshl lt g d a b => exact execVshl_sound h lt g d a b
  | vshr lt g d a b => exact execVshr_sound h lt g d a b
  | vsra lt g d a b => exact execVsra_sound h lt g d a b
  | vsel g d a b => exact execVsel_sound h g d a b
  | vbcast lt g d a l => exact execVbcast_sound h lt g d a l
  | vperm lt g d a b => exact execVperm_sound h lt g d a b
  | vshuf lt g d a b k => exact execVshuf_sound h lt g d a b k
  | vslide lt g d a b k => exact execVslide_sound h lt g d a b k
  | vred lt g d a op => exact execVred_sound h lt g d a op
  | vcvt src dst g d a part => exact execVcvt_sound h src dst g d a part
  | vlog2 g d a => exact execVlog2_sound h g d a
  | vexp2 g d a => exact execVexp2_sound h g d a
  | vmovs lt g d sc => exact execVmovs_sound h lt g d sc
  | vins lt g d sc l => exact execVins_sound h lt g d sc l
  | vext lt g sc d l => exact execVext_sound h lt g sc d l
  | vmovp g d a => exact execVmovp_sound h g d a
  | tld t a b => exact execTld_sound h t a b
  | tst t a b => exact execTst_sound h t a b
  | tvget d t b => exact execTvget_sound h d t b
  | tvset t a b => exact execTvset_sound h t a b
  | mwld f pl a sc tag => exact execMwld_sound h f pl a sc tag
  | mwlt f pl t sc tag => exact execMwlt_sound h f pl t sc tag
  | mgo f acc t pl tag add mask r => exact execMgo_sound h f acc t pl tag add mask r
  | moutTile f t acc emp => exact execMoutTile_sound h f t acc emp
  | moutMemory f d acc r emp => exact execMoutMemory_sound h f d acc r emp
  | mgos f acc c m pl tag add => exact execMgos_sound h f acc c m pl tag add
  | mmask t => exact execMmask_sound h t
  | mhold => exact execMhold_sound h
  | myield => exact execMyield_sound h
  | mclr acc => exact execMclr_sound h acc
  | crrd d n => exact execCrrd_sound h d n
  | crwr a n => exact execCrwr_sound h a n
  | crset a n => exact execCrset_sound h a n
  | crclr a n => exact execCrclr_sound h a n
  | trap imm => exact execTrap_sound h imm
  | bkpt imm => exact execBkpt_sound h imm
  | tqpop d nw => exact execTqpop_sound h d nw
  | tresume d a act => exact execTresume_sound h d a act
  | ld z d b off => exact execLd_sound h z d b off
  | ldAcq z sc d b off => exact execLdAcq_sound h z sc d b off
  | lds z d b off => exact execLds_sound h z d b off
  | ldu z d b off => exact execLdu_sound h z d b off
  | lduAcq z sc d b off => exact execLduAcq_sound h z sc d b off
  | st z d b off => exact execSt_sound h z d b off
  | stRel z sc d b off => exact execStRel_sound h z sc d b off
  | stf z d b off => exact execStf_sound h z d b off
  | ldse z d b off => exact execLdse_sound h z d b off
  | amoadd z o d a b => exact execAmoadd_sound h z o d a b
  | amoand z o d a b => exact execAmoand_sound h z o d a b
  | amoor z o d a b => exact execAmoor_sound h z o d a b
  | amoxor z o d a b => exact execAmoxor_sound h z o d a b
  | amomin z o d a b => exact execAmomin_sound h z o d a b
  | amomax z o d a b => exact execAmomax_sound h z o d a b
  | amominu z o d a b => exact execAmominu_sound h z o d a b
  | amomaxu z o d a b => exact execAmomaxu_sound h z o d a b
  | amoswap z o d a b => exact execAmoswap_sound h z o d a b
  | amocas z o d a b => exact execAmocas_sound h z o d a b
  | fence sc => exact execFence_sound h sc
  | feset a n => exact execFeset_sound h a n
  | feclr a n => exact execFeclr_sound h a n
  | vamo op lt d a => exact execVamo_sound h op lt d a
  | csend c k aux sc => exact execCsend_sound h c k aux sc
  | crecv d e c => exact execCrecv_sound h d e c
  | cpoll d c => exact execCpoll_sound h d c
  | invoke d k b m => exact execInvoke_sound h d k b m
  | xbind o a n => exact execXbind_sound h o a n
  | xsend o a d => exact execXsend_sound h o a d
  | xrecv d i0 => exact execXrecv_sound h d i0
  | xfree i0 => exact execXfree_sound h i0
  | xflush o => exact execXflush_sound h o
  | xfold o a => exact execXfold_sound h o a
  | xstat d inb c => exact execXstat_sound h d inb c
  | cpy a => exact execCpy_sound h a
  | lswap a => exact execLswap_sound h a
  | engstat d swap => exact execEngstat_sound h d swap
  | spawn d a => exact execSpawn_sound h d a
  | exit => exact execExit_sound h
  | yield n => exact execYield_sound h n
  | dpush d a => exact execDpush_sound h d a
  | dkey d a => exact execDkey_sound h d a
  | ddel d a => exact execDdel_sound h d a
  | dpop d a => exact execDpop_sound h d a
  | dealerOperation t op => exact execDealerOperation_sound h t op
  | rgset d t a => exact execRgset_sound h d t a
  | rgget d t => exact execRgget_sound h d t
  | rgprobe d a => exact execRgprobe_sound h d a
  | rgsplit d i0 j a => exact execRgsplit_sound h d i0 j a
  | rgmerge d i0 j => exact execRgmerge_sound h d i0 j
  | rgres sc d a => exact execRgres_sound h sc d a
  | rginv sc nw d a => exact execRginv_sound h sc nw d a
  | rgsync => exact execRgsync_sound h
  | rgcpt a => exact execRgcpt_sound h a
  | ginstall d a k => exact execGinstall_sound h d a k
  | garg d a j => exact execGarg_sound h d a j
  | gdrain d a => exact execGdrain_sound h d a
  | greconf d a => exact execGreconf_sound h d a
  | barj d n => exact execBarj_sound h d n
  | barw a n => exact execBarw_sound h a n
  | cntinc n a => exact execCntinc_sound h n a
  | cntwait n a => exact execCntwait_sound h n a
  | rngdraw d a => exact execRngdraw_sound h d a
  | snoise v a => exact execSnoise_sound h v a
  | smaxk d v a new => exact execSmaxk_sound h d v a new
  | accept d a => exact execAccept_sound h d a
  | kvcommit d a => exact execKvcommit_sound h d a
  | genabort a => exact execGenabort_sound h a
  | sequenceTableOperation t op => exact execSequenceTableOperation_sound h t op
  | gate a opn => exact execGate_sound h a opn
  | qwait d a => exact execQwait_sound h d a
  | ctxsave d a => exact execCtxsave_sound h d a
  | ctxload d a => exact execCtxload_sound h d a
  | parkWake t => exact execParkWake_sound h t
  | memReply t r => exact execMemReply_sound h t r
  | ownerAccess seq => exact execOwnerAccess_sound h seq
  | feWaitService seq => exact execFeWaitService_sound h seq
  | feWaitResend t => exact execFeWaitResend_sound h t
  | eccWriteback ga => exact execEccWriteback_sound h ga
  | gangCompare c => exact execGangCompare_sound h c
  | gangStart c id => exact execGangStart_sound h c id
  | gangComplete c id => exact execGangComplete_sound h c id
  | gangAbort c id => exact execGangAbort_sound h c id
  | arrayWatchdog c => exact execArrayWatchdog_sound h c
  | waitWatchdog t => exact execWaitWatchdog_sound h t
  | deadlock c => exact execDeadlock_sound h c
  | quiescenceReport t => exact execQuiescenceReport_sound h t
  | qwaitLimit t => exact execQwaitLimit_sound h t
  | retentionEnter c g => exact execRetentionEnter_sound h c g
  | retentionEnterDone c g => exact execRetentionEnterDone_sound h c g
  | retentionExitDone c g => exact execRetentionExitDone_sound h c g
  | patrolClaim g => exact execPatrolClaim_sound h g
  | patrolChunkDone fails => exact execPatrolChunkDone_sound h fails
  | patrolRelease => exact execPatrolRelease_sound h
  | channelTokenDepart t c => exact execChannelTokenDepart_sound h t c
  | channelTokenArrive t c inv tok => exact execChannelTokenArrive_sound h t c inv tok
  | invokeRequest k r => exact execInvokeRequest_sound h k r
  | invokeAnswer t r => exact execInvokeAnswer_sound h t r
  | invocationStart k => exact execInvocationStart_sound h k
  | activeNotice t inv => exact execActiveNotice_sound h t inv
  | invocationEnd k => exact execInvocationEnd_sound h k
  | nodeFaultReport k => exact execNodeFaultReport_sound h k
  | islandFaultTrap t inv i0 => exact execIslandFaultTrap_sound h t inv i0
  | scan k n => exact execScan_sound h k n
  | scanl k n => exact execScanl_sound h k n
  | intersect k n => exact execIntersect_sound h k n
  | union k n => exact execUnion_sound h k n
  | repeatNode k n => exact execRepeatNode_sound h k n
  | reduce k n => exact execReduce_sound h k n
  | aluAdd k n => exact execAluAdd_sound h k n
  | aluSub k n => exact execAluSub_sound h k n
  | aluMul k n => exact execAluMul_sound h k n
  | aluDiv k n => exact execAluDiv_sound h k n
  | aluMin k n => exact execAluMin_sound h k n
  | aluMax k n => exact execAluMax_sound h k n
  | aluAnd k n => exact execAluAnd_sound h k n
  | aluOr k n => exact execAluOr_sound h k n
  | aluXor k n => exact execAluXor_sound h k n
  | aluShl k n => exact execAluShl_sound h k n
  | aluShr k n => exact execAluShr_sound h k n
  | aluAbs k n => exact execAluAbs_sound h k n
  | aluNeg k n => exact execAluNeg_sound h k n
  | aluPass k n => exact execAluPass_sound h k n
  | aluCmp k n => exact execAluCmp_sound h k n
  | aluFma k n => exact execAluFma_sound h k n
  | cvt k n => exact execCvt_sound h k n
  | sd2b k n => exact execSd2b_sound h k n
  | b2sd k n => exact execB2sd_sound h k n
  | wconv k n => exact execWconv_sound h k n
  | steer k n => exact execSteer_sound h k n
  | merge k n => exact execMerge_sound h k n
  | carry k n => exact execCarry_sound h k n
  | invariant k n => exact execInvariant_sound h k n
  | select k n => exact execSelect_sound h k n
  | pmenter k n => exact execPmenter_sound h k n
  | pmexit k n => exact execPmexit_sound h k n
  | mbar k n => exact execMbar_sound h k n
  | arg k n => exact execArg_sound h k n
  | sink k n => exact execSink_sound h k n
  | mtload k n => exact execMtload_sound h k n
  | mtstore k n => exact execMtstore_sound h k n
  | mtrmw k n => exact execMtrmw_sound h k n
  | array k n => exact execArray_sound h k n
  | portin k n => exact execPortin_sound h k n
  | portout k n => exact execPortout_sound h k n
  | reconfiguration k b => exact execReconfiguration_sound h k b
  | reconfigurationDone k b => exact execReconfigurationDone_sound h k b
  | islandInstall k r => exact execIslandInstall_sound h k r
  | islandInstallDone k b => exact execIslandInstallDone_sound h k b
  | islandCommand k c => exact execIslandCommand_sound h k c
  | configError k b n => exact execConfigError_sound h k b n
  | configReloadDone k b => exact execConfigReloadDone_sound h k b
  | transitPacket p => exact execTransitPacket_sound h p
  | transitCredit c o b n answer ret => exact execTransitCredit_sound h c o b n answer ret
  | transitFoldApply c i0 tag emit => exact execTransitFoldApply_sound h c i0 tag emit
  | transitFlushApply c i0 emit => exact execTransitFlushApply_sound h c i0 emit
  | copyTransfer c => exact execCopyTransfer_sound h c
  | copyComplete c q => exact execCopyComplete_sound h c q
  | swapHold id => exact execSwapHold_sound h id
  | swapHoldArrive id c => exact execSwapHoldArrive_sound h id c
  | swapHoldAck id c => exact execSwapHoldAck_sound h id c
  | swapRun id => exact execSwapRun_sound h id
  | swapBurst id => exact execSwapBurst_sound h id
  | swapDone id => exact execSwapDone_sound h id
  | swapLiftArrive id c => exact execSwapLiftArrive_sound h id c
  | residencyFetchComplete id => exact execResidencyFetchComplete_sound h id
  | residencyFetchFail id => exact execResidencyFetchFail_sound h id
  | rangeDropArrive id tbl => exact execRangeDropArrive_sound h id tbl
  | rangeDropAck id tbl => exact execRangeDropAck_sound h id tbl
  | rangeEntryInvalid tbl i0 => exact execRangeEntryInvalid_sound h tbl i0
  | rgresUpdateArrive id tbl => exact execRgresUpdateArrive_sound h id tbl
  | compactorTake => exact execCompactorTake_sound h
  | compactorDrainDone => exact execCompactorDrainDone_sound h
  | compactorMoveDone => exact execCompactorMoveDone_sound h
  | gateArrive t u opn => exact execGateArrive_sound h t u opn
  | gateAck t => exact execGateAck_sound h t
  | launchTakeEntry => exact execLaunchTakeEntry_sound h
  | launchInstallDone => exact execLaunchInstallDone_sound h
  | freeze cols isls => exact execFreeze_sound h cols isls
  | stopTheColumn cols isls => exact execStopTheColumn_sound h cols isls
  | release cols isls => exact execRelease_sound h cols isls
  | step cols core => exact execStep_sound h cols core
  | partitionGate p => exact execPartitionGate_sound h p
  | stepEnd c => exact execStepEnd_sound h c
  | freezePinAssert => exact execFreezePinAssert_sound h
  | freezePinRelease => exact execFreezePinRelease_sound h
  | debugHalt t => exact execDebugHalt_sound h t
  | debugResume t => exact execDebugResume_sound h t
  | debugWrite off v => exact execDebugWrite_sound h off v
  | registerWrite off size v => exact execRegisterWrite_sound h off size v
  | pointerDropRead off size => exact execPointerDropRead_sound h off size
  | ringBaseWrite err v => exact execRingBaseWrite_sound h err v
  | intstatWrite en v => exact execIntstatWrite_sound h en v
  | rcctlWrite v => exact execRcctlWrite_sound h v
  | hostBar2Read off n => exact execHostBar2Read_sound h off n
  | hostBar2Write off data => exact execHostBar2Write_sound h off data
  | hostUnsupportedRequest isRead => exact execHostUnsupportedRequest_sound h isRead
  | hostWindowTimeout seq => exact execHostWindowTimeout_sound h seq
  | hostWindowStoreFail seq => exact execHostWindowStoreFail_sound h seq
  | chainPacket src dst seq op => exact execChainPacket_sound h src dst seq op
  | chainLinkDown west => exact execChainLinkDown_sound h west
  | timeSyncSend => exact execTimeSyncSend_sound h
  | timeSyncReceive v => exact execTimeSyncReceive_sound h v
  | setret c mask => exact execSetret_sound h c mask
  | patrol en => exact execPatrol_sound h en
  | repair c bank row => exact execRepair_sound h c bank row
  | scanmap off n => exact execScanmap_sound h off n
  | powercap watts => exact execPowercap_sound h watts
  | chainnum pkg count => exact execChainnum_sound h pkg count
  | reset => exact execReset_sound h
  | replay on => exact execReplay_sound h on
  | attest nonce => exact execAttest_sound h nonce
  | extend i0 digest => exact execExtend_sound h i0 digest
  | firmwareUpdate image => exact execFirmwareUpdate_sound h image
  | platformMonitoring sensor => exact execPlatformMonitoring_sound h sensor
  | pldmBase cmd => exact execPldmBase_sound h cmd
  | conventionalReset => exact execConventionalReset_sound h
  | hotReset => exact execHotReset_sound h
  | functionLevelReset => exact execFunctionLevelReset_sound h
  | bootStage err => exact execBootStage_sound h err
  | powerWindow watts => exact execPowerWindow_sound h watts
  | clockStepChange mhz => exact execClockStepChange_sound h mhz
  | coolingLoopLost top sensor temp => exact execCoolingLoopLost_sound h top sensor temp
  | coolingLoopRestored top sensor temp => exact execCoolingLoopRestored_sound h top sensor temp
  | junctionHot sensor temp => exact execJunctionHot_sound h sensor temp
  | replayApply => exact execReplayApply_sound h
  | transitSenderPacket c => exact execTransitSenderPacket_sound h c
  | arrayRequestComplete k n id => exact execArrayRequestComplete_sound h k n id
  | newClockRuns => exact execNewClockRuns_sound h
  | ucieLinkRetrain west width => exact execUcieLinkRetrain_sound h west width
  | deviceControl2Write v => exact execDeviceControl2Write_sound h v

end Sys2Proof.Machine
end

