-- ==== Sys2Proof/Laws/SoundRunEvent.lean ====
section
/-! SUPPORT. The invariant of `Safety` through the operations of `Machine/RunEvent`. -/
namespace Sys2Proof.Machine
open Sys2Proof.Safety

theorem runEvent_sound {s : State} (h : Sound s) (e : Event) : OutSound (runEvent e s) := by
  cases e with
  | dealerOperation t op => exact execDealerOperation_sound h t op
  | sequenceTableOperation t op => exact execSequenceTableOperation_sound h t op
  | parkWake t => exact execParkWake_sound h t
  | memReply t r => exact execMemReply_sound h t r
  | ownerAccess seq => exact execOwnerAccess_sound h seq
  | feWaitService seq => exact execFeWaitService_sound h seq
  | feWaitResend t => exact execFeWaitResend_sound h t
  | eccWriteback ga => exact execEccWriteback_sound h ga
  | gangCompare c => exact execGangCompare_sound h c
  | gangStart c id => exact execGangStart_sound h c id
  | gangComplete c id => exact execGangComplete_sound h c id
  | gangAbort c id => exact execGangAbort_sound h c id
  | arrayWatchdog c => exact execArrayWatchdog_sound h c
  | waitWatchdog t => exact execWaitWatchdog_sound h t
  | deadlock c => exact execDeadlock_sound h c
  | quiescenceReport t => exact execQuiescenceReport_sound h t
  | qwaitLimit t => exact execQwaitLimit_sound h t
  | retentionEnter c g => exact execRetentionEnter_sound h c g
  | retentionEnterDone c g => exact execRetentionEnterDone_sound h c g
  | retentionExitDone c g => exact execRetentionExitDone_sound h c g
  | patrolClaim g => exact execPatrolClaim_sound h g
  | patrolChunkDone fails => exact execPatrolChunkDone_sound h fails
  | patrolRelease => exact execPatrolRelease_sound h
  | channelTokenDepart t c => exact execChannelTokenDepart_sound h t c
  | channelTokenArrive t c inv tok => exact execChannelTokenArrive_sound h t c inv tok
  | invokeRequest k r => exact execInvokeRequest_sound h k r
  | invokeAnswer t r => exact execInvokeAnswer_sound h t r
  | invocationStart k => exact execInvocationStart_sound h k
  | activeNotice t inv => exact execActiveNotice_sound h t inv
  | invocationEnd k => exact execInvocationEnd_sound h k
  | nodeFaultReport k => exact execNodeFaultReport_sound h k
  | islandFaultTrap t inv i0 => exact execIslandFaultTrap_sound h t inv i0
  | scan k n => exact execScan_sound h k n
  | scanl k n => exact execScanl_sound h k n
  | intersect k n => exact execIntersect_sound h k n
  | union k n => exact execUnion_sound h k n
  | repeatNode k n => exact execRepeatNode_sound h k n
  | reduce k n => exact execReduce_sound h k n
  | aluAdd k n => exact execAluAdd_sound h k n
  | aluSub k n => exact execAluSub_sound h k n
  | aluMul k n => exact execAluMul_sound h k n
  | aluDiv k n => exact execAluDiv_sound h k n
  | aluMin k n => exact execAluMin_sound h k n
  | aluMax k n => exact execAluMax_sound h k n
  | aluAnd k n => exact execAluAnd_sound h k n
  | aluOr k n => exact execAluOr_sound h k n
  | aluXor k n => exact execAluXor_sound h k n
  | aluShl k n => exact execAluShl_sound h k n
  | aluShr k n => exact execAluShr_sound h k n
  | aluAbs k n => exact execAluAbs_sound h k n
  | aluNeg k n => exact execAluNeg_sound h k n
  | aluPass k n => exact execAluPass_sound h k n
  | aluCmp k n => exact execAluCmp_sound h k n
  | aluFma k n => exact execAluFma_sound h k n
  | cvt k n => exact execCvt_sound h k n
  | sd2b k n => exact execSd2b_sound h k n
  | b2sd k n => exact execB2sd_sound h k n
  | wconv k n => exact execWconv_sound h k n
  | steer k n => exact execSteer_sound h k n
  | merge k n => exact execMerge_sound h k n
  | carry k n => exact execCarry_sound h k n
  | invariant k n => exact execInvariant_sound h k n
  | select k n => exact execSelect_sound h k n
  | pmenter k n => exact execPmenter_sound h k n
  | pmexit k n => exact execPmexit_sound h k n
  | mbar k n => exact execMbar_sound h k n
  | arg k n => exact execArg_sound h k n
  | sink k n => exact execSink_sound h k n
  | mtload k n => exact execMtload_sound h k n
  | mtstore k n => exact execMtstore_sound h k n
  | mtrmw k n => exact execMtrmw_sound h k n
  | array k n => exact execArray_sound h k n
  | portin k n => exact execPortin_sound h k n
  | portout k n => exact execPortout_sound h k n
  | reconfiguration k b => exact execReconfiguration_sound h k b
  | reconfigurationDone k b => exact execReconfigurationDone_sound h k b
  | islandInstall k r => exact execIslandInstall_sound h k r
  | islandInstallDone k b => exact execIslandInstallDone_sound h k b
  | islandCommand k c => exact execIslandCommand_sound h k c
  | configError k b n => exact execConfigError_sound h k b n
  | configReloadDone k b => exact execConfigReloadDone_sound h k b
  | transitPacket p => exact execTransitPacket_sound h p
  | transitCredit c o b n answer ret => exact execTransitCredit_sound h c o b n answer ret
  | transitFoldApply c i0 tag emit => exact execTransitFoldApply_sound h c i0 tag emit
  | transitFlushApply c i0 emit => exact execTransitFlushApply_sound h c i0 emit
  | copyTransfer c => exact execCopyTransfer_sound h c
  | copyComplete c q => exact execCopyComplete_sound h c q
  | swapHold id => exact execSwapHold_sound h id
  | swapHoldArrive id c => exact execSwapHoldArrive_sound h id c
  | swapHoldAck id c => exact execSwapHoldAck_sound h id c
  | swapRun id => exact execSwapRun_sound h id
  | swapBurst id => exact execSwapBurst_sound h id
  | swapDone id => exact execSwapDone_sound h id
  | swapLiftArrive id c => exact execSwapLiftArrive_sound h id c
  | residencyFetchComplete id => exact execResidencyFetchComplete_sound h id
  | residencyFetchFail id => exact execResidencyFetchFail_sound h id
  | rangeDropArrive id tbl => exact execRangeDropArrive_sound h id tbl
  | rangeDropAck id tbl => exact execRangeDropAck_sound h id tbl
  | rangeEntryInvalid tbl i0 => exact execRangeEntryInvalid_sound h tbl i0
  | rgresUpdateArrive id tbl => exact execRgresUpdateArrive_sound h id tbl
  | compactorTake => exact execCompactorTake_sound h
  | compactorDrainDone => exact execCompactorDrainDone_sound h
  | compactorMoveDone => exact execCompactorMoveDone_sound h
  | gateArrive t u opn => exact execGateArrive_sound h t u opn
  | gateAck t => exact execGateAck_sound h t
  | launchTakeEntry => exact execLaunchTakeEntry_sound h
  | launchInstallDone => exact execLaunchInstallDone_sound h
  | freeze cols isls => exact execFreeze_sound h cols isls
  | stopTheColumn cols isls => exact execStopTheColumn_sound h cols isls
  | release cols isls => exact execRelease_sound h cols isls
  | step cols core => exact execStep_sound h cols core
  | partitionGate p => exact execPartitionGate_sound h p
  | stepEnd c => exact execStepEnd_sound h c
  | freezePinAssert => exact execFreezePinAssert_sound h
  | freezePinRelease => exact execFreezePinRelease_sound h
  | debugHalt t => exact execDebugHalt_sound h t
  | debugResume t => exact execDebugResume_sound h t
  | debugWrite off v => exact execDebugWrite_sound h off v
  | registerWrite off size v => exact execRegisterWrite_sound h off size v
  | pointerDropRead off size => exact execPointerDropRead_sound h off size
  | ringBaseWrite err v => exact execRingBaseWrite_sound h err v
  | intstatWrite en v => exact execIntstatWrite_sound h en v
  | rcctlWrite v => exact execRcctlWrite_sound h v
  | hostBar2Read off n => exact execHostBar2Read_sound h off n
  | hostBar2Write off data => exact execHostBar2Write_sound h off data
  | hostUnsupportedRequest isRead => exact execHostUnsupportedRequest_sound h isRead
  | hostWindowTimeout seq => exact execHostWindowTimeout_sound h seq
  | hostWindowStoreFail seq => exact execHostWindowStoreFail_sound h seq
  | chainPacket src dst seq op => exact execChainPacket_sound h src dst seq op
  | chainLinkDown west => exact execChainLinkDown_sound h west
  | timeSyncSend => exact execTimeSyncSend_sound h
  | timeSyncReceive v => exact execTimeSyncReceive_sound h v
  | setret c mask => exact execSetret_sound h c mask
  | patrol en => exact execPatrol_sound h en
  | repair c bank row => exact execRepair_sound h c bank row
  | scanmap off n => exact execScanmap_sound h off n
  | powercap watts => exact execPowercap_sound h watts
  | chainnum pkg count => exact execChainnum_sound h pkg count
  | reset => exact execReset_sound h
  | replay on => exact execReplay_sound h on
  | attest nonce => exact execAttest_sound h nonce
  | extend i0 digest => exact execExtend_sound h i0 digest
  | firmwareUpdate image => exact execFirmwareUpdate_sound h image
  | platformMonitoring sensor => exact execPlatformMonitoring_sound h sensor
  | pldmBase cmd => exact execPldmBase_sound h cmd
  | conventionalReset => exact execConventionalReset_sound h
  | hotReset => exact execHotReset_sound h
  | functionLevelReset => exact execFunctionLevelReset_sound h
  | bootStage err => exact execBootStage_sound h err
  | powerWindow watts => exact execPowerWindow_sound h watts
  | clockStepChange mhz => exact execClockStepChange_sound h mhz
  | coolingLoopLost top sensor temp => exact execCoolingLoopLost_sound h top sensor temp
  | coolingLoopRestored top sensor temp => exact execCoolingLoopRestored_sound h top sensor temp
  | junctionHot sensor temp => exact execJunctionHot_sound h sensor temp
  | replayApply => exact execReplayApply_sound h
  | transitSenderPacket c => exact execTransitSenderPacket_sound h c
  | arrayRequestComplete k n id => exact execArrayRequestComplete_sound h k n id
  | newClockRuns => exact execNewClockRuns_sound h
  | ucieLinkRetrain west width => exact execUcieLinkRetrain_sound h west width
  | deviceControl2Write v => exact execDeviceControl2Write_sound h v

end Sys2Proof.Machine
end

