-- ==== Sys2Proof/Laws/SoundStep.lean ====
section
/-! SUPPORT. The invariant of `Safety` through the operations of `Machine/Step`. -/
namespace Sys2Proof.Machine
open Sys2Proof.Safety


end Sys2Proof.Machine
end

