-- ==== Sys2Proof/Tests/Slice0.lean ====
section
/-! SUPPORT. Tests. The expected values are the worked examples of spec/ and words put together by hand from its encodings; a witness shows
that the hypotheses of a statement's clauses can be met together. -/
namespace Sys2Proof.Tests
open Sys2Proof.Machine Sys2Proof.Safety
set_option Elab.async false

/-! ### Words written out from the encodings -/

/-- The word decodes to the instruction. -/
def reads (w : Word) (i : Instr) : Bool := match decode w with
  | .ok j => j == i
  | .error _ => false

/-- The word is no instruction, for the reason. -/
def refuses (w : Word) (e : Reject) : Bool := match decode w with
  | .ok _ => false
  | .error r => r == e

/-- R111, R113, R114: the fields d, a, b and fn of format R. -/
theorem test_decode_scalar : reads 0x00841801 (.add 4 4 3) ∧ reads 0x0CB42004 (.bext 5 20 4) ∧
    reads 0x0D460003 (.popc 10 6) ∧ reads 0x1463FFFF (.addi 3 3 0xFFFF) ∧ reads 0x14600005 (.addi 3 0 5) ∧
    reads 0x14800000 (.addi 4 0 0) ∧ reads 0x00000000 .ill ∧ reads 0x28220000 (.cmpi 1 .eq 2 0) ∧
    reads 0x1042A802 (.cmp 2 .lt 2 21) := by decide

/-- R119, R121, R122 and the example after R122. -/
theorem test_decode_control : reads 0x40200005 (.bra false 1 5) ∧ reads 0x405FFFE8 (.bra false 2 0x1FFFE8) ∧
    reads 0x40200012 (.bra false 1 18) ∧ reads 0x487FFFFF (.loop 3 0x1FFFFF) ∧ reads 0x487FFFFE (.loop 3 0x1FFFFE) ∧
    reads 0x49FFFFFE (.loop 15 0x1FFFFE) ∧ reads 0x4C2B0014 (.pmovFromScalar 1 11) ∧ reads 0x4C810811 (.por 4 1 1) := by
  decide

/-- R127, R131, R134, R139 and the example after R138. -/
theorem test_decode_float_vector : reads 0x3CC50042 (.fcvt 6 5 .bf16 .fp32) ∧ reads 0x548D0B01 (.vfadd .f32 3 2 3 4) ∧
    reads 0x60864006 (.vsra .i32 0 2 1 9) ∧ reads 0x7440204D (.vins .bf16 0 1 13 0) ∧
    reads 0x7480202D (.vmovs .bf16 0 2 13) := by decide

/-- R156 to R166: tiles and the array. -/
theorem test_decode_array : reads 0x79980000 (.tld 12 24 0) ∧ reads 0x78817300 (.tvset 4 1 14) ∧
    reads 0x7C064924 (.mwld .ps2 true 6 9 2) ∧ reads 0x7C08021C (.mwlt .bf16 false 8 0 1) ∧
    reads 0x7C240439 (.mgo .bf16 1 4 false 3 true false 0) ∧ reads 0x7C040425 (.mgo .bf16 0 4 false 2 false true 0) ∧
    reads 0x7D810648 (.moutTile .bf16 12 1 true) ∧ reads 0x7E008F40 (.moutMemory .bf16 16 0 17 false) ∧
    reads 0x800C0200 (.mmask 12) := by decide

/-- R169, R185, R186: registers and traps. -/
theorem test_decode_registers : reads 0x88074000 (.crwr 7 0) ∧ reads 0x88800101 (.crrd 4 0x101) ∧
    reads 0x8D002000 (.tqpop 8 false) ∧ reads 0x8DAC3002 (.tresume 13 12 .kill) := by decide

/-- R207 to R219: accesses. -/
theorem test_decode_memory : reads 0x90A44004 (.ld .w 5 4 4) ∧ reads 0x90A44A04 (.ldAcq .w .col 5 4 4) ∧
    reads 0x907B7000 (.lds .d 3 27 0) ∧ reads 0x95072000 (.ldu .h 8 7 0) ∧ reads 0x98C92000 (.st .h 6 9 0) ∧
    reads 0x99227003 (.stf .d 9 2 3) ∧ reads 0x9C659000 (.ldse .v 3 5 0) ∧
    reads 0xA0A63A60 (.amoadd .w (.acq .col) 5 6 7) ∧ reads 0xA4000C00 (.fence .pkg) ∧ reads 0xA4022003 (.feset 2 3) ∧
    reads 0xA41B4000 (.feclr 27 0) ∧ reads 0xA4667240 (.vamo .fadd .f32 3 6) := by decide

/-- R271 to R276, R322 to R327: streams and transit. -/
theorem test_decode_streams : reads 0xA8EC8000 (.csend 3 .pair 0 7) ∧ reads 0xA80D4001 (.csend 3 .stop 1 0) ∧
    reads 0xA8841050 (.crecv 4 5 1) ∧ reads 0xA8C82000 (.cpoll 6 2) ∧ reads 0xAD109000 (.invoke 8 2 4 2) ∧
    reads 0xB0C51000 (.xsend 0 5 6) ∧ reads 0xB1281000 (.xsend 0 8 9) ∧ reads 0xB1002001 (.xrecv 8 1) ∧
    reads 0xB0075000 (.xfold 0 7) ∧ reads 0xB0050402 (.xbind 2 5 4) := by decide

/-- R329 to R334, R345 to R351: engines, threads and the dealer. -/
theorem test_decode_engines_dealer : reads 0xB4040000 (.cpy 4) ∧ reads 0xB4041000 (.lswap 4) ∧
    reads 0xB4602001 (.engstat 3 true) ∧ reads 0xB8850000 (.spawn 4 5) ∧ reads 0xB8001000 .exit ∧
    reads 0xB800200F (.yield 15) ∧ reads 0xB8C73000 (.dpush 6 7) ∧ reads 0xB9096000 (.dpop 8 9) := by decide

/-- R366 to R378, R397: range tables and graphs. -/
theorem test_decode_ranges_graphs : reads 0xBC4A0005 (.rgset 2 (.entry 5) 10) ∧ reads 0xBC676124 (.rgsplit 3 4 9 7) ∧
    reads 0xC0852C00 (.rginv .pkg false 4 5) ∧ reads 0xC0004000 .rgsync ∧ reads 0xC0066000 (.rgcpt 6) ∧
    reads 0xC4640002 (.ginstall 3 4 2) ∧ reads 0xC4A66000 (.greconf 5 6) := by decide

/-- R406, R415 to R421, R438 to R440: barriers, the sampler, gates and contexts. -/
theorem test_decode_barriers_contexts : reads 0xC8A00003 (.barj 5 3) ∧ reads 0xC8073002 (.cntwait 2 7) ∧
    reads 0xC8192001 (.cntinc 1 25) ∧ reads 0xCC061002 (.snoise 2 6) ∧ reads 0xCC862012 (.smaxk 4 2 6 true) ∧
    reads 0xCC693000 (.accept 3 9) ∧ reads 0xD0040000 (.gate 4 false) ∧ reads 0xD0A61000 (.qwait 5 6) ∧
    reads 0xD1092000 (.ctxsave 8 9) ∧ reads 0xD1093000 (.ctxload 8 9) := by decide

/-- R77 to R83: words that are no instruction, by name. -/
theorem test_decode_rejects : refuses 0xD4000000 .reservedMajor ∧ refuses 0x0000000B .reservedFn ∧
    refuses 0x00200000 .reservedField ∧ refuses 0x41000001 .reservedField ∧ refuses 0x48000001 .reservedField ∧
    refuses 0x90A44304 .reservedField := by decide

/-- What the host asks of the decoder. -/
theorem test_decode_table_word : decodeTableWord 32 0x1463FFFF = some (.addi 3 3 0xFFFF) ∧ decodeTableWord 32 0xD4000000 = none := by decide

/-! ### Ill-formed terms -/

/-- Words: one term for each operand limit of R78 to R83. -/
theorem test_ill_formed_words : ∀ i ∈ ([.fcvt 1 2 .fp32 .fp32, .fcvt 1 2 .sd .fp32, .loop 0 1, .vadd .f32 0 1 2 3, .vsub .f32 0 1 2 3, .vmul .bf16 0 1 2 3,
    .vmin .f16 0 1 2 3, .vmax .f32 0 1 2 3, .vabs .f32 0 1 2, .vadds .bf16 0 1 2 3, .vsubs .f16 0 1 2 3, .vfadd .i32 0 1 2 3, .vfsub .i32 0 1 2 3,
    .vfmul .i16 0 1 2 3, .vfdiv .i8 0 1 2 3, .vfmin .i32 0 1 2 3, .vfmax .i32 0 1 2 3, .vfma .i8 0 1 2 3, .vfms .i32 0 1 2 3,
    .vcmp .f16 0 1 true .eq 2 3, .vfcmp .i16 0 1 true .eq 2 3, .vshl .bf16 0 1 2 3, .vshr .f32 0 1 2 3, .vsra .f16 0 1 2 3, .vbcast .i32 0 1 2 16,
    .vslide .i32 0 1 2 3 16, .vcvt .i32 .i32 0 1 2 0, .vcvt .i16 .i32 0 1 2 2, .vins .f32 0 1 2 16, .vext .i16 0 1 2 32, .mwld .bf16 true 1 2 1] : List Instr),
    WellFormed i = false := by decide

theorem test_ill_formed_more_words : ∀ i ∈ ([.mwlt .int8 true 1 2 1,
    .mgo .bf16 0 1 true 0 true false 1, .moutTile .ps1 1 0 true, .moutMemory .sd 1 0 2 true, .crrd 1 0x003, .crwr 1 0x3FFF, .crset 1 0x2A1, .crclr 1 0x1092,
    .tqpop 29 true, .ld .v 16 1 0, .ldAcq .v .core 16 1 0, .lds .w 1 2 0, .ldu .d 1 2 0, .lduAcq .v .core 1 2 0, .st .v 31 1 0, .stRel .v .sys 16 1 0,
    .stf .b 1 2 0, .ldse .h 1 2 0, .vamo .fadd .f16 1 2, .vamo .min .f32 1 2, .csend 0 .stop 8 0, .csend 0 .stop 1 1, .csend 0 .empty 0 1, .csend 0 .sdv 9 1,
    .csend 0 .value 1 1, .invoke 1 5 0 0, .invoke 0 0 0 0, .invoke 1 0 7 2, .invoke 1 0 1 0, .xbind 0 1 5, .xrecv 31 0, .rgset 1 (.island 10 0) 1,
    .rgset 1 (.entry 0) 28, .rgget 0 (.ctag 0), .rgget 28 (.entry 1), .rgprobe 31 1, .rgres .sys 1 1, .rgres .core 1 31, .rginv .sys true 1 2,
    .ginstall 1 2 10, .garg 1 31 0, .snoise 1 0, .snoise 1 31, .accept 0 1] : List Instr), WellFormed i = false := by decide

/-- The other rows of the table: one term for each range of the units that they name. -/
theorem test_ill_formed_rows : ∀ i ∈ ([.parkWake 1280, .gangCompare 20, .deadlock 20, .retentionEnter 0 32, .channelTokenDepart 0 8, .invocationStart 10,
    .invokeRequest 10 ⟨0, 1, [], 0, 0, 0⟩, .scan 0 128, .array 10 0, .arrayRequestComplete 0 128 0, .reconfiguration 0 4, .islandInstallDone 0 4,
    .configError 0 4 0, .transitCredit 0 8 0 0 false false, .transitFoldApply 0 8 0 0, .transitFlushApply 0 8 0, .copyComplete 0 4, .swapHoldAck 0 20,
    .rangeDropArrive 0 90, .rangeEntryInvalid 0 32, .rgresUpdateArrive 0 90, .gateArrive 1280 .dealer true, .stepEnd 20, .attest [], .extend 8 []] : List Instr),
    WellFormed i = false := by decide

/-! ### Witnesses: the hypotheses of each statement's clauses, met at concrete states -/

/-- Column 0, core 0: slot 0, which is SUPERVISOR, or slot 1, which is USER, issues. -/
def sup : State := State.reset.modThr 0 (fun x => { x with st := .ready })
def usr : State := { (State.reset.modThr 1 (fun x => { x with st := .ready })) with cur := { slot := 1 } }

/-- Registers of the issuing thread. -/
def State.with (s : State) (l : List (Reg × W64)) : State := s.modThr s.me (fun x => l.foldl (fun y p => y.putS p.1 p.2) x)

theorem witness_IntegerArithmetic : (fld 0x24000100#32 26 6 = 0x09#6 ∧ fld 0x24000100#32 8 8 ≠ 0) ∧
    (fld 0x240000C0#32 26 6 = 0x09#6 ∧ fld 0x240000C0#32 6 2 = 3#2) ∧ (fld 0x0000000B#32 26 6 = 0x00#6 ∧ 10 < (fld 0x0000000B#32 0 11).toNat) ∧
    (fld 0x04000000#32 26 6 = 0x01#6 ∧ (fld 0x04000000#32 0 11).toNat = 0 ∧ 5 < (fld 0x04000006#32 0 11).toNat) ∧
    fld 0x08000000#32 26 6 = 0x02#6 ∧ (fld 0x08000000#32 0 11).toNat = 0 ∧ 7 < (fld 0x08000008#32 0 11).toNat := by decide

theorem witness_BitFields : (fld 0x0C000000#32 26 6 = 0x03#6 ∧ (fld 0x0C000000#32 0 11).toNat = 0) ∧
    (fld 0x0C000009#32 26 6 = 0x03#6 ∧ 8 < (fld 0x0C000009#32 0 11).toNat) ∧
    (fld 0x0C000803#32 26 6 = 0x03#6 ∧ (fld 0x0C000803#32 0 11).toNat = 3 ∧ fld 0x0C000803#32 11 5 ≠ 0) ∧
    fld 0x2C040000#32 26 6 = 0x0B#6 ∧ fld 0x2C040000#32 18 3 ≠ 0 := by decide

theorem witness_Compares : (fld 0x11000000#32 26 6 = 0x04#6 ∧ fld 0x11000000#32 24 2 ≠ 0) ∧
    (fld 0x10000006#32 26 6 = 0x04#6 ∧ 6 ≤ (fld 0x10000006#32 0 11).toNat) ∧ (fld 0x2A000000#32 26 6 = 0x0A#6 ∧ fld 0x2A000000#32 24 2 ≠ 0) ∧
    fld 0x2800C000#32 26 6 = 0x0A#6 ∧ 6 ≤ (fld 0x2800C000#32 13 3).toNat := by decide

theorem witness_ControlAndPredicates : (fld 0x48000001#32 26 6 = 0x12#6 ∧ fld 0x48000001#32 21 5 = 0) ∧
    fld 0x41000001#32 26 6 = 0x10#6 ∧ fld 0x41000001#32 24 1 = 1#1 := by decide

theorem witness_FloatSpecialCases : ((fdec fp32 0x7FC00000).isNan = true ∧ (fdec fp32 0x7F800001).isSig = true ∧ (fdec fp16 0xFE00).isNan = true ∧
    (fdec bf16 0x7FC0).isNan = true) ∧ fdec bf16 0x3F80 = .fin false 128 (-7) ∧ fdec fp32 0x80000001 = .fin true 1 (-149) :=
  ⟨by decide, rfl, rfl⟩

theorem witness_VectorInteger : (LaneType.i8.isInt = true ∧ (5#3, LaneType.i8) ∈ [(0#3, LaneType.i32), (2#3, .i16), (5#3, .i8)]) ∧
    fld 0x50000009#32 26 6 = 0x14#6 ∧ (fld 0x50000000#32 0 8).toNat = 0 ∧ 8 < (fld 0x50000009#32 0 8).toNat ∧
    ((fld 0x50004006#32 0 8).toNat = 6 ∧ fld 0x50004006#32 14 4 ≠ 0) ∧ fld 0x50000801#32 11 3 ∉ [0#3, 2#3, 5#3] := by decide

theorem witness_VectorCompare : (fld 0x5E000000#32 26 6 = 0x17#6 ∧ fld 0x5E000000#32 25 1 = 1#1) ∧
    (fld 0x5C000080#32 26 6 = 0x17#6 ∧ fld 0x5C000080#32 7 1 = 1#1) ∧ (fld 0x5C000010#32 26 6 = 0x17#6 ∧ fld 0x5C000010#32 3 3 = 2#3) ∧
    (fld 0x5C000006#32 26 6 = 0x17#6 ∧ fld 0x5C000006#32 3 3 = 0#3 ∧ fld 0x5C000006#32 0 3 = 6#3) ∧
    fld 0x5C00000C#32 26 6 = 0x17#6 ∧ fld 0x5C00000C#32 3 3 = 1#3 ∧ fld 0x5C00000C#32 0 3 = 4#3 := by decide

/-- One word for each way: `ins` of lane 16 of `i32`, `ins` with bits 17 to 14 in use, `movs` with a lane, `shuf` of kind 4. -/
theorem witness_VectorMoves : ((fld 0x64000010#32 26 6 = 0x19#6 ∧ decLane (fld 0x64000010#32 11 3) = some .i32 ∧ (fld 0x64000010#32 6 2).toNat = 0 ∧
      LaneType.i32.lanes ≤ (fld 0x64000010#32 0 6).toNat) ∧ (fld 0x64004000#32 6 2).toNat = 0 ∧ fld 0x64004000#32 14 4 ≠ 0) ∧
    ((fld 0x64000041#32 6 2).toNat = 1 ∧ (fld 0x64000041#32 0 6).toNat ≠ 0) ∧ ((fld 0x64000084#32 6 2).toNat = 2 ∧ 4 ≤ (fld 0x64000084#32 0 6).toNat) ∧
    decLane (fld 0x64004000#32 11 3) = some .i32 ∧ (fld 0x640000D0#32 6 2).toNat = 3 ∧ 16 ≤ (fld 0x640000D0#32 0 6).toNat ∧
    (15#6).toNat < LaneType.i32.lanes ∧ (63#6).toNat < LaneType.i8.lanes ∧ (1 : Reg) ≠ 0 := by decide

theorem witness_VectorReduceConvert : LaneType.i8.isInt = true ∧ LaneType.bf16.isInt = false := by decide

theorem witness_TrapRecord : (1279 : Nat) < 1280 ∧ (255 : Nat) < 256 ∧ (65535 : Nat) < 65536 := by decide

/-- Fifteen records leave room, sixteen leave none. -/
theorem witness_TrapTaken : let s := sup.modCore 0 (fun x => { x with tq := List.replicate 15 {} })
    let t := sup.modCore 0 (fun x => { x with tq := List.replicate 16 {} })
    let u := sup.modThr 0 (fun x => { x with st := .parked .trap, wait := .record })
    (1 : Nat) < 1280 ∧ bit s.pkg.frztrig.toNat 8 = false ∧ 1 % 16 ≠ s.handlerSlot (1 / 16) ∧ (s.core (1 / 16)).tqAt ≠ s.sched.cycle + 1 ∧
      (s.core 0).tq.length < 16 ∧ bit t.pkg.frztrig.toNat 8 = false ∧ 1 % 16 ≠ t.handlerSlot 0 ∧ (t.core 0).tqAt ≠ t.sched.cycle + 1 ∧
      16 ≤ (t.core 0).tq.length ∧ (usr.thr 0).st = .empty ∧ (u.thr 0).st = .parked .trap ∧ (u.thr 0).wait = .record := by decide

theorem witness_DoubleTrap : bit sup.pkg.frztrig.toNat 8 = false ∧ 0 % 16 = sup.handlerSlot (0 / 16) ∧ 1264 % 16 = sup.handlerSlot (1264 / 16) := by decide

theorem witness_SoftwareTrapsAndQueue : let s := sup.modCore 0 (fun x => { x with tq := [{}] })
    sup.isSuper sup.me = true ∧ (sup.core sup.myCore).tq = [] ∧ s.isSuper s.me = true ∧ (s.core s.myCore).tq = {} :: [] ∧
      (s.core s.myCore).waiting = [] := by decide

theorem witness_TrapResume : let s := (State.with sup [(1, 15)]).modThr 15 (fun x => { x with st := .trapped })
    s.isSuper s.me = true ∧ (s.thr (16 * s.myCore + (s.rd 1).toNat % 16)).st = .trapped ∧ (s.thr 15).wait = .none ∧ 15 ≠ s.me ∧
      (s.core s.myCore).waiting = [] ∧ s.outstanding 15 = [] ∧ (s.thr (16 * s.myCore + (s.rd 2).toNat % 16)).st ≠ .trapped := by decide

theorem witness_Spawn : let s := State.with sup [(1, 0x20000), (2, 0x0), (3, 0x10000), (4, 0xFFFF)]
    let u := State.with usr [(2, 0x0)]
    let full := (List.range 16).foldl (fun u n => u.modThr n (fun x => { x with st := .halted })) s
    bits (s.rd 1).toNat 63 17 ≠ 0 ∧ (bits (s.rd 2).toNat 63 17 = 0 ∧ bit (s.rd 2).toNat 16 = false ∧ (s.thr 0).st ≠ .empty) ∧
    (bits (s.rd 3).toNat 63 17 = 0 ∧ bit (s.rd 3).toNat 16 = true ∧ (∀ j, j < 16 → (full.thr j).st ≠ .empty)) ∧
    (u.superSlot u.myCore 0 = true ∧ u.isSuper u.me = false ∧ (u.thr 0).st = .empty) ∧
    (bits (s.rd 4).toNat 63 17 = 0 ∧ bit (s.rd 4).toNat 16 = false ∧ bits (s.rd 4).toNat 15 12 = 15 ∧ (s.thr 15).st = .empty ∧
      s.superSlot 0 15 = false ∧ 15 ≠ s.me) ∧ (∀ i, i < 1 → (s.thr i).st ≠ .empty) ∧ (s.thr 1).st = .empty := by decide

theorem witness_Exit : let f := sup.modThr 0 (fun x => { x with deferred := [{ cause := 7, va := 0, at_ := 0 }] })
    let b := sup.modThr 0 (fun x => x.putChan 7 { st := .outb })
    let w : State := { sup with flights := [{ agent := .thread 0, op := .store .d false 0, ga := 0, va := 0, size := 8 }] }
    (∀ c, c < 8 → ((self sup).chan (BitVec.ofNat 3 c)).st = .unbound) ∧ sup.outstanding sup.me = [] ∧ (self sup).deferred = [] ∧
    (∀ c, c < 8 → ((self f).chan (BitVec.ofNat 3 c)).st = .unbound) ∧ f.outstanding f.me = [] ∧ (self f).deferred ≠ [] ∧
    (∀ c, c < 8 → ((self w).chan (BitVec.ofNat 3 c)).st = .unbound) ∧ w.outstanding w.me ≠ [] ∧
    (∀ j, j < 7 → ((self b).chan (BitVec.ofNat 3 j)).st = .unbound) ∧ ((self b).chan 7).st ≠ .unbound := by decide

/-- A thread that waits for the dealer, whose heap holds one request. -/
def dealt : State := { (sup.modThr 0 (fun x => { x with wait := .reply })) with disp := { heap := [⟨41, 0, 1⟩] } }

theorem witness_DealerRequestsPop : (dealt.thr 0).wait = .reply ∧ dealt.disp.dealerGate = false ∧ dealt.disp.heap ≠ [] ∧ (16 : W64).toNat % 16 = 0 ∧
    dealt.watchpoint 0 16 (16 * (dealBatch dealt.pkg.tbudget.toNat dealt.disp.heap).1.length) false true = none ∧
    dealt.translate 0 16 16 permW = .ok (dealt.ga 1 0 16) [] ∧ dealt.mapCheck (dealt.ga 1 0 16) 16 .bulk 16 = none ∧ (8 : W64).toNat % 16 ≠ 0 ∧
    ({ dealt with disp := {} } : State).disp.heap = [] := by decide

theorem witness_DealerOperations : let full : State := { dealt with disp := { heap := (List.range 256).map (fun n => ⟨BitVec.ofNat 16 n, 0, 1⟩) } }
    (dealt.thr 0).wait = .reply ∧ (∃ r ∈ dealt.disp.heap, r.ident = 41) ∧ ¬(∃ r ∈ dealt.disp.heap, r.ident = 42) ∧ dealt.disp.heap.length < 256 ∧
    full.disp.heap.length = 256 ∧ (∀ y ∈ dealt.disp.heap, y.ident = 41 → y = ⟨41, 0, 1⟩) ∧ (65535 : W64).toNat ≤ 65535 ∧ (65535 : Nat) < (65536 : W64).toNat := by
  refine ⟨by decide, by decide, by decide, by decide, by simp, by decide, by decide, by decide⟩

theorem witness_HaltsAndWatchdog : let s := sup.modCore 0 (fun x => { x with hmask := 1 })
    let h := sup.modThr 0 (fun x => { x with st := .halted })
    let w := (sup.modThr 0 (fun x => { x with st := .parked .chan, wait := .chan 3 })).modCol 0 (fun x => { x with wdlimit := 1, cyc := 17 })
    ((s.thr 0).st = .ready ∧ (s.core (coreOf 0)).hmask.getLsbD (slotOf 0) = true) ∧ ((h.thr 0).st = .halted ∧ (h.core (coreOf 0)).hmask.getLsbD (slotOf 0) = false) ∧
    (w.thr 0).st = .parked .chan ∧ (w.thr 0).wait = .chan 3 ∧ (w.col (colOf 0)).wdlimit ≠ 0 ∧
    (w.thr 0).parkedAt + 16 * (w.col (colOf 0)).wdlimit.toNat < (w.col (colOf 0)).cyc ∧ w.flights = [] := by decide

/-- The last word of the window, which an `ld` reaches without an entry, and the last 64 bytes. -/
theorem witness_LoadsAndStores : Reaches sup 0xFFFF8 8 8 .plain permR true false (sup.ga 1 0 0xFFFF8) [] ∧ gaSpace (sup.ga 1 0 0xFFFF8) ≠ 5 ∧
    Reaches sup 0xFFFC0 64 64 .fe permR true false (sup.ga 1 0 0xFFFC0) [] ∧ Reaches sup 0xFFFC0 64 64 .plain permW false true (sup.ga 1 0 0xFFFC0) [] ∧
    Reaches usr 0xFFFF8 8 8 .fe permW false true (usr.ga 1 0 0xFFFF8) [] := by
  unfold Reaches Passes; decide

theorem witness_Atomics : Reaches sup 0xFFFFC 4 4 .atomic (permR ||| permA) true true (sup.ga 1 0 0xFFFFC) [] ∧
    Reaches sup 0xFF800 2048 8 .fe permW false true (sup.ga 1 0 0xFF800) [] ∧
    Reaches sup 0xFFFE0 32 32 .atomic (permR ||| permA) true true (sup.ga 1 0 0xFFFE0) [] := by
  unfold Reaches Passes; decide

theorem witness_FencesAndDeferredFaults :
    let w : State := { sup with flights := [{ agent := .thread 0, op := .store .d false 0, ga := 0, va := 0, size := 8 }] }
    let f := sup.modThr 0 (fun x => { x with deferred := [{ cause := 7, va := 0, at_ := 0 }] })
    (self sup).deferred = [] ∧ sup.drained sup.me .sys = true ∧ (self w).deferred = [] ∧ w.drained w.me .sys = false ∧
      (self f).deferred = { cause := 7, va := 0, at_ := 0 } :: [] := by decide

/-- The register space through an entry, a watchpoint on a word of the window, and a miss above it. -/
def ranged (e : Entry) (s : State := sup) : State := (s.putEntry 0 0 e).noteStart

/-- What entry 0 of table 0 translates from an address on, to another. -/
def through (va n ga : Nat) : List Via := [{ tbl := 0, idx := 0, va := va, len := n, ga := ga }]
def regEntry : Entry := { st := .valid, perms := 0x1F, base := 0x100000, limit := 0x200000, offset := 0x500000000000, rlo := 0x100000, rhi := 0x200000 }

theorem witness_AccessChecks : let s := ranged regEntry
    let u := ranged regEntry usr
    let w := sup.modCore 0 (fun x => { x with wpa := x.wpa.set 0 0x40, wpc := x.wpc.set 0 0xE000000300000001 })
    (self sup).deferred = [] ∧ (self sup).retrans = false ∧ 1 % 8 ≠ 0 ∧ (w.watchpoint w.me 0x40 8 true false).isSome = true ∧
    (w.watchpoint w.me 0x40 8 false true).isSome = true ∧ (self w).deferred = [] ∧
    sup.translate sup.me 0x100000 8 permR = .fault { cause := 0x04, sub := 1, w2 := 0x100000 } ∧
    sup.translate sup.me 0x100000 8 permW = .fault { cause := 0x04, sub := 1, w2 := 0x100000 } ∧
    Reaches s 0x100000 8 8 .plain permR true false 0x500000100000 (through 0x100000 8 0x500000100000) ∧ gaSpace 0x500000100000 = 5 ∧ MSize.w ≠ .d ∧
    Reaches u 0x100000 8 8 .plain permR true false 0x500000100000 (through 0x100000 8 0x500000100000) ∧ u.isSuper u.me = false := by
  unfold Reaches Passes; decide

theorem witness_AccessChecks_map : let s := ranged { st := .valid, perms := 0x1F, base := 0x100000, limit := 0x200000, offset := 0x600000000000, rlo := 0x100000, rhi := 0x200000 }
    s.watchpoint s.me 0x100000 8 true false = none ∧ s.translate s.me 0x100000 8 permR = .ok 0x600000100000 (through 0x100000 8 0x600000100000) ∧
      (s.mapExtent 0x600000100000 8 .plain 0x100000).isSome = true := by decide

/-- One entry, whose limit and permissions and window the clauses meet at their ends; two entries that overlap. -/
theorem witness_Translation : let e : Entry := { st := .valid, perms := 0x11, base := 0x100000, limit := 0x100100, offset := 0x10, rlo := 0x100000, rhi := 0x100080 }
    let s := ranged e
    let t := (s.putEntry 0 31 e).noteStart
    (1279 : Nat) < 1280 ∧ 0xFFFFF + 1 ≤ 2 ^ 20 ∧ (0xFFFFF < 2 ^ 20 ∧ 2 ^ 20 < 0xFFFFF + 2) ∧ s.hits 0 0 0x100100 = [] ∧ t.hits 0 0 0x100000 = [0, 31] ∧
    s.hits 0 0 0x1000FF = [0] ∧ (s.entry 0 0).limit < 0x1000FF + 2 ∧ (permW &&& ~~~(s.entry 0 0).perms) ≠ 0 ∧ (permR &&& ~~~(s.entry 0 0).perms) = 0 ∧
    (e.winLo ≤ 0x10007F ∧ 0x10007F + 1 ≤ e.winHi) ∧ ¬(e.winLo ≤ 0x100080 ∧ 0x100080 + 1 ≤ e.winHi) ∧ e.fetch = false := by decide

theorem witness_MemoryHolds : Within 0x1FFFFFFFFFFF 1 ∧ Within 0x300000000000 64 ∧ gaSpace 0x3FFFFFFFFFFF < 4 ∧ Outside 0x100000000000 8 0x100000000008 := by
  refine ⟨by unfold Within; decide, by unfold Within; decide, by decide, ?_⟩
  intro i hi
  omega

/-- A store and a load of 8 bytes that stand at their owner. -/
def at_ (op : AccOp) (n : Nat := 8) (s : State := sup) : State :=
  { s with flights := [{ seq := 1, agent := .thread 0, op := op, ga := s.ga 1 0 0x20000, va := 0x20000, size := n }] }

def acc (op : AccOp) (n : Nat := 8) : Access := { seq := 1, agent := .thread 0, op := op, ga := sup.ga 1 0 0x20000, va := 0x20000, size := n }

theorem not_tile {o : Owner} (h : o = .bank 0 0) : ∀ k t, o ≠ .tile k t := by
  rintro k t rfl
  cases h

theorem witness_ReadsAndStoresAtOwner :
    (Served (at_ (.store .d true 5)) 1 (acc (.store .d true 5)) ∧ Within (sup.ga 1 0 0x20000) 8 ∧ hasFe (sup.ga 1 0 0x20000) = true) ∧
    (Served (at_ (.store .v false 5) 64) 1 (acc (.store .v false 5) 64) ∧ Within (sup.ga 1 0 0x20000) 64) ∧
    (Served (at_ (.load .b true 3) 1) 1 (acc (.load .b true 3) 1) ∧ (at_ (.load .b true 3) 1).badWord (sup.ga 1 0 0x20000) 1 = none) ∧
    (let s := at_ (.fe .d true 3) 8 (sup.setFull (sup.ga 1 0 0x20000) true)
     Served s 1 (acc (.fe .d true 3)) ∧ s.allFull (sup.ga 1 0 0x20000) 8 = true ∧ sup.ga 1 0 0x20000 % 8 = 0) ∧
    Served (at_ (.amo 9 .w 3 0 0) 4) 1 (acc (.amo 9 .w 3 0 0) 4) ∧ (4 : Nat) = amoBytes .w := by
  refine ⟨⟨?_, ?_, ?_⟩, ⟨?_, ?_⟩, ⟨?_, ?_⟩, ⟨?_, ?_, ?_⟩, ?_, ?_⟩ <;>
    first
    | exact ⟨by decide, by decide, by decide, by decide, by decide, by decide, not_tile (by decide)⟩
    | (unfold Within; decide)
    | decide

set_option maxRecDepth 4000 in
theorem witness_AccessEnds : let j : Access := { acc (.fe .d true 3) with joined := some 0 }
    let s : State := { sup.setFull j.ga true with flights := [j] }
    let w : State := { (sup.modThr 0 (fun x => { x with wait := .feList 1 })) with flights := [{ j with waiting := true }] }
    (s.flight 1 = some j ∧ j.joined.isSome = true ∧ s.allFull j.ga j.size = true ∧ s.ownerFree j.ga j.turnBytes = true ∧
      s.ownerRuns (s.owner j.ga) = true ∧ s.badWord j.ga j.size = none) ∧ (dealt.thr 0).wait = .reply ∧ (sup.thr 0).wait ≠ .reply ∧
    ((w.thr 0).wait = .feList 1 ∧ w.flight 1 = some { j with waiting := true }) ∧ (sup.setMark j.ga .correctable).mark j.ga = .correctable := by decide

theorem witness_ThreadRegisters : sup.isSuper sup.me = true ∧ usr.isSuper usr.me = false := by decide
theorem witness_UnitRegisters : sup.isSuper sup.me = true := by decide

theorem witness_HostRegisterAccess : State.reset.host.held = [] ∧ State.reset.host.busy = none ∧ State.reset.pkg.rcctl = 0 ∧ 0x3FFFFF8 % 8 = 0 ∧ 0x3FFFFF8 + 8 ≤ 2 ^ 26 ∧ 0x1FFF8 < 2 ^ 17 := by
  decide

/-- A channel register of the issuing thread. -/
def channed (c : PReg) (h : Chan) : State := sup.modThr 0 (fun x => x.putChan c h)

theorem witness_StreamInstructions :
    (((self sup).chan 3).head = none ∧ ((self sup).chan 3).st = .unbound) ∧
    (let c := (self (channed 3 { st := .outb, depth := 1 })).chan 3
     c.head = none ∧ c.st = .outb ∧ gramError c.depth c.gram (mkTok kPAIR 0 0) = none) ∧
    (let c := (self (channed 3 { st := .outb, full := true, tok := tokDone })).chan 3
     c.head.isSome = true ∧ c.st = .outb) ∧
    ((self (channed 3 { st := .inb })).chan 3).st = .inb ∧ ((self (channed 3 { full := true, tok := tokDone })).chan 3).head = some tokDone ∧
    ((self (channed 3 { st := .inb, full := true, tok := tokDone })).chan 3).head = some tokDone ∧ ((self (channed 3 { st := .inb })).chan 3).head = none := by decide

/-- An island whose bank 0 holds a graph of one node, `w` in slot `n`, that an invocation of thread 0 runs; the node's state is `x`. -/
def isle (n : Nat) (w : NodeWord) (x : Node := {}) (s : State := sup) : State :=
  s.modIsl 0 (fun i => { i with
    run := some { id := 1, thr := 0, graph := 1, ops := [], port := 0, ch := 0, n := 1 }
    activeBank := some 0, banks := i.banks.set 0 { st := .active, graph := 1, nodes := List.replicate n 0 ++ [w] }, nodes := [(n, x)] })

/-- A node word of an operation, a format (R45) and a parameter. -/
def word (op fmt prm : Nat) (plane : Nat := 0) : NodeWord := BitVec.ofNat 128 (op * 2 ^ 120 + fmt * 2 ^ 116 + plane * 2 ^ 112 + prm * 2 ^ 64)

/-- A node with a token at each of the first inputs. -/
def heads (l : List Tok) : Node := { ins := #v[(l.take 1).map (fun t => ⟨plain t, 0⟩), ((l.drop 1).take 1).map (fun t => ⟨plain t, 0⟩),
  ((l.drop 2).take 1).map (fun t => ⟨plain t, 0⟩)] }

def val (v : Nat) : Tok := mkData kVALUE 0 v

/-- A graph with a PORTIN at port 0, that an INVOKE of one operand register less than it has and of port 0 accepts. -/
def ported : State := isle 0 (word 0x60 1 0)
def request : InvReq := { thr := 0, graph := 1, ops := [], port := 0, ch := 0, n := 1 }

set_option maxRecDepth 8000 in
theorem witness_Invocations : let v := (State.with sup [(8, 0x900000001)]).rd 8
    (bits v.toNat 63 39 = 0 ∧ bits v.toNat 35 32 ≤ 9 ∧ bits v.toNat 31 0 ≠ 0 ∧ bits v.toNat 38 36 + 8 ≤ 8 ∧
      (∀ j, j < 8 → ((self sup).chan (0 + BitVec.ofNat 3 j)).free = true) ∧ sup.outstanding sup.me = []) ∧
    bits (sup.rd 8).toNat 31 0 = 0 ∧ ((ported.isl 0).judge request = .ok 0 ∧ (ported.isl 0).queue.length < 16 ∧ (ported.isl 0).waiting = []) ∧
    (State.reset.isl 0).judge request = .error 2 ∧ (dealt.thr 0).wait = .reply ∧
    ((channed 2 { st := .inb, isl := 4, inv := 1 }).thr 0).islandOf 1 = some 4 := by
  refine ⟨by decide, by decide, ⟨rfl, by decide, by decide⟩, rfl, by decide, by decide⟩

theorem witness_Invocations_tokens : let s := ported.modThr 0 (fun x => x.putChan 2 { st := .outb, active := true, inv := 1, full := true, tok := tokDone })
    let q := ported.modIsl 0 (fun i => { i with queue := List.replicate 16 { id := 2, thr := 0, graph := 1, ops := [], port := 0, ch := 0, n := 0 } })
    (((s.thr 0).chan 2).head = some tokDone ∧ s.mayDepart 0 ((s.thr 0).chan 2) = true) ∧ 16 ≤ (q.isl 0).queue.length ∧
    (sup.thr 0).st = .ready ∧ (sup.thr 0).wait = .none ∧ (((channed 2 { st := .inb, inv := 1 }).thr 0).chan 2).st = .inb := by decide


/-- Tile 4 with the given shape, and three registers: an offset, an address and a number of rows. -/
def tiled (v : BitVec 32) : State :=
  State.with (sup.modCol 0 (fun c => { c with tshape := c.tshape.set 4 v })) [(1, 16320), (2, 0x1000), (3, 32), (5, 0xFF000)]

set_option maxRecDepth 4000 in
theorem witness_Tiles : let s := tiled 0x0030003F
    let h := s.shape 0 4
    (s.writeHeld 0 4 = false ∧ s.readHeld 0 4 = false ∧ (s.col 0).tileMarks = [] ∧ h.ok = true ∧ (s.rd 1).toNat < 16384 ∧ (s.rd 1).toNat % 64 = 0) ∧
    ((tiled 0x70000000).shape 0 4).ok = false ∧ (at_ (.gather [] [] (.tile 4))).writeHeld 0 4 = true ∧
    ((s.rd 2).toNat % 1 = 0 ∧ h.rb % 1 = 0 ∧ s.rowWatch h.rb (rowList 0x1000 64 64 4) false = none ∧
      (∃ ps via, s.rowPieces h.rb permR (rowList 0x1000 64 64 4) ([], []) = .ok (ps, via)) ∧ s.rowWatch h.rb (rowList 0x1000 64 64 4) true = none ∧
      ∃ ps via, s.rowPieces h.rb permW (rowList 0x1000 64 64 4) ([], []) = .ok (ps, via)) := by
  refine ⟨by decide, by decide, by decide, by decide, by decide, by decide, ⟨_, _, rfl⟩, by decide, ⟨_, _, rfl⟩⟩

set_option maxRecDepth 4000 in
theorem witness_Tiles_banks : let s := tiled 0x01F0007F
    let h := s.shape 0 4
    (h.fmt = .int8 ∧ h.rb = 128 * elemBytes .int8 ∧ h.rows ≤ 32 ∧ (s.col 0).bankInFlight 3 = false ∧ (s.col 0).accPoison.getLsbD 3 = false ∧
      (s.col 0).accMarks = []) ∧
    ((s.rd 3).toNat = 32 ∧ Passes s 0xFF000 (32 * 128 * elemBytes .int8) 64 .bulk permW false true (s.ga 1 0 0xFF000) []) ∧
    2304 ≤ h.rows * h.rb ∧ (s.col 0).maskInFlight = false := by
  unfold Passes; decide

/-- Four equal items at the ports of column 0, or one that differs, in a cycle after the last arrival. -/
def ports (i j : Instr) : State :=
  let item := fun (i : Instr) => ({ slot := 0, cycle := 0, instr := i, key := sup.gangKey 0 i } : PortItem)
  ((List.range 4).foldl (fun s q => s.modCore q (fun x => { x with port := some (item (if q = 1 then j else i)) })) sup).modCol 0 (fun x => { x with cyc := 1 })

/-- A gang of four loads, or of four computations, in column 0. -/
def ganged (i : Instr) (st : GangSt) (busy : Nat := 0) (fails : List (Nat × TrapInfo) := []) : State :=
  (ports i i).modCol 0 (fun x => { x with
    gangs := [{ id := 0, formed := 0, members := List.replicate 4 { slot := 0, cycle := 0, instr := i, key := [] }, st := st, busyTo := busy, doneAt := busy, m := 1
                fails := fails }]
    plane0 := { st := .ready .int8 } })

theorem witness_ArrayInstructions : let s := tiled 0x01F0007F
    (s.scaleOk .int8 0 = true ∧ Passes s 0x1000 (quarterBytes .int8) 64 .bulk permR true false (s.ga 1 0 0x1000) [] ∧
      ∀ x ∈ s.outstanding s.me, meets x.ga x.size 0 4096 = false) ∧
    ((s.shape 0 4).fmt = wFmt .int8 ∧ (s.shape 0 4).rows = 32 ∧ (s.shape 0 4).rb = wRow .int8) ∧
    (let h := (tiled 0x01F0001F).shape 0 4
     h.fmt = aFmt .int8 ∧ h.rb = 32 * aBytes .int8 ∧ h.rows ≤ 32 ∧ 96 + h.rows ≤ 128) ∧ (0 < (s.rd 3).toNat ∧ (s.rd 3).toNat ≤ 32) ∧
    (s.shape 0 4).fmt ≠ aFmt .bf16 ∧ s.rd 9 = 0 := by
  unfold Passes; decide

theorem witness_ArrayInstructions_hold : let mine := sup.modCol 0 (fun x => { x with hold := some { core := 0, slot := 0, start := 0 } })
    let other := sup.modCol 0 (fun x => { x with hold := some { core := 3, slot := 0, start := 0 } })
    let busy := ganged (.mgo .int8 3 4 false 0 false false 0) (.running 0) 1
    (sup.isSuper sup.me = true ∧ (sup.col sup.cur.col).hold = none ∧ sup.holds sup.me = false ∧ usr.isSuper usr.me = false) ∧
    (mine.isSuper mine.me = true ∧ (mine.col 0).hold.isSome = true ∧ mine.holds mine.me = true) ∧
    (other.isSuper other.me = true ∧ (other.col 0).hold.isSome = true ∧ other.holds other.me = false) ∧
    (sup.col 0).bankInFlight 3 = false ∧ (busy.col 0).bankInFlight 3 = true := by decide

theorem witness_Array_gangs : let i := Instr.mwlt .int8 true 4 0 0
    let m := Instr.mgo .int8 3 4 false 0 false false 0
    let held := sup.modCol 0 (fun x => { x with hold := some { core := 0, slot := 0, start := 0 }, cyc := 1048576 })
    ((ports i i).compareDue 0 = true ∧ (∃ p, (ports i i).fourPorts 0 = some [p, p, p, p])) ∧
    (∃ a b c d, (ports i m).fourPorts 0 = some [a, b, c, d] ∧ b.key ≠ a.key) ∧
    (∃ x, (ganged i .formed).gang 0 0 = some x ∧ x.active = false ∧ ∃ y, (ganged i .formed).startsNow 0 x.isLoad = some y ∧ y.id = 0) ∧
    (∃ x, (ganged i (.running 0) 1).gang 0 0 = some x ∧ x.id = 0 ∧ (ganged i (.running 0) 1).completeDue 0 x = true) ∧
    (∃ x k, (ganged m (.running 0) 1).gang 0 0 = some x ∧ (ganged m (.running 0) 1).computeParts 0 x = some k ∧ x.busyTo ≠ 0 ∧
      (ganged m (.running 0) 1).completeDue 0 x = true ∧ 3 ∈ planeBanks k.acc (((ganged m (.running 0) 1).col 0).plane x.plane)) ∧
    (∃ x, (ganged i (.running 0) 1 [(0, { cause := 9 })]).gang 0 0 = some x ∧ x.fails ≠ [] ∧ x.isLoad = true) ∧
    (∃ x, (ganged m (.running 0) 1 [(0, { cause := 9 })]).gang 0 0 = some x ∧ x.fails ≠ [] ∧ x.isLoad = false) ∧
    held.watchdogDue 0 = true ∧ (held.col 0).hold = some { core := 0, slot := 0, start := 0 } := by
  refine ⟨⟨by decide, _, rfl⟩, ⟨_, _, _, _, rfl, by decide⟩, ⟨_, rfl, by decide, _, rfl, by decide⟩, ⟨_, rfl, by decide, by decide⟩,
    ⟨_, _, rfl, rfl, by decide, by decide, by decide⟩, ⟨_, rfl, by decide, by decide⟩, ⟨_, rfl, by decide, by decide⟩, by decide, by decide⟩

set_option maxRecDepth 20000 in
theorem witness_Array_faultless : let i := Instr.mwlt .int8 true 4 0 0
    let m := Instr.mgo .int8 3 4 false 0 false false 0
    (∃ x, (ganged i (.running 0) 1).gang 0 0 = some x ∧ (ganged i (.running 0) 1).loadFaults 0 x = []) ∧
    ∃ x k, (ganged m (.running 0) 1).gang 0 0 = some x ∧ (ganged m (.running 0) 1).computeParts 0 x = some k ∧
      ((ganged m (.running 0) 1).col 0).computeFaults .int8 { st := .ready .int8 } k x.m = [] := by
  refine ⟨⟨_, rfl, by decide⟩, _, _, rfl, rfl, by decide⟩

/-- Outbound channel 2 of column 0 with one branch, and inbound channel 1 with one slot in the state `w`. -/
def bound (w : WinSt) (credits : Nat := 1) : State :=
  ((State.with sup [(1, 0x083F), (2, 0x1000), (3, 64), (4, 0x500001000)]).putOut 0 2 { bound := true, branches := [{ col := 1, inc := 0, w := 1, credits := credits }] }).putIn 0 1
    { bound := true, prod := 1, w := 1, slots := [{ st := w, tag := 5, len := 64 }] }

theorem witness_Transit : let s := bound .filled
    let a : W64 := 0x083F
    (sup.bindRefusal 0 7 1 0x083F = none ∧ a.toNat = 0x083F ∧ sup.bindTaken 0 7 1 0x083F = false ∧ sup.outstanding sup.me = []) ∧
    ((s.out 0 2).bound = true ∧ bits (s.rd 4).toNat 31 13 = 0 ∧ (s.rd 4).toNat % 8192 = 4096 ∧ (s.out 0 2).floor.toNat ≤ (s.rd 4).toNat / 2 ^ 32 ∧
      (s.rd 2).toNat % 64 = 0 ∧ s.translate s.me 0x1000 4096 (permR ||| permE) = .ok (s.ga 1 0 0x1000) [] ∧
      s.mapExtent (s.ga 1 0 0x1000) 4096 .bulk 0x1000 = none ∧ (s.out 0 2).mayGo = true ∧ ((bound .filled 0).out 0 2).mayGo = false) ∧
    (s.rd 2).toNat < 2 ^ 32 ∧ ((s.inc 0 1).bound = true ∧ (s.inc 0 1).half = false ∧ ((s.inc 0 1).slot (s.inc 0 1).recv).st = .filled) ∧
    (((bound .inflight).inc 0 1).slot 0).st ≠ .filled ∧ ((bound .claimed).inc 0 1).number .claimed ≠ 0 ∧ (sup.out 0 2).bound = false ∧
    (sup.inc 0 1).bound = false := by decide

theorem witness_TransitSteps : let s := bound .filled
    let q : SendItem := { kind := .data, thr := some 0, out := 2, src := 0, len := 64, tag := 5, seq := 0, from_ := 0, buf := some ([], []) }
    let f : SendItem := { kind := .fold, thr := none, out := 2, tag := 5, seq := 0, from_ := 0 }
    let p : TransitPkt := { cons := 0, inc := 1, prod := 1, out := 0, branch := 0, tag := 5, len := 64, off := 0, emit := 1, data := List.replicate 8 (0, false) }
    let u := s.modCol 0 (fun x => { x with sendQ := [q] })
    let v := s.modCol 0 (fun x => { x with sendQ := [f] })
    let w := s.modCol 0 (fun x => { x with arriving := [(0, p)] })
    ((u.col 0).sendQ = [q] ∧ q.from_ ≤ u.sched.cycle ∧ (∃ br, (u.out 0 q.out).branches[q.done % (u.out 0 q.out).branches.length]? = some br)) ∧
    ((v.col 0).sendQ = [f] ∧ ∃ br, (v.out 0 f.out).branches[f.done]? = some br) ∧
    ((0, p) ∈ (w.col p.cons).arriving ∧ w.packetTurn p = true ∧ w.pieceReady (onePiece (w.packetGa p) 64) = true ∧ Within (w.packetGa p) 64 ∧
      p.data.length = 8) ∧ s.foldTurn 0 1 7 = true := by
  refine ⟨⟨by decide, by decide, _, rfl⟩, ⟨by decide, _, rfl⟩, ⟨by decide, by decide, by decide, by unfold Within; decide, by decide⟩, by decide⟩

/-- The bytes of some 64-bit words, from the start. -/
def bytesOf (l : List Nat) : Sparse Byte :=
  (List.range (8 * l.length)).foldl (fun d i => sset 0 d i (BitVec.ofNat 8 (l.getD (i / 8) 0 / 256 ^ (i % 8)))) []

/-- A copy of two bytes, 15 bytes apart at the source, within the window of the thread. -/
def copyWords : Sparse Byte := bytesOf [0x100, 0x200, 0, 0, 0xF00000001, 2]

theorem witness_Engines_descriptor : sup.isSuper sup.me = true ∧ usr.isSuper usr.me = false ∧ (0xFFFE0 % 8 = 0 ∧
      sup.rowWatch 8 (rowList 0xFFFE0 8 8 4) false = none ∧ (sup.rowPieces 8 permR (rowList 0xFFFE0 8 8 4) ([], [])).isOk = true ∧ sup.keptWords = none) ∧
    0x1001 % 8 ≠ 0 ∧ (self sup).retrans = false := by decide

def copyDims : List (Int × Int × Nat) := [(15, 1, 2)]

theorem witness_Engines_copy :
    (descWord copyWords 3 = 0 ∧ descWord copyWords 2 = 0 ∧ descWord copyWords 0 = 0x100 ∧ descWord copyWords 1 = 0x200) ∧
    (List.range 1).map (copyDim copyWords) = copyDims ∧
    (extent 0x100 (copyDims.map (fun e => (e.1, e.2.2))) 1 = (0x100, 0x10F) ∧ extent 0x200 (copyDims.map (fun e => (e.2.1, e.2.2))) 1 = (0x200, 0x201)) ∧
    (∀ e ∈ copyDims, 0 < e.2.2 ∧ e.2.2 < 2 ^ 24 ∧ e.1 % 1 = 0 ∧ e.2.1 % 1 = 0) ∧
    (sup.translate sup.me 0x100 16 (permR ||| permE) = .ok (sup.ga 1 0 0x100) [] ∧ sup.mapExtent (sup.ga 1 0 0x100) 16 .bulk 0x100 = none ∧
      sup.translate sup.me 0x200 2 (permW ||| permE) = .ok (sup.ga 1 0 0x200) [] ∧ sup.mapExtent (sup.ga 1 0 0x200) 2 .bulk 0x200 = none) ∧
    runsMeet (extentRuns true (sup.ga 1 0 0x100) 16) (extentRuns true (sup.ga 1 0 0x200) 2) = false ∧ inWindow (wrapTo 64 0x100) = true ∧ (sup.core sup.myCore).copies.length < 1024 ∧ sup.outstanding sup.me = [] := by
  refine ⟨⟨by decide, by decide, by decide, by decide⟩, by rfl, ⟨by decide, by decide⟩, by decide, by decide, by decide⟩

def copyCmd : CopyCmd := { thr := 0, src := sup.ga 1 0 0x100, dst := sup.ga 1 0 0x200, fin := some (sup.ga 1 0 0x300), esz := 1, dims := [(15, 1, 2)], total := 2, seq := 0 }

theorem witness_Engines_transfers : let s := sup.modCore 3 (fun x => { x with copies := [copyCmd] })
    let t := sup.modCore 3 (fun x => { x with copies := [{ copyCmd with done := 2 }] })
    let x := copyCmd
    (s.copyCore 0 = some 3 ∧ (s.core 3).copies = [x] ∧ x.buf = none ∧ gaPkg x.next.1 = s.pkg.pkgNo.toNat ∧ gaPkg x.next.2.1 = s.pkg.pkgNo.toNat ∧
      Within x.next.1 1 ∧ Within x.next.2.1 1 ∧ x.next.2.2 * x.esz = 1 ∧ x.pipe = 0 ∧ s.pieceReady (onePiece x.next.1 1) = true) ∧
    (t.core 3).copies = [{ copyCmd with done := 2 }] ∧ ({ copyCmd with done := 2 } : CopyCmd).total ≤ 2 ∧ StatusReady t copyCmd.flight copyCmd.fin := by
  refine ⟨by unfold Within; decide, by decide, by decide, Or.inr (by unfold Within; decide)⟩

/-- The source part of a copy that has left the pipeline of a tile; and completion words whose store has been performed, or that are none. -/
theorem witness_Engines_parts : let x : CopyCmd := { copyCmd with src := sup.ga 2 0 0x100, pipe := 1 }
    let s := sup.modCore 3 (fun q => { q with copies := [x] })
    (s.copyCore 0 = some 3 ∧ x.buf = none ∧ x.pipe ≠ 0 ∧ x.pipe ≤ s.sched.cycle + 1 ∧ s.ownerRuns (s.owner x.next.1) = true ∧ Within x.next.1 1) ∧
    StatusReady s (some 5) (some (sup.ga 1 0 0x300)) ∧ StatusReady s none none := by
  refine ⟨by unfold Within; decide, Or.inl ⟨5, rfl, by decide⟩, trivial⟩

/-- A swap command of 4 KiB of column 1, in the given state. -/
def swapCmd (st : SwapSt) (ptr : Nat := 0) : SwapCmd :=
  { id := 7, stacked := sup.ga 0 1 0, gddr := sup.ga 3 0 0x10000, len := 4096, writeback := true, outMask := 0, inMask := 0, fin := none, st := st, ptrs := [(ptr, 4096)] }
def swapping (st : SwapSt) (ptr : Nat := 0) (bs : List Burst := []) : State := { sup with eng := { swaps := [swapCmd st ptr], bursts := bs }, sched := { cycle := 40 } }
def burst : Burst := { num := 7, fetch := false, col := 1, off := 0, len := 4096, till := 40 }

theorem witness_Engines_swaps :
    ((swapping .queued).swap 7 = some (swapCmd .queued) ∧ (swapping .queued).swapFirst (swapCmd .queued) = true) ∧
    (swapping (.holding [3] 1)).swap 7 = some (swapCmd (.holding [3] 1)) ∧ (39 : Nat) < (swapping (.holding [] 39)).sched.cycle ∧
    ((swapping .drainwait).swap 7 = some (swapCmd .drainwait) ∧ (swapping .drainwait).swapDrained (swapCmd .drainwait) = true ∧
      (swapping .drainwait).compMeets (swapCmd .drainwait) = false) ∧
    ((swapping (.running 0) 4096 [burst]).burstsDue 7 = [burst] ∧ Within (sup.ga 0 1 0) 4096 ∧ Within (sup.ga 3 0 0x10000) 4096) ∧
    (swapping (.running 0) 4096).swapOver (swapCmd (.running 0) 4096) = true := by
  unfold Within; decide

/-- An entry of 256 bytes that the window holds, and the words of its image: the example after R357, and one with a limit that is none. -/
def smallEntry (st : EntrySt := .valid) (base : Nat := 0x100000) : Entry :=
  { st := st, perms := 0x1F, base := base, limit := base + 0x200, offset := 0, rlo := base, rhi := base + 0x200 }

theorem witness_RangeEntries : let l : List W64 := [0x0012000001000063, 0x07000000, 0x0000017FFF000000, 0x01000000, 0x04000000]
    let s := ranged smallEntry
    let t := ((ranged smallEntry).putEntry 0 31 (smallEntry .valid 0x100200)).noteStart
    let u := ((ranged smallEntry).putEntry 0 31 smallEntry).noteStart
    (sup.wellFormedEntry (l.getD 0 0) (l.getD 1 0) (l.getD 2 0) (l.getD 3 0) (l.getD 4 0) = true ∧ sup.wellFormedEntry 0 0 0 0 0 = false ∧
      (s.entry 0 0).st = .valid ∧ (s.entry 0 1).st = .invalid ∧
      s.entryPatrolled (entryOf (l.getD 0 0) (l.getD 1 0) (l.getD 2 0) (l.getD 3 0) (l.getD 4 0)) = none) ∧
    (bits (0xFFF : W64).toNat 63 12 = 0 ∧ bits (0x1000 : W64).toNat 63 12 ≠ 0) ∧
    (0x100100 % 256 = 0 ∧ (s.entry 0 0).base < 0x100100 ∧ 0x100100 < (s.entry 0 0).limit ∧ (s.entry 0 0).limit = (t.entry 0 31).base) ∧
    s.hits 0 0 0x1001FF = [0] ∧ s.hits 0 0 0x100200 = [] ∧ u.hits 0 0 0x100000 = [0, 31] ∧
    ((ranged (smallEntry .moving)).hits 0 0 0x1001FF = [0] ∧ ((ranged (smallEntry .moving)).startEntry 0 0).st = .moving) := by decide

theorem witness_RangeSteps : let v : Inval := { id := 3, thr := none, sel := 0x1000000000100000, fin := 0x100100, res := false, rmode := false, rlo := 0, rhi := 0
                                                nowait := true, left := [80] }
    let s : State := { ranged (smallEntry .dropping) with eng := { invals := [v] } }
    let f : Fetch := { id := 4, tbl := 0, idx := 0, lo := 0, hi := 0, newLo := 0x100000, newHi := 0x100100, col := 0, ptrs := [(9, 9)], start := 0 }
    let t : State := { ranged (smallEntry .fetching) with eng := { fetches := [f] } }
    let u : State := { ranged (smallEntry .fetching) with eng := { fetches := [{ f with failed := true }] } }
    let o : State := { sup with eng := { invals := [{ v with thr := some 0 }] } }
    (selOk 0x1000000000100000 = true ∧ limitForm 0x1000000000000 = true ∧ selVa 0x1000000000100000 < 0x1000000000000 ∧ sup.outstanding sup.me = [] ∧
      (sup.invalsOf sup.me).length < 8) ∧
    (selOk 1 = false ∧ limitForm 1 = false) ∧ sup.invalsOf sup.me = [] ∧ o.invalsOf o.me ≠ [] ∧ limitForm (0x100001 &&& ~~~1#64) = true ∧
    s.inval 3 = some v ∧ s.dropEnded 0 0 = true ∧
    (t.fetch 4 = some f ∧ f.tbl < 90 ∧ f.idx < 32 ∧ f.dropped = false ∧ (t.entry f.tbl f.idx).st = .fetching ∧ t.heldOn f.tbl f.idx = [] ∧ t.fetchEnded f = true ∧ (∀ x ∈ t.eng.invals, x.later = [])) ∧
    (u.fetch 4 = some { f with failed := true } ∧ (u.entry 0 0).st = .fetching) ∧
    sup.rowWatch 8 (rowList 0x1000 8 8 4) false = none := by decide

/-- A compactor command from one GDDR-7 range to another, in the given state. -/
def comp (st : CompSt) (e : Option Entry := none) : State :=
  { (match e with
     | some e => ranged e
     | none => sup) with eng := { comps := [{ src := sup.ga 3 0 0, dst := sup.ga 3 0 0x10000, len := 0x10000, fin := none, seq := 0, st := st }] } }

def movable (st : EntrySt) (off : Int := 0x300000000000 - 0x100000) : Entry := { smallEntry st with offset := off }

set_option maxRecDepth 8000 in
theorem witness_RangeSteps_compactor : let c : CompCmd := { src := sup.ga 3 0 0, dst := sup.ga 3 0 0x10000, len := 0x10000, fin := none, seq := 0 }
    (comp .queued (some (movable .valid))).compTakeable = true ∧ ((movable .valid).inside c.src c.len = true ∧ c.refused (movable .valid) = false) ∧
    (let e := movable .valid (0x30000000FF00 - 0x100000)
     e.looks = true ∧ c.refused e = true) ∧
    (comp (.drain [(0, 0)] []) (some (movable .moving))).compDrained = true ∧
    ((comp (.move [(0, 0)])).moveReachable c.src c.len = true ∧ (comp (.move [(0, 0)])).moveReachable c.dst c.len = true ∧ Within c.src c.len ∧
      Within c.dst c.len) ∧ ((comp (.move [(0, 0)]) (some (movable .moving))).entry 0 0).st = .moving := by
  unfold Within; decide +kernel

theorem witness_NodeMaps : let i := fun (op : Nat) => isle 1 (word op 1 0) (heads [val 7, val 9])
    let v := isle 1 (word 0x10 1 0 1) (heads [val 7, val 9])
    (NodeReady (i 0x10) 0 1 0x10 ∧ (nodeEnv (i 0x10) 0 1).heads (nodeState (i 0x10) 0 1) (usedPorts (nodeEnv (i 0x10) 0 1).w) =
        some [(0, plain (val 7)), (1, plain (val 9))] ∧ (nodeEnv (i 0x10) 0 1).check (nodeState (i 0x10) 0 1) 1 (plain (val 9)) = none ∧
        sameShape (plain (val 7)) (plain (val 9)) = true ∧ (plain (val 9)).data = true ∧ hasValue kVALUE = true ∧ nwPlane (nodeEnv (i 0x10) 0 1).w ≠ 1 ∧
        nwPlane (nodeEnv v 0 1).w = 1) ∧
    (NodeReady (i 0x20) 0 1 0x20 ∧ Stands (i 0x20) 0 1 0 (plain (val 7)) ∧ (plain tokDone).data = false ∧ (plain tokDone).kind ≠ kPERMIT) ∧
    Stands (isle 1 (word 0x21 7 0) (heads [mkTok kSDV 1 0x200000])) 0 1 0 (plain (mkTok kSDV 1 0x200000)) := by
  unfold NodeReady Stands; decide +kernel

theorem witness_NodeMaps_more : (∀ op ∈ [0x11, 0x12, 0x13, 0x14, 0x15, 0x16, 0x17, 0x18, 0x19, 0x1A, 0x1B, 0x1C, 0x1D, 0x1E, 0x1F, 0x22, 0x23],
      NodeReady (isle 1 (word op 1 0) (heads [val 7, val 9, val 1])) 0 1 op) ∧ NodeReady (isle 1 (word 0x21 7 0) (heads [mkTok kSDV 1 0x200000])) 0 1 0x21 := by
  unfold NodeReady; decide +kernel

/-- An island whose node has inputs of depth 1. -/
def deep (n : Nat) (w : NodeWord) (x : Node) : State :=
  (isle n w x).modIsl 0 (fun i => i.putBank 0 { i.bank 0 with depths := [(4 * n, 1), (4 * n + 1, 1)] })

def pair (c v : Nat) : Tok := mkData kPAIR c v

def two (op : Nat) (a b : Tok) : State := deep 1 (word op 1 0) (heads [a, b])
def At2 (op : Nat) (a b : Tok) : Prop := NodeReady (two op a b) 0 1 op ∧ Stands (two op a b) 0 1 0 (plain a) ∧ Stands (two op a b) 0 1 1 (plain b)

theorem witness_NodeStreams :
    (At2 3 (pair 1 5) (pair 1 6) ∧ coordTok (plain (pair 1 5)) = true) ∧ At2 3 (pair 1 5) (pair 2 6) ∧ At2 3 tokEmpty (pair 2 6) ∧
    (At2 4 (pair 1 5) (pair 1 6) ∧ At2 4 (pair 3 5) (pair 1 6)) ∧ (At2 5 (pair 1 5) (pair 1 6) ∧ At2 5 (pair 1 5) tokEmpty) ∧
    (NodeReady (two 6 (pair 1 5) tokDone) 0 1 6 ∧ (nodeEnv (two 6 (pair 1 5) tokDone) 0 1).redKind kPAIR = true) := by
  refine ⟨⟨?_, by decide +kernel⟩, ?_, ?_, ⟨?_, ?_⟩, ⟨?_, ?_⟩, ?_, by decide +kernel⟩ <;> (try unfold At2) <;> unfold NodeReady <;> (try unfold Stands) <;> decide +kernel

theorem witness_NodeStreams_ends : let one := fun (op : Nat) (x : Node) => deep 1 (word op 1 0) x
    let open_ : Node := { heads [tokStop 0, tokStop 0] with grams := #v[{ begun := true, kind := some 2, coord := some 1 }, { begun := true, kind := some 2, coord := some 1 }, {}] }
    let ovr : Node := { heads [tokDone, tokDone] with grams := #v[{ begun := true, stop := some 0 }, { begun := true, stop := some 0 }, {}] }
    (NodeReady (one 3 open_) 0 1 3 ∧ Stands (one 3 open_) 0 1 0 (plain (tokStop 0)) ∧ Stands (one 3 open_) 0 1 1 (plain (tokStop 0))) ∧
    (NodeReady (one 4 ovr) 0 1 4 ∧ Stands (one 4 ovr) 0 1 0 (plain tokDone) ∧ Stands (one 4 ovr) 0 1 1 (plain tokDone)) ∧
    (NodeReady (one 6 open_) 0 1 6 ∧ Stands (one 6 open_) 0 1 0 (plain (tokStop 0)) ∧ nwOpf (nodeEnv (one 6 open_) 0 1).w = false) := by
  unfold NodeReady Stands; decide +kernel

/-- The end of one input's fibre, past its element, beside an element of the other. -/
theorem witness_NodeStreams_union : let g : Gram := { begun := true, kind := some 2, coord := some 1 }
    let l := deep 1 (word 4 1 0) { heads [pair 3 5, tokStop 0] with grams := #v[{}, g, {}] }
    let r := deep 1 (word 4 1 0) { heads [tokStop 0, pair 3 5] with grams := #v[g, {}, {}] }
    (NodeReady l 0 1 4 ∧ Stands l 0 1 0 (plain (pair 3 5)) ∧ Stands l 0 1 1 (plain (tokStop 0)) ∧ coordTok (plain (pair 3 5)) = true) ∧
    (NodeReady r 0 1 4 ∧ Stands r 0 1 0 (plain (tokStop 0)) ∧ Stands r 0 1 1 (plain (pair 3 5))) := by
  unfold NodeReady Stands; decide +kernel

/-- A reference to segment 0 of a level with one segment, and what the reads of SCAN and SCANL bring. -/
def scanning (op : Nat) (x : Node) : State := deep 1 (word op 1 1) x

theorem witness_NodeStreams_scan : let t := mkData kREF 0 0
    let s := scanning 1 (heads [t])
    let u := scanning 2 { phase := 2, got := [(3, 0)], r1 := 3 }
    let v := scanning 1 { phase := 3, got := [(7, 0)], r1 := 0 }
    let w := scanning 2 { phase := 1 }
    (NodeReady s 0 1 1 ∧ Stands s 0 1 0 (plain t) ∧ (nodeState s 0 1).phase = 0 ∧ (nwConst (nodeEnv s 0 1).w).toNat % 8 = 0 ∧
      tkLow t < nwParam (nodeEnv s 0 1).w ∧ nwCond (nodeEnv s 0 1).w = false) ∧
    (NodeReady u 0 1 2 ∧ (nodeState u 0 1).got = [(3, 0)] ∧ (nodeState u 0 1).r1 = 3) ∧ (NodeReady v 0 1 1 ∧ ((nodeState v 0 1).gram 2).coord = none) ∧
    (NodeReady w 0 1 2 ∧ (nodeState w 0 1).busy = 0 ∧ (nodeState w 0 1).fetchWait = none ∧ w.barred 0 1 = false) := by
  unfold NodeReady Stands; decide +kernel

/-- A scanning node whose segment array an entry of its island's table maps. -/
theorem witness_NodeStreams_read :
    let c : NodeWord := word 1 1 1 + 0x100000
    let s := ((deep 1 c { phase := 1 }).putEntry 80 0 { smallEntry with offset := 0x300000000000 - 0x100000 }).noteStart
    let r := (nodeEnv s 0 1).scanRead (nodeState s 0 1) false
    NodeReady s 0 1 1 ∧ r.1 = 0x100000 ∧ s.translateIsl 0 r.1 r.2.bytes permR = .ok 0x300000000000 [{ tbl := 80, idx := 0, va := 0x100000, len := r.2.bytes, ga := 0x300000000000 }] ∧
      s.mapCheck 0x300000000000 r.2.bytes .plain r.1 = none := by
  unfold NodeReady; decide +kernel

theorem witness_NodeStreams_array : let e := fun (x : Node) => (deep 1 (word 0x50 0 0 1) x).modIsl 0 (fun i => i.putBank 0 { i.bank 0 with depths := [(4, 2)] })
    let s := e (heads [pair 127 5])
    let w : Node := { heads [tokStop 1] with grams := #v[{ begun := true, kind := some 2, coord := some 1 }, {}, {}] }
    let g : Gang := { id := 4, formed := 0, members := [], req := some { isl := 0, node := 1, plane := false, fmt := .int8 } }
    let d := (e {}).modCol 0 (fun x => { x with gangs := [g], plane0 := { st := .ready .int8 } })
    (NodeReady s 0 1 0x50 ∧ Stands s 0 1 0 (plain (pair 127 5))) ∧ (NodeReady (e w) 0 1 0x50 ∧ Stands (e w) 0 1 0 (plain (tokStop 1))) ∧
    (d.gang 0 4 = some g ∧ (d.isl 0).live 1 = true ∧ ((d.col 0).plane g.plane).st = .ready .int8 ∧ g.fails = [] ∧
      badItem ((d.col 0).plane g.plane).marks (((List.range 4).map (planeWords .int8)).flatten) = none) := by
  refine ⟨⟨by unfold NodeReady; decide +kernel, by unfold Stands; decide +kernel⟩, ⟨by unfold NodeReady; decide +kernel, by unfold Stands; decide +kernel⟩, by decide, by decide, by decide, by decide, by decide +kernel⟩

/-- A router node with a condition. -/
def routed (op : Nat) (l : List Tok) (c : Bool) (ph : Nat := 0) : State := isle 64 (word op 1 0) { heads l with conds := [(c, 0)], phase := ph }

theorem witness_NodeControl : (∀ p ∈ [(0x30, 0), (0x30, 1), (0x30, 2), (0x31, 0), (0x31, 1), (0x31, 2), (0x32, 0), (0x32, 1), (0x32, 2), (0x33, 0), (0x33, 1), (0x34, 0),
      (0x35, 0), (0x35, 1), (0x35, 2), (0x36, 0), (0x37, 0)], let s := routed p.1 [val 1, val 2, val 3] true p.2
      NodeReady s 0 64 p.1 ∧ (nodeState s 0 64).phase = p.2 ∧ CondStands s 0 64 true ∧ Stands s 0 64 0 (plain (val 1)) ∧ Stands s 0 64 1 (plain (val 2)) ∧
        Stands s 0 64 2 (plain (val 3))) ∧
    CondStands (routed 0x32 [val 1] false 1) 0 64 false ∧ (nodeState (routed 0x34 [val 1, val 2] true) 0 64).dropLeft = [] := by
  unfold NodeReady Stands CondStands; decide +kernel

theorem witness_NodeControl_more : let f := isle 64 (word 0x33 1 0) { heads [val 1] with store := List.replicate 8 (plain (val 0)) }
    let p := isle 64 (word 0x35 1 0) { heads [val 9, val 1] with ins := #v[[⟨plain (val 9), 0⟩], [⟨plain (val 1), 0⟩], []] }
    let d := isle 64 (word 0x36 1 0) (heads [tokDone, val 2])
    let m := isle 64 (word 0x37 1 0) (heads [val 2])
    let q := isle 0 (word 0x60 1 0) { mesh := [(val 3, 0)] }
    (NodeReady f 0 64 0x33 ∧ 8 ≤ (nodeState f 0 64).store.length) ∧ (NodeReady p 0 64 0x35 ∧ (nodeState p 0 64).headAt 2 0 = none) ∧
    (NodeReady d 0 64 0x36 ∧ Stands d 0 64 0 (plain tokDone) ∧ Stands d 0 64 1 (plain (val 2))) ∧ (NodeReady m 0 64 0x37 ∧ m.mbarBusy 0 64 = false) ∧
    (NodeReady (isle 64 (word 0x39 1 0) (heads [val 2])) 0 64 0x39 ∧ NodeReady (isle 64 (word 0x38 1 0) {}) 0 64 0x38) ∧
    (NodeReady q 0 0 0x60 ∧ (nodeState q 0 0).mesh = [(val 3, 0)] ∧ gramError 0 {} (val 3) = none) ∧
    NodeReady (isle 0 (word 0x61 1 0) (heads [val 2])) 0 0 0x61 := by
  refine ⟨?_, ?_, ?_, ?_, ?_, ?_, ?_⟩ <;> (unfold NodeReady; try unfold Stands) <;> decide +kernel

/-- A barrier that names tile 0, whose memory node in slot 7 has an access under way. -/
theorem witness_NodeControl_barrier : let two := fun (i : Isl) => i.putBank 0 { i.bank 0 with nodes := (i.bank 0).nodes.set 7 (word 0x40 1 0) }
    let s := fun (n : Nat) => (isle 64 (word 0x37 1 1) { heads [val 2] with r0 := n }).modIsl 0 two
    let u := fun (n : Nat) => ({ s n with
      flights := [{ seq := 1, agent := .stream 0 7, op := .load .w false 0, ga := sup.ga 2 0 0, va := 0, size := 4 }] } : State)
    ∀ n, n < 2 → NodeReady (u n) 0 64 0x37 ∧ Stands (u n) 0 64 0 (plain (val 2)) ∧ (u n).mbarBusy 0 64 = true ∧ (nodeState (u n) 0 64).r0 = n := by
  unfold NodeReady Stands; decide +kernel

theorem witness_NodeControl_links : let b : Buf := ⟨plain (val 7), 0⟩
    let w : NodeWord := BitVec.ofNat 128 (0x1D * 2 ^ 120 + 1 * 2 ^ 116 + 1 * 2 ^ 105 + 1 * 2 ^ 96)
    let i := (isle 2 w { outA := [b] }).isl 0
    let p := isle 0 (word 0x61 1 0) { outA := [b] }
    (noOuts (nwOp (nodeAt i.words 2)) = false ∧ (i.node 2).outA = [b] ∧ (i.node 2).outB = [] ∧ (i.node 2).condOut = [] ∧ b.from_ ≤ i.cyc ∧
      consumers i.words 2 0 = [(1, 0)] ∧ i.room 2 (1, 0) = true ∧ nwRep (nodeAt i.words 2) = false) ∧
    (nwOp (nodeAt (p.isl 0).words 0) = 0x61 ∧ (p.isl 0).live 0 = true ∧ ((p.isl 0).node 0).outA = [b] ∧ ((p.isl 0).node 0).roomFor 8 p.sched.cycle = true) := by
  decide +kernel

/-- The last word of a memory tile, which the loads and stores of a memory node reach. -/
theorem witness_NodeControl_memory : let x := val 0x3FFFF
    let s := fun (op : Nat) => isle 7 (word op 1 0) (heads [x, val 5])
    let g := sup.ga 2 0 0xFFFFC
    ∀ op ∈ [0x40, 0x41, 0x42], let d := ((s op).isl 0).env 0 7
      let y := ((s op).isl 0).node 7
      (s op |>.isl 0).live 7 = true ∧ d.markedHead y = none ∧ d.foldHead y = none ∧ y.headAt 0 d.cyc = some (plain x) ∧ d.check y 0 (plain x) = none ∧
        y.headAt 1 d.cyc = some (plain (val 5)) ∧ memIndex (plain x) * memBytes d.w + 4 = 2 ^ 20 ∧ (s op).barred 0 7 = false ∧ (s op).blocked g = false ∧
        (s op).ownerFree g 4 = true ∧ y.store = [] := by decide +kernel

theorem witness_NodeControl_drain : (plain (val 1)).data = true ∧ nwCond (word 0x40 1 0) = false ∧ ({ store := [plain (val 1)], got := [(5, 0)] } : Node).got = [(5, 0)] := by
  decide

/-- A block of a PORTIN at port 0 and a PORTOUT at port 1, its header first. -/
def portNodes : List NodeWord := [BitVec.ofNat 128 (0x60 * 2 ^ 120 + 8 * 2 ^ 105 + 8 * 2 ^ 96)] ++ List.replicate 7 0 ++ [BitVec.ofNat 128 (0x61 * 2 ^ 120)]
def block : List NodeWord := BitVec.ofNat 128 (0x5A7E * 2 ^ 112 + 8 * 2 ^ 104 + 2 ^ 96 + 2 ^ 64 + 1129342125) :: portNodes

/-- Island 0 with that block in bank 0, in the given state. -/
def installed (st : BankSt) (act : Option Nat := none) (q : List Inv := []) (x : Bank → Bank := id) : State :=
  sup.modIsl 0 (fun i => { i with banks := i.banks.set 0 (x (blockBank block st (some (0, 3)))), activeBank := act, queue := q })
def queued : Inv := { id := 2, thr := 0, graph := 1, ops := [], port := 0, ch := 0, n := 2 }

theorem witness_Islands_instructions : let s := State.with sup [(4, 0x1000), (5, 0x900000001), (6, 0xA00000001)]
    (s.isSuper s.me = true ∧ (s.rd 4).toNat % 16 = 0 ∧ s.outstanding s.me = [] ∧ s.rowWatch 16 (rowList 0x1000 16 16 1) false = none ∧
      (s.rowPieces 16 (permR ||| permX) (rowList 0x1000 16 16 1) ([], [])).isOk = true ∧ s.keptWords = none) ∧
    (bits (s.rd 5).toNat 63 36 = 0 ∧ bits (s.rd 5).toNat 35 32 = 9 ∧ bits (s.rd 5).toNat 31 0 ≠ 0) ∧ 9 < bits (s.rd 6).toNat 35 32 ∧
    usr.isSuper usr.me = false := by decide

set_option maxRecDepth 20000 in
theorem witness_Islands_banks : let s := installed .installing
    (sup.isl 0).freeBank = some 0 ∧ (sup.isl 0).installCause block = 0 ∧ (sup.isl 0).installCause [] ≠ 0 ∧
    (((s.isl 0).bank 0).st = .installing ∧ ((s.isl 0).bank 0).installer = some (0, 3) ∧
      Within (s.backingCopy 0 0) (16 * (((s.isl 0).bank 0).nodes.length + 1)) ∧
      s.bytesMoving (s.backingCopy 0 0) (16 * (((s.isl 0).bank 0).nodes.length + 1)) = false ∧ s.bytesMoving (s.backingCopy 0 0) 0x1000 = false) ∧
    (let i := (installed .active (some 0) [queued]).isl 0
     i.queue = [queued] ∧ i.idle = true ∧ i.waiting = [] ∧ i.bankFor queued.graph = some 0 ∧ i.activeBank = some 0 ∧ queued.states = []) ∧
    (let i := (installed .installed none [queued]).isl 0
     i.queue = [queued] ∧ i.idle = true ∧ i.heldReconf = none ∧ i.bankFor queued.graph = some 0 ∧ i.activeBank ≠ some 0) ∧
    (State.reset.isl 0).bankFor 1 = none ∧
    (let i := ((installed .installed).modIsl 0 (fun i => { i with heldReconf := some (0, [(0, 3)]) })).isl 0
     i.idle = true ∧ i.heldReconf = some (0, [(0, 3)]) ∧ (i.bank 0).st = .installed) ∧
    (let i := ((installed .installed).modIsl 0 (fun i => { i with reconf := some { bank := 0 } })).isl 0
     i.reconf = some { bank := 0 } ∧ (i.bank 0).st = .installed) := by
  unfold Within; decide

set_option maxRecDepth 20000 in
theorem witness_Islands_ends : let ovr := isle 0 (word 0x60 1 0) { doneSeen := true }
    let bad := (isle 0 (word 0x60 1 0)).modIsl 0 (fun i => { i with faulting := some (0, 0), cyc := 1 })
    let args := (installed .installed none [] (fun b => { b with nslots := 2 })).isl 0
    let lost := installed .installed none [] (fun b => { b with reloading := true, nodes := [], signature := crc32c [] })
    (ovr.hasEnded 0 = true ∧ (ovr.isl 0).gargs = []) ∧ (bad.reportDue 0 = true ∧ (bad.isl 0).faulting = some (0, 0)) ∧
    (args.liveBank 1 = some 0 ∧ args.run = none ∧ 1 < (args.bank 0).nslots ∧ (args.bank 0).nslots ≤ 2 ∧ args.heldReconf = none) ∧
    (State.reset.isl 0).liveBank 1 = none ∧ ((args.bank 0).st ≠ .free ∧ (args.bank 0).reloading = false) ∧
    (((lost.isl 0).bank 0).reloading = true ∧ lost.readBacking 0 0 = some [] ∧ crc32c [] = ((lost.isl 0).bank 0).signature) ∧
    (let m := (installed .installed none [] (fun b => { b with reloading := true })).setMark (sup.ga 3 0 16) .poison
     m.readBacking 0 0 = none) := by decide +kernel

theorem witness_CountersSampler : let s := State.with (sup.modCol 0 (fun c => { c with barc := c.barc.set 15 0x100000000 })) [(2, 1)]
    let n := (s.col 0).bar 15
    bcTarget ((sup.col 0).bar 15) = 0 ∧ (bcTarget n ≠ 0 → bcPhase n ≠ (s.rd 2).getLsbD 0 ∨ bcPhase n = (s.rd 2).getLsbD 0) ∧
    ((s.rd 0).toNat ≤ ((s.col 0).evCount 15).toNat ∧ ((s.col 0).evCount 15).toNat < (s.rd 2).toNat) ∧ sup.outstanding sup.me = [] ∧
    sup.isSuper sup.me = true ∧ usr.isSuper usr.me = false ∧ (dealt.thr 0).wait = .reply ∧ (255 : Nat) = (0xFF : W64).toNat % 256 ∧
    (fdec fp32 0xFF800000).isNan = false ∧ sup.pkg.ineligible 0 = false := by decide

/-- A barrier with a target of 2, whose phase is `p`. -/
def barred (p : Bool) : State := sup.modCol 0 (fun c => { c with barc := c.barc.set 15 (if p then 0x100000002 else 0x2) })

theorem witness_CountersSampler_barriers : (∃ p q, bcTarget ((barred p).col 0 |>.bar 15) ≠ 0 ∧ bcPhase ((barred p).col 0 |>.bar 15) ≠ q) ∧
    ∃ p q, bcTarget ((barred p).col 0 |>.bar 15) ≠ 0 ∧ bcPhase ((barred p).col 0 |>.bar 15) = q := by
  refine ⟨⟨false, !bcPhase ((barred false).col 0 |>.bar 15), by decide, by decide⟩, false, bcPhase ((barred false).col 0 |>.bar 15), by decide, rfl⟩

/-- A thread that is parked with the wait `w`. -/
def parked (r : Park) (w : Wait) (s : State := sup) : State := s.modThr 0 (fun x => { x with st := .parked r, wait := w })

theorem witness_ParksAndQuiescence : (∀ w ∈ [Wait.tile 3 true, .hold, .bankBusy 1, .masked, .drain, .retry, .queue 0, .invalidations 0, .entry 0 0 true 0, .entryFree 0 0,
      .patrol (.scratch 19 3), .barrier 15 true, .event 15 0],
      (parked .mem w).waitOver 0 = true ∧ ((parked .mem w).thr 0).wait = w) ∧
    ((parked .mem (.fence .sys)).waitOver 0 = true ∧ ((parked .mem (.fence .sys)).thr 0).deferred = []) ∧ (parked .chan (.chan 2) (channed 2 { st := .inb })).waitOver 0 = false ∧
    (let s := State.with sup [(2, 0x7FFFFFFF)]
     s.isSuper s.me = true ∧ (s.rd 2).toNat < 2 ^ 31) ∧ 2 ^ 31 ≤ (0x80000000 : W64).toNat ∧
    ((parked .mem (.quiet 1 1 true 3)).quietFor 0 0 0 true = true ∧ ((parked .mem (.quiet 1 1 true 3)).thr 0).wait = .quiet 1 1 true 3) ∧
    (let s : State := { (parked .chan (.chan 2) (channed 2 { st := .inb })) with sched := { cycle := 4095 } }
     s.deadlockDue 0 = true ∧ s.blockedSlots 0 = [(0, { st := .inb })]) := by decide

theorem witness_ParksAndQuiescence_channels : (parked .chan (.chan 2) (channed 2 { st := .inb, full := true, tok := tokDone })).waitOver 0 = true ∧
    (parked .window (.window 2) (bound .filled)).waitOver 0 = true ∧ (parked .transit (.transit 1) (bound .filled)).noteStart.waitOver 0 = true ∧
    (let s := (parked .mem (.quiet 1 0 false 3)).modCol 0 (fun c => { c with hist := { all := 0xFFFFFFFF, lastTok := 1, by1 := (1, 1), by2 := (2, 1) } })
     s.quietFor 0 1 0 false = false) := by decide +kernel

theorem witness_Contexts : let s := State.with (sup.modThr 15 (fun x => { x with st := .ready })) [(1, 0x1000), (2, 15), (3, 0x3000013FF), (4, 0x400000000), (5, 0x2000000000000000), (6, 0x4000000000000100)]
    let u : State := { s with disp := { gateWaits := [(9, 1, 1), (8, 2, 2)] } }
    (s.isSuper s.me = true ∧ (s.rd 3).toNat < 2 ^ 34 ∧ bits (s.rd 3).toNat 31 13 = 0 ∧ bits (s.rd 3).toNat 12 8 ≤ 19 ∧ (gateUnits (s.rd 3).toNat).length = 3) ∧
    gateUnits 0 = [] ∧ 2 ^ 34 ≤ (s.rd 4).toNat ∧ usr.isSuper usr.me = false ∧ u.disp.gateWaits.find? (fun x => x.1 == 9) = some (9, 1, 1) ∧
    u.disp.gateWaits.find? (fun x => x.1 == 8) = some (8, 2, 2) ∧
    ((s.rd 1).toNat % 64 = 0 ∧ selBad (s.rd 2).toNat = false ∧ s.mapExtent (s.ga 1 0 0x1000) 1536 .bulk 0x1000 = none ∧
      s.translate s.me 0x1000 (selSize (s.rd 2).toNat) permW = .ok (s.ga 1 0 0x1000) [] ∧ s.translate s.me 0x1000 1536 permR = .ok (s.ga 1 0 0x1000) [] ∧
      (self s).deferred = []) ∧
    (s.saveStatus (s.rd 2).toNat = 0 ∧ s.outstanding s.me = [] ∧ selKind (s.rd 2).toNat = 0 ∧ s.settled (selThread (s.rd 2).toNat) = true) ∧
    (State.with sup [(2, 15)]).saveStatus 15 = 2 ∧ (selKind (s.rd 6).toNat = 2 ∧ s.saveStatus (s.rd 6).toNat = 0 ∧ selBad (s.rd 6).toNat = false) ∧
    selKind (s.rd 5).toNat = 1 ∧ s.saveStatus 0x2000000000000100 = 0 := by decide +kernel

/-- An image of an EMPTY slot's successor: READY, every other word 0, with its CRC. -/
def threadImage : Sparse Byte := [(1447, 0x10), (1528, 0x0C), (1529, 0xEC), (1530, 0x1F), (1531, 0x0E), (1532, 1), (1534, 0x1C), (1535, 0x5A)]

set_option maxRecDepth 20000 in
theorem witness_Contexts_image : imageOk 15 threadImage = true ∧ sup.outstanding sup.me = [] ∧ imageOk 15 [] = false ∧ selKind 15 = 0 ∧ (sup.thr (selThread 15)).st = .empty ∧ 15 ≠ sup.me ∧
    bits (gotWord threadImage 180).toNat 63 60 = 1 := by decide +kernel

theorem witness_LaunchAndFreeze : let p : Pkg := { lqtail := 1, bootstat := 0x85 }
    let s : State := { sup with pkg := p, disp := { lq := [(5, 1)] } }
    let l : LaunchLoad := { starts := [(16, 0)], cols := [0] }
    let d : State := { sup with disp := { loading := some 0, data := some l } }
    let b := fun (g : W64) => ({ sup with disp := { loading := some 0, lq := [(0, g)] } } : State)
    let f := sup.modCol 19 (fun c => { c with gateDue := some (10, false, false), cyc := 34 })
    let t := sup.modCol 19 (fun c => { c with stepCore := some 3, cyc := 16 })
    (s.launchTakeable = true ∧ (s.lqWord 0 5).toNat % 256 = 1 ∧ (s.lqWord s.pkg.lqhead.toNat 5).toNat = 1) ∧
    ({ s with disp := {} } : State).launchTakeable = true ∧ ((b 0).disp.loading = some 0 ∧ (b 0).disp.data = none ∧ (b 0).disp.reading = none) ∧
    4 < gaSpace ((b 0x700000000000).lqWord 0 0).toNat ∧
    (let g := ((b 0x300000000000).lqWord 0 0).toNat
     g < 2 ^ 52 ∧ g % 64 = 0 ∧ gaSpace g ≤ 4 ∧ (b 0x300000000000).mapCheck g 64 .bulk 0 = none) ∧
    (d.disp.loading = some 0 ∧ d.disp.data = some l ∧ l.todo = [] ∧ ∀ y ∈ l.starts, y.1 = 16 → y = (16, 0)) ∧
    ((f.col 19).gateDue = some (10, false, false) ∧ (f.col 19).frozen = false ∧ gateCycle 10 false ≤ (f.col 19).cyc) ∧
    (let k := sup.modIsl 9 (fun i => { i with gateDue := some 0, cyc := 24 })
     (k.isl 9).gateDue = some 0 ∧ (k.isl 9).frozen = false ∧ 0 + 24 ≤ (k.isl 9).cyc) ∧
    ((t.col 19).stepCore.isSome = true ∧ (t.col 19).frozen = false ∧ (t.col 19).fcyc.toNat + 16 ≤ (t.col 19).cyc) ∧ sup.sched.stopped = false := by decide

/-- A header of an image of `n` bytes without sections. -/
def imageHeader (n : Byte) : Sparse Byte := [(0, 0x6E), (1, 0x1A), (2, 0x71), (3, 0x5A), (4, 1), (8, 1), (12, n)]

/-- A launch whose image, or its header, has been read. -/
def imageHere (whole : Bool) (got : Sparse Byte) (bad : Option TrapInfo := none) : State :=
  { sup with
    disp := { loading := some 0, lq := [(0, 0x300000000000)], reading := some (1, whole) }
    flights := [{ seq := 1, agent := .launch, op := .gather [] got .image, ga := 0x300000000000, va := 0, size := 64, waiting := true, bad := bad }] }

/-- A launch with one data section, of core 0, that is still to be written. -/
def dataLeft (va : Nat) : State :=
  { sup with disp := { loading := some 0, data := some { todo := [{ core := 0, va := va, bytes := [1], vc := 0 }], starts := [], cols := [0] } } }

theorem witness_LaunchAndFreeze_image :
    ((imageHere false [] (some { cause := 9 })).readDone 1 = some ([], true)) ∧
    ((imageHere false []).readDone 1 = some ([], false) ∧ headerOk [] = false) ∧
    (headerOk (imageHeader 96) = true ∧ imgLe (imageHeader 96) 12 4 = 96 ∧ sup.mapCheck 0x300000000000 96 .bulk 0 = none) ∧
    ((sup.mapCheck 0x303FFFFFFFC0 96 .bulk 0).isSome = true) ∧
    (let s := imageHere true []
     s.readDone 1 = some ([], false) ∧ ((s.dropFlight 1).launchRefused 0 []).isSome = true) ∧
    (let s := dataLeft 0
     ∃ l x via, s.disp.data = some l ∧ l.flight.any (fun k => (s.flight k).isSome) = false ∧ l.todo = [x] ∧ s.dataGa x = .ok (s.ga 1 0 0) via ∧
       s.mapCheck (s.ga 1 0 0) x.bytes.length .bulk 0 = none) ∧
    (∃ f, (dataLeft 0x100000).dataGa { core := 0, va := 0x100000, bytes := [1], vc := 0 } = .fault f) := by
  refine ⟨by decide +kernel, by decide +kernel, by decide +kernel, by decide +kernel, by decide +kernel, ⟨_, _, _, rfl, by decide, rfl, rfl, by decide⟩, ⟨_, rfl⟩⟩

theorem witness_HostAndChain : let s : State := { State.reset with pkg := { pkgNo := 1, pkgCount := 2, eastUp := true, westUp := true, bar2win := 0x0001300000000000 } }
    let g := s.bar2Ga 0x1000
    let h : Access := { seq := 1, agent := .thread 0, op := .load .d false 3, ga := s.ga 4 0 0, va := 0, size := 8 }
    let w : Access := { h with op := .store .d false 0 }
    let u : State := { s with flights := [h] }
    let v : State := { s with flights := [w] }
    (s.host.held = [] ∧ s.host.busy = none ∧ s.pkg.rcctl = 0 ∧ s.mapCheck g 64 .plain 0 = none ∧ gaSpace g ≠ 5) ∧
    (u.flight 1 = some h ∧ u.atHost h = true ∧ h.op.isWrite = false ∧ h.op.inPieces = false ∧ v.flight 1 = some w ∧ v.atHost w = true ∧
      w.op.isWrite = true) ∧
    (0 < s.pkg.pkgNo.toNat ∧ s.pkg.westUp = true ∧ s.linkUp 2 = true ∧ s.host.westLost = false) ∧ ({ s with host := { westLost := true } } : State).host.westLost = true ∧
    (s.pkg.pkgNo ≠ 0 ∧ ({ s with pkg := { s.pkg with pkgNo := 0 } } : State).pkg.pkgNo = 0) ∧
    (let f : State := { s with host := { held := [.hostBar2Read 0 8] } }
     f.host.held ≠ []) ∧ gaSpace (({ s with pkg := { s.pkg with bar2win := 0x500000000000 } } : State).bar2Ga 0) = 5 := by decide +kernel

/-- A request of the host whose one part stands at its owner, and a row of a TLD in the host window. -/
theorem witness_HostAndChain_parts : let g := sup.ga 1 0 0x20000
    let a := fun (op : AccOp) => ({ seq := 1, agent := .host, op := op, ga := g, va := 0, size := 8 } : Access)
    let s := fun (op : AccOp) => ({ sup with flights := [a op] } : State)
    let h : Access := { seq := 1, agent := .thread 0, op := .gather [onePiece (sup.ga 4 0 0) 64] [] (.tile 4), ga := sup.ga 4 0 0, va := 0, size := 64 }
    (∀ op ∈ [AccOp.gather [onePiece g 8] [] .host, .hostWrite [onePiece g 8] [some 1]], (s op).flight 1 = some (a op) ∧ (s op).standing (a op) = true ∧
      (s op).pieceReady (onePiece g 8) = true) ∧ Within g 8 ∧ sup.owner g = .bank 0 0 ∧
    ({ sup with flights := [h] } : State).flight 1 = some h ∧ ({ sup with flights := [h] } : State).atHost h = true := by
  refine ⟨by decide, by unfold Within; decide, by decide, by decide, by decide⟩

theorem witness_HostAndChain_lost : let s : State := { State.reset with pkg := { pkgNo := 1, pkgCount := 2, eastUp := true, westUp := true } }
    let a : Access := { seq := 1, agent := .thread 0, op := .load .d true 3, ga := mkGa 0 1 0 0, va := 0, size := 8 }
    a ∈ ({ s with flights := [a] } : State).lostFlights true ∧ 4096 < 4097 ∧ 512 < (List.replicate 513 (none : Option Byte)).length := by decide +kernel

/-- A column's stacked segment in the given state, and the patrol tester on a scratchpad segment. -/
def retains (r : RetSt) (n : Nat := 1048576) : State :=
  { (sup.modCol 19 (fun c => { c with retMask := 0x80000000, ret := [(31, r)] })) with sched := { cycle := n } }
def patrolling (p : Patrol) : State := { sup with eng := { patrol := p } }

theorem witness_PowerAndPatrol :
    (({ (sup.modCol 19 (fun c => { c with retMask := 0x80000000 })) with sched := { cycle := 1048576 } } : State).retentionDue 19 31 = true) ∧
    ((retains (.entering 9 true)).col 19).retOf 31 = .entering 9 true ∧ ((retains (.leaving 9)).col 19).retOf 31 = .leaving 9 ∧
    (patrolling { enabled := true }).claimable (.scratch 1 3) = true ∧
    ((patrolling { seg := some (.scratch 0 3) }).eng.patrol.seg = some (.scratch 0 3) ∧ (0 + 1) * 65536 < (sup.segRange (.scratch 0 3)).2 ∧
      (sup.segRange (.scratch 0 3)).2 ≤ (15 + 1) * 65536) ∧
    ((patrolling { releasing := true }).eng.patrol.releaseAt = none ∧ 0 < sup.pkg.mhz ∧ (patrolling { releasing := true, releaseAt := some 0 }).eng.patrol.releaseAt = some 0) ∧
    (bottomWorks sup = true ∧ topWorks sup = true ∧ sup.mgmt.pendingMhz = none ∧ sup.pkg.cap < 301 ∧ 10 * 269 < 9 * sup.pkg.cap ∧ sup.mgmt.off = false) ∧
    (1500 ≠ sup.pkg.mhz ∧ sup.sched.cycle % 16 = 0 ∧ sup.sched.pos = 0) ∧ bottomWorks { sup with pkg := { loops := 2 } } = false := by decide +kernel

/-- A segment with a word that SECDED corrects, and with a block that BCH cannot correct. -/
theorem witness_PowerAndPatrol_marks : let w := sup.ga 0 19 (31 * 2 ^ 24) / 8
    let s : State := { retains (.leaving 9) with mem := { marks := [(w, .correctable)], blocks := [(w / 8, .uncorrectable)] } }
    s.mem.wf = true ∧ s.inSegment 19 31 w = true ∧ sget .clean s.mem.marks w = .correctable ∧ s.inSegment 19 31 (8 * (w / 8)) = true ∧
      sget .clean s.mem.blocks (w / 8) = .uncorrectable := by decide +kernel

theorem witness_Management : let s := { sup with pkg := { bootstat := 0 } }
    let r (n : BitVec 64) : State := { s with pkg := { bootstat := n } }
    (sup.mgmt.off = false ∧ ({ sup with mgmt := { off := true } } : State).mgmt.off = true) ∧
    (sup.sparesUsed 19 63 < 16 ∧ sup.repairNow 19 63 = true ∧ (ranged { smallEntry with offset := 0 - 0x100000 }).repairNow 0 0 = false) ∧
    (s.pkg.bootstat.getLsbD 7 = false ∧ (r 0x85).pkg.bootstat.getLsbD 7 = true) ∧
    (s.stage = 0 ∧ (r 1).stage = 1 ∧ (r 4).stage = 4 ∧ bits s.pkg.bootstat.toNat 15 8 = 0) := by decide +kernel

/-- A record of a BAR2 write of 16 bytes, due at once. -/
theorem witness_Management_replay : let s : State := { sup with pkg := { rcctl := 0x200000004 } }
    let t := s.writeN (s.replayGa + 8) (2 ^ 60 + 0x1000) 8
    t.replayDue = true ∧ bits (t.readN (t.replayGa + 8) 8) 63 60 = 1 ∧ t.readN (t.replayGa + 8) 8 % 2 ^ 52 = 0x1000 ∧
      t.mapCheck (t.bar2Ga 0x1000) 16 .plain 0 = none ∧ gaSpace (t.bar2Ga 0x1000) ≠ 5 := by decide +kernel

theorem witness_DecodeOfEncode : WellFormed (.addi 3 31 0xFFFF) = true ∧ encode (.addi 3 31 0xFFFF) = some 0x147FFFFF ∧ reads 0x147FFFFF (.addi 3 31 0xFFFF) := by
  decide

theorem witness_StepKeepsSound : Sound (sup.modCore 0 (fun x => { x with tq := List.replicate 16 {} })) := by
  have h : Sound sup := ⟨by decide, fun q => Nat.zero_le 16⟩
  exact sound_putCore h 0 _ (by decide)

theorem witness_StepRunsDecoded : let s := sup.placeWord 0x147FFFFF
    s.sched.stopped = false ∧ s.takeDue s.sched.agenda = none ∧ s.sched.pos < 80 ∧ s.nextIssuer s.sched.pos (80 - s.sched.pos) = some 0 ∧
    (s.setIssuing 0).issueTrap = none ∧ s.wordAt 0 = 0x147FFFFF := by decide +kernel

/-! ### Worked examples of the spec, one step each -/

/-- The state after an instruction. -/
def run (i : Instr) (s : State) : State := match exec i s with
  | .next t => t
  | _ => s

/-- The answer of an instruction in a scalar register, from some registers. -/
def gives (i : Instr) (l : List (Reg × W64)) (d : Reg) : W64 := (run i (State.with sup l)).rd d

/-- R113: a quotient truncates toward zero, and a remainder takes the sign of the dividend (by hand: −7 / 2). -/
theorem test_division : gives (.div 5 1 2) [(1, -7), (2, 2)] 5 = -3 ∧ gives (.rem 5 1 2) [(1, -7), (2, 2)] 5 = -1 ∧
    gives (.divu 5 1 2) [(1, 7)] 5 = -1 ∧ gives (.remu 5 1 2) [(1, 7)] 5 = 7 := by decide

/-- R113: the high word of −1 × −1 and of (2^64 − 1)^2. -/
theorem test_high_products : gives (.mulh 5 1 1) [(1, -1)] 5 = 0 ∧ gives (.mulhu 5 1 1) [(1, -1)] 5 = -2 := by decide

/-- R114: the example of the rule. -/
theorem test_bext : gives (.bext 5 4 9) [(4, 0xABCD1234), (9, 0x0F10)] 5 = 0xABCD := by decide
theorem test_bins : gives (.bins 5 6 9) [(5, -1), (6, 0x5555), (9, 0x0F10)] 5 = 0xFFFFFFFF5555FFFF := by decide

/-- R118: the example of the rule. -/
theorem test_movk : gives (.movk 7 2 0x1234) [(7, -1)] 7 = 0xFFFF1234FFFFFFFF := by decide

/-- R121: a count of 0 wraps and branches, and a count of 1 falls through. -/
theorem test_loop : let s := run (.loop 3 0x1FFFFF) ((State.with sup [(3, 0)]).modThr 0 (fun x => { x with pc := 3 }))
    let t := run (.loop 3 0x1FFFFF) ((State.with sup [(3, 1)]).modThr 0 (fun x => { x with pc := 3 }))
    s.rd 3 = -1 ∧ (s.thr 0).pc = 2 ∧ t.rd 3 = 0 ∧ (t.thr 0).pc = 4 := by decide

/-- R127: the examples of the rule; an inexact result sets NX. -/
theorem test_fcvt : gives (.fcvt 6 5 .bf16 .fp32) [(5, 0x3F808000)] 6 = 0x3F80 ∧
    ((run (.fcvt 6 5 .bf16 .fp32) (State.with sup [(5, 0x3F808000)])).thr 0).fpm = 0b0000100 ∧
    gives (.fcvt 6 5 .int8 .fp32) [(5, 0xC3000000)] 6 = 0xFFFFFFFFFFFFFF80 ∧
    gives (.fcvt 6 5 .int8 .fp32) [(5, 0x43028000)] 6 = 0x7F := by decide

/-- R127: rounding up instead. -/
theorem test_fcvt_up : let s := (State.with sup [(5, 0x3F808000)]).modThr 0 (fun x => { x with fpm := 0b10 })
    (run (.fcvt 6 5 .bf16 .fp32) s).rd 6 = 0x3F81 ∧ ((run (.fcvt 6 5 .bf16 .fp32) s).thr 0).fpm = 0b0000110 := by decide +kernel

/-- R123 to R126: 1 + 2^−24 is inexact and rounds to even; 1/0 is an infinity with DZ; √4 is 2 (worked out by hand). -/
theorem test_scalar_float : gives (.fadd 6 5 4) [(5, 0x3F800000), (4, 0x33800000)] 6 = 0x3F800000 ∧
    gives (.fdiv 6 5 4) [(5, 0x3F800000)] 6 = 0x7F800000 ∧ gives (.fsqrt 6 5) [(5, 0x40800000)] 6 = 0x40000000 ∧
    gives (.fnma 6 5 4) [(6, 0x3F800000), (5, 0x40000000), (4, 0x40000000)] 6 = 0xC0400000 := by decide +kernel

/-- Lanes of 32 bits, the first at the lowest place. -/
def lanes32 (l : List Nat) : Vec := BitVec.ofNat 512 (l.foldr (fun x r => x + 2 ^ 32 * r) 0)

/-- R138: one mask of ones per negative lane, and 100 in the negative lanes. -/
theorem test_vsra_vsel :
    let s := sup.modThr 0 (fun x => ((x.putV 1 (lanes32 [7, 0xFFFFFFFD])).putV 9 (lanes32 (List.replicate 16 31))).putV 3 (lanes32 (List.replicate 16 100)))
    let t := run (.vsra .i32 0 2 1 9) s
    t.rdV 2 = lanes32 [0, 0xFFFFFFFF] ∧ (run (.vsel 0 2 3 1) t).rdV 2 = lanes32 [7, 100] := by decide +kernel

/-- R130: |−128| saturates in a lane of 8 bits, and 127 + 1 saturates (worked out by hand). -/
theorem test_vabs_vadds : let s := sup.modThr 0 (fun x => (x.putV 1 0x7F80).putV 2 0x0100)
    (run (.vabs .i8 0 3 1) s).rdV 3 = 0x7F7F ∧ (run (.vadds .i8 0 3 1 2) s).rdV 3 = 0x7F80 := by decide +kernel

/-- R185: CRWR writes FPMODE whole. -/
theorem test_crwr_fpmode : ((run (.crwr 7 0) (State.with sup [(7, 0x06)])).thr 0).fpm = 0b0000110 := by decide +kernel

/-- R170: TSHAPE5 of column 3. -/
theorem test_register_offset : regAt 0x30028 = .col 3 0x205 := by decide

/-- The example of R186: column 2, core 1, slot 6, at word 42. -/
theorem test_trap_record :
    let s : State := { (State.reset.modThr 150 (fun x => { x with st := .ready, pc := 42 })).modCore 9 (fun x => { x with code := [(42, 0x90A44004)] }) with
      sched := { cycle := 0, time := 0x12A40 * 18 } }
    s.record 150 { cause := 0x04, sub := 1, w2 := 0x40000010 } =
      { w0 := 0x0464400090A44004, w1 := 0x2A, w2 := 0x40000010, w3 := 0x00012A4000010000 } := by decide +kernel

/-- The example of R190: column 5, core 2, SEG.BASE 0x300. -/
theorem test_core_window : (State.reset.modThr 352 (fun x => { x with seg := 0x300 })).translate 352 0x1040 8 permR = .ok 0x128000101040 [] := by decide +kernel

/-- The examples of R357 and R369: an entry from its words, and a probe outside its window. -/
theorem test_range_entry : let s := run (.rgset 2 (.entry 2) 10) (State.with sup [(10, 0x0012000001000063), (11, 0x07000000), (12, 0x0000017FFF000000),
      (13, 0x01000000), (14, 0x04000000)])
    let t := run (.rgprobe 4 3) (s.noteStart.modThr 0 (fun x => { x.putS 3 0x04008000 with ctag := 0x012 }))
    s.rd 2 = 0 ∧ t.rd 4 = 0x0700000000630002 ∧ t.rd 5 = 0x018003008000 := by decide

/-- The example of R351: a batch of two, then of two, then one that is too large alone. -/
def heap351 : State := { (sup.modThr 0 (fun x => { x with wait := .reply })) with
  pkg := { State.reset.pkg with tbudget := 100, iter := 41 }, disp := { heap := [⟨3, 1000, 30⟩, ⟨7, 1000, 40⟩, ⟨9, 1200, 50⟩, ⟨2, 1500, 10⟩] } }

theorem test_dpop_batches : dealBatch 100 heap351.disp.heap = ([⟨3, 1000, 30⟩, ⟨7, 1000, 40⟩], false) ∧
    dealBatch 100 [⟨9, 1200, 50⟩, ⟨2, 1500, 10⟩] = ([⟨9, 1200, 50⟩, ⟨2, 1500, 10⟩], false) ∧
    dealBatch 100 [⟨5, 900, 300⟩] = ([⟨5, 900, 300⟩], true) := by decide

/-- The example of R453. -/
theorem test_bar2_window : ({ State.reset with pkg := { State.reset.pkg with bar2win := 0x300000000000 } } : State).bar2Ga 0x100000 = 0x300000100000 := by decide

/-- The example of R422: the largest eligible lane of thread T0 is 3.25 at index 5. -/
theorem test_smaxk : let s : State := { (sup.modThr 0 (fun x => x.putV 2 (lanes32 [0, 0, 0, 0, 0, 0x40500000]))) with
      pkg := { State.reset.pkg with vocabLimit := 32, padlo := 30, padhi := 31 } }
    (run (.smaxk 4 2 7 true) s).rd 4 = 0x0000000540500000 := by decide +kernel

end Sys2Proof.Tests
end

section
/-! PROOFS. The statements of control and status registers (R168 to R185): first what a write, a set, a clear and a read of a register do in
terms of its writable bits (R8, R185), then the register-access instructions, then the registers one by one. -/
namespace Sys2Proof.Proofs.ScopeRegisters
open Sys2Proof Sys2Proof.Machine Sys2Proof.Safety

/-! ### Writable bits as operations on words -/

/-- The bits of `v` at the ones of the mask `m`, and those of `old` elsewhere. -/
def mergeBits (m : Nat) (old v : W64) : W64 := (old &&& ~~~w64 m) ||| (v &&& w64 m)

/-- The bits of `old` with those of `v` under the mask `m` set, or cleared. -/
def changeBits (on : Bool) (m : Nat) (old v : W64) : W64 := if on then old ||| (v &&& w64 m) else old &&& ~~~(v &&& w64 m)

theorem ite_lt {p : Prop} [Decidable p] {a b c : Nat} (ha : a < c) (hb : b < c) : (if p then a else b) < c := by
  split <;> assumption

/-- The writable bits of every register lie within its 64 bits. -/
theorem rwMask_lt (l : RegLoc) : rwMask l < 2 ^ 64 := by
  cases l <;> dsimp only [rwMask] <;> (with_reducible repeat' apply ite_lt) <;> decide

theorem w64_and (a b : Nat) : w64 (a &&& b) = w64 a &&& w64 b := BitVec.ofNat_and

theorem w64_toNat (x : W64) : w64 x.toNat = x := BitVec.ofNat_toNat 64 x |>.trans (BitVec.setWidth_eq x)

/-- The ones of a word outside a mask, as `writeReg` and `changeReg` write them. -/
theorem w64_compl {m : Nat} (hm : m < 2 ^ 64) : w64 (2 ^ 64 - 1 - m) = ~~~w64 m := by
  apply BitVec.eq_of_toNat_eq
  simp only [w64, BitVec.toNat_ofNat, BitVec.toNat_not]
  omega

theorem w64_mergeBits {m : Nat} (hm : m < 2 ^ 64) (old v : W64) :
    w64 ((old.toNat &&& (2 ^ 64 - 1 - m)) + (v.toNat &&& m)) = mergeBits m old v := by
  have hdisjoint : (old &&& ~~~w64 m) &&& (v &&& w64 m) = 0#64 := by
    ext i
    cases h : (w64 m)[i] <;> simp [h]
  calc w64 ((old.toNat &&& (2 ^ 64 - 1 - m)) + (v.toNat &&& m))
      = w64 (old.toNat &&& (2 ^ 64 - 1 - m)) + w64 (v.toNat &&& m) := BitVec.ofNat_add _ _
    _ = (old &&& ~~~w64 m) + (v &&& w64 m) := by rw [w64_and, w64_and, w64_compl hm, w64_toNat, w64_toNat]
    _ = mergeBits m old v := BitVec.add_eq_or_of_and_eq_zero _ _ hdisjoint

theorem w64_changeBits {m : Nat} (hm : m < 2 ^ 64) (old v : W64) (on : Bool) :
    w64 (if on then old.toNat ||| (v.toNat &&& m) else old.toNat &&& (2 ^ 64 - 1 - (v.toNat &&& m))) = changeBits on m old v := by
  cases on with
  | true => simp [changeBits, w64, BitVec.ofNat_or, BitVec.ofNat_and]
  | false =>
    have hlt : v.toNat &&& m < 2 ^ 64 := Nat.lt_of_le_of_lt Nat.and_le_right hm
    simp only [changeBits, Bool.false_eq_true, if_false]
    rw [w64_and, w64_compl hlt, w64_and, w64_toNat, w64_toNat]

/-- A field of `n` bits from bit `lo` on, all of them writable, takes the bits of the value written. -/
theorem extract_mergeBits {m lo n : Nat} (h : (w64 m).extractLsb' lo n = BitVec.allOnes n) (old v : W64) :
    (mergeBits m old v).extractLsb' lo n = v.extractLsb' lo n := by
  ext i hi
  have hbit : (w64 m).getLsbD (lo + i) = true := by
    simpa [hi] using congrArg (BitVec.getLsbD · i) h
  simp [mergeBits, hbit]

/-- The low bits of a register, all of them writable, take those of the value written. -/
theorem setWidth_mergeBits {m n : Nat} (hn : n ≤ 64) (h : (w64 m).setWidth n = BitVec.allOnes n) (old v : W64) :
    (mergeBits m old v).setWidth n = v.setWidth n := by
  simp [mergeBits, h, BitVec.setWidth_or, BitVec.setWidth_and, BitVec.setWidth_not hn]

/-- A register of 64 writable bits takes the value written. -/
theorem mergeBits_all (old v : W64) : mergeBits (2 ^ 64 - 1) old v = v := by
  simpa using setWidth_mergeBits (n := 64) (by decide) (by decide) old v

/-- A register without writable bits keeps all of its bits. -/
theorem mergeBits_none (old v : W64) : mergeBits 0 old v = old := by
  have hall : ~~~w64 0 = BitVec.allOnes 64 := by decide
  have hnone : w64 0 = 0#64 := rfl
  rw [mergeBits, hall, hnone, BitVec.and_allOnes, BitVec.and_zero, BitVec.or_zero]

theorem setWidth_changeBits_true {m n : Nat} (h : (w64 m).setWidth n = BitVec.allOnes n) (old v : W64) :
    (changeBits true m old v).setWidth n = old.setWidth n ||| v.setWidth n := by
  simp [changeBits, h, BitVec.setWidth_or, BitVec.setWidth_and]

theorem setWidth_changeBits_false {m n : Nat} (hn : n ≤ 64) (h : (w64 m).setWidth n = BitVec.allOnes n) (old v : W64) :
    (changeBits false m old v).setWidth n = old.setWidth n &&& ~~~(v.setWidth n) := by
  simp [changeBits, h, BitVec.setWidth_not hn, BitVec.setWidth_and]

/-- A field of `n` bits at bit `lo`, placed in a word, lies within the mask of those bits. -/
theorem field_and_mask {n : Nat} (x : BitVec n) (lo : Nat) :
    w64 (x.toNat * 2 ^ lo) &&& w64 ((2 ^ n - 1) * 2 ^ lo) = w64 (x.toNat * 2 ^ lo) := by
  rw [← w64_and]
  congr 1
  apply Nat.eq_of_testBit_eq
  intro i
  simp only [Nat.testBit_and, Nat.testBit_mul_two_pow, Nat.testBit_two_pow_sub_one, BitVec.testBit_toNat]
  rcases Nat.lt_or_ge (i - lo) n with h | h
  · by_cases hlo : lo ≤ i <;> simp [h, hlo]
  · simp [BitVec.getLsbD_of_ge x _ h]

/-- And no bit outside it. -/
theorem field_and_not_mask {n : Nat} (x : BitVec n) (lo : Nat) :
    w64 (x.toNat * 2 ^ lo) &&& ~~~w64 ((2 ^ n - 1) * 2 ^ lo) = 0#64 := by
  rw [← field_and_mask, BitVec.and_assoc, BitVec.and_not_self]
  exact BitVec.and_zero

/-- A register whose only bits are a field of RW bits reads as that field is now. -/
theorem mergeBits_field {n : Nat} (x y : BitVec n) (lo : Nat) :
    mergeBits ((2 ^ n - 1) * 2 ^ lo) (w64 (x.toNat * 2 ^ lo)) (w64 (y.toNat * 2 ^ lo)) = w64 (y.toNat * 2 ^ lo) := by
  rw [mergeBits, field_and_not_mask, field_and_mask, BitVec.zero_or]

/-! ### What a write, a set, a clear and a read of a register do -/

/-- A write of all bits of a register that holds no reserved encoding back: its RW bits are replaced, its W1C bits are cleared where the
value has ones, and the command is the value's (R8, R185). -/
theorem writeReg_all {s : State} {l : RegLoc} (hp : ∀ i, l ≠ .plate i) (hk : ∀ old new, s.heldFields l old new = new) (v : W64) :
    s.writeReg l v (2 ^ 64 - 1) =
      s.putReg l (mergeBits (rwMask l) (s.readReg l) v) (v.toNat &&& w1cMask l) (bits v.toNat 63 61) := by
  have hmask : rwMask l &&& (2 ^ 64 - 1) = rwMask l := Nat.and_two_pow_sub_one_of_lt_two_pow (rwMask_lt l)
  have hall : v.toNat &&& (2 ^ 64 - 1) = v.toNat := Nat.and_two_pow_sub_one_of_lt_two_pow v.isLt
  have hcmd : bits (2 ^ 64 - 1) 63 61 = 7 := by decide
  unfold State.writeReg
  cases l with
  | plate i => exact absurd rfl (hp i)
  | _ => simp only [hk, hmask, hall, hcmd, if_true, w64_mergeBits (rwMask_lt _)]

/-- A set or clear of bits of a register with RW bits that holds no reserved encoding back changes its RW bits alone (R185). -/
theorem changeReg_eq {s : State} {l : RegLoc} (hrw : rwMask l ≠ 0) (hk : ∀ old new, s.heldFields l old new = new) (v : W64) (on : Bool) :
    s.changeReg l v on = s.putReg l (changeBits on (rwMask l) (s.readReg l) v) 0 0 := by
  unfold State.changeReg
  rw [if_neg hrw, hk, ← w64_changeBits (rwMask_lt l)]

/-- A register of a thread is read with its RW bits as they are now and its other bits as they stood at the start of the cycle (R8). -/
theorem shownReg_thread (s : State) (t n : Nat) : s.shownReg (.thread t n) =
    mergeBits (rwMask (.thread t n)) (s.before.readThreadReg t n) (s.readThreadReg t n) := by
  simp [State.shownReg, State.countedNow, w1cMask, rcMask, State.readReg, mergeBits, w64, BitVec.or_comm]

/-! ### The register-access instructions (R185) -/

theorem crChecked_pass {s : State} {sup : Bool} (h : sup = true → s.isSuper s.me = true) (go : State → State) : s.crChecked sup go = go s := by
  cases sup with
  | false => rfl
  | true => exact if_pos (h rfl)

theorem crChecked_user {s : State} (h : s.isSuper s.me = false) (go : State → State) : s.crChecked true go = s.trapMe (cause 0x18) :=
  if_neg (c := s.isSuper s.me = true) (h ▸ Bool.false_ne_true)

/-- At USER, an instruction on a register of SUPERVISOR traps with PRIVILEGE. -/
theorem traps_of_user {i : Instr} {s : State} {sup : Bool} {go : State → State} (hu : s.isSuper s.me = false)
    (hi : exec i s = .next (s.crChecked sup go)) (hsup : sup = true) : Traps i s { cause := 0x18 } := by
  subst hsup
  exact hi.trans (congrArg Host.Outcome.next (crChecked_user hu go))

section
variable {s : State} {n : BitVec 14}

theorem exec_crrd_thread (d : Reg) (hn : n.toNat < 0x100) :
    exec (.crrd d n) s = .next (s.wr d (s.shownReg (.thread s.me n.toNat))).finish := by
  have hname : regNamed s.me n.toNat = .thread s.me n.toNat := if_pos hn
  have hread : readSuper n.toNat = false := by simp [readSuper]; omega
  refine congrArg Host.Outcome.next ((crChecked_pass (fun h => absurd (hread ▸ h) Bool.false_ne_true) _).trans ?_)
  simp only [hname]
  rfl

theorem exec_crwr (l : RegLoc) (a : Reg) (hl : regNamed s.me n.toNat = l) (hp : ∀ i, l ≠ .plate i)
    (hk : ∀ old new, s.heldFields l old new = new) (h : writeSuper n.toNat = true → s.isSuper s.me = true) : exec (.crwr a n) s = .next (s.putReg l
      (mergeBits (rwMask l) (s.readReg l) (s.rd a)) ((s.rd a).toNat &&& w1cMask l) (bits (s.rd a).toNat 63 61)).finish := by
  subst hl
  refine congrArg Host.Outcome.next ((crChecked_pass h _).trans ?_)
  rw [writeReg_all hp hk]

theorem exec_crset (l : RegLoc) (a : Reg) (hl : regNamed s.me n.toNat = l) (hrw : rwMask l ≠ 0) (hk : ∀ old new, s.heldFields l old new = new)
    (h : writeSuper n.toNat = true → s.isSuper s.me = true) :
    exec (.crset a n) s = .next (s.putReg l (changeBits true (rwMask l) (s.readReg l) (s.rd a)) 0 0).finish := by
  subst hl
  refine congrArg Host.Outcome.next ((crChecked_pass h _).trans ?_)
  rw [changeReg_eq hrw hk]

theorem exec_crclr (l : RegLoc) (a : Reg) (hl : regNamed s.me n.toNat = l) (hrw : rwMask l ≠ 0) (hk : ∀ old new, s.heldFields l old new = new)
    (h : writeSuper n.toNat = true → s.isSuper s.me = true) :
    exec (.crclr a n) s = .next (s.putReg l (changeBits false (rwMask l) (s.readReg l) (s.rd a)) 0 0).finish := by
  subst hl
  refine congrArg Host.Outcome.next ((crChecked_pass h _).trans ?_)
  rw [changeReg_eq hrw hk]

end

/-! ### Registers of a thread (R171, R172, R173) -/

/-- FPMODE reads as it is now. -/
theorem shownReg_fpmode (s : State) (t : Nat) : s.shownReg (.thread t 0) = (s.thr t).fpm.zeroExtend 64 := by
  have h := mergeBits_field (s.before.thr t).fpm (s.thr t).fpm 0
  rw [Nat.pow_zero, Nat.mul_one, Nat.mul_one, Nat.mul_one] at h
  rw [shownReg_thread]
  exact h.trans (BitVec.ofNat_toNat 64 _)

/-- SEG reads as it is now. -/
theorem shownReg_seg (s : State) (t : Nat) : s.shownReg (.thread t 1) = BitVec.ofNat 64 ((s.thr t).seg.toNat * 2 ^ 12) :=
  (shownReg_thread s t 1).trans (mergeBits_field (s.before.thr t).seg (s.thr t).seg 12)

theorem tstat_eq (s : State) (t : Nat) : s.tstat t =
    (if s.isSuper t then 2 ^ 15 else 0) + s.pkg.pkgNo.toNat * 2 ^ 11 + colOf t * 2 ^ 6 + quarterOf t * 2 ^ 4 + slotOf t := by
  cases h : s.isSuper t <;> simp [State.tstat, bnat, h]

/-- TSTAT is read-only: it reads as it stood at the start of the cycle. -/
theorem shownReg_tstat (s : State) (t : Nat) : s.shownReg (.thread t 2) = BitVec.ofNat 64 ((if s.before.isSuper t then 2 ^ 15 else 0) +
    s.before.pkg.pkgNo.toNat * 2 ^ 11 + colOf t * 2 ^ 6 + quarterOf t * 2 ^ 4 + slotOf t) := by
  rw [← tstat_eq, shownReg_thread]
  exact mergeBits_none _ _

theorem setWidth_readThreadReg_fpmode (s : State) (t : Nat) : (s.readThreadReg t 0).setWidth 7 = (s.thr t).fpm := by
  simp [State.readThreadReg, w64]

/-- A write of FPMODE replaces all of it. -/
theorem crwr_fpmode (s : State) (a : Reg) : Completes (.crwr a 0) s { self s with fpm := (s.rd a).setWidth 7 } :=
  Laws.completes_of _ s _ (fun x => { x with fpm := (mergeBits 0x7F (s.readThreadReg s.me 0) (s.rd a)).setWidth 7 })
    (by rw [setWidth_mergeBits (by decide) (by decide)]) rfl (exec_crwr (.thread s.me 0) a rfl nofun (fun _ _ => rfl) (fun h => absurd h (by decide)))

/-- A set of bits of FPMODE. -/
theorem crset_fpmode (s : State) (a : Reg) : Completes (.crset a 0) s { self s with fpm := (self s).fpm ||| (s.rd a).setWidth 7 } :=
  Laws.completes_of _ s _ (fun x => { x with fpm := (changeBits true 0x7F (s.readThreadReg s.me 0) (s.rd a)).setWidth 7 })
    (by rw [setWidth_changeBits_true (by decide), setWidth_readThreadReg_fpmode]) rfl
    (exec_crset (.thread s.me 0) a rfl (by simp [rwMask]) (fun _ _ => rfl) (fun h => absurd h (by decide)))

/-- A clear of bits of FPMODE. -/
theorem crclr_fpmode (s : State) (a : Reg) : Completes (.crclr a 0) s { self s with fpm := (self s).fpm &&& ~~~((s.rd a).setWidth 7) } :=
  Laws.completes_of _ s _ (fun x => { x with fpm := (changeBits false 0x7F (s.readThreadReg s.me 0) (s.rd a)).setWidth 7 })
    (by rw [setWidth_changeBits_false (by decide) (by decide), setWidth_readThreadReg_fpmode]) rfl
    (exec_crclr (.thread s.me 0) a rfl (by simp [rwMask]) (fun _ _ => rfl) (fun h => absurd h (by decide)))

/-- A write of SEG at SUPERVISOR replaces BASE. -/
theorem crwr_seg (s : State) (a : Reg) (h : s.isSuper s.me = true) :
    Completes (.crwr a 1) s { self s with seg := (s.rd a).extractLsb' 12 10 } :=
  Laws.completes_of _ s _ (fun x => { x with seg := (mergeBits 0x3FF000 (s.readThreadReg s.me 1) (s.rd a)).extractLsb' 12 10 })
    (by rw [extract_mergeBits (by decide)]) rfl (exec_crwr (.thread s.me 1) a rfl nofun (fun _ _ => rfl) (fun _ => h))

/-- Settles O30: every register of the thread is read and written through its writable bits. -/
theorem threadRegisters : Obligations.ThreadRegisters := by
  intro s d a
  refine ⟨?fpmode, ?seg, ?tstat, crwr_fpmode s a, crset_fpmode s a, crclr_fpmode s a, crwr_seg s a, fun hu => ⟨?_, ?_, ?_, ?_, ?_⟩⟩
  case fpmode => exact shownReg_fpmode s s.me ▸ Laws.writes_of _ s d _ (exec_crrd_thread d (by decide))
  case seg => exact shownReg_seg s s.me ▸ Laws.writes_of _ s d _ (exec_crrd_thread d (by decide))
  case tstat => exact shownReg_tstat s s.me ▸ Laws.writes_of _ s d _ (exec_crrd_thread d (by decide))
  all_goals exact traps_of_user hu rfl (by decide)

/-! ### Registers of a core, a column and the package (R174, R175, R178, R404, R429, R457) -/

theorem modCore_congr (s : State) (q : Nat) {f g : Core → Core} (h : f (s.core q) = g (s.core q)) : s.modCore q f = s.modCore q g :=
  congrArg (s.putCore q) h

theorem setIfInBounds_of_lt {α : Type} {n i : Nat} (xs : Vector α n) (x : α) (h : i < n) : xs.setIfInBounds i x = xs.set i x h := by
  ext j
  simp [Vector.getElem_set, Vector.getElem_setIfInBounds]

section
variable (s : State) (q c : Nat) (v : W64) (clr cmd : Nat)

theorem putReg_hctl : s.putReg (.core q 0x100) v clr cmd = s.modCore q (fun y => y.putHctl s.sched.cycle v) := rfl
theorem putReg_ssmask : s.putReg (.core q 0x101) v clr cmd = s.modCore q (fun y => { y with ssmask := v.setWidth 16 }) := rfl
theorem putReg_hmask : s.putReg (.core q 0x104) v clr cmd = s.modCore q (fun y => { y with hmask := v.setWidth 16 }) := rfl
theorem putReg_cevent : s.putReg (.col c 0x221) v clr cmd =
    s.modCol c (fun y => { y with cevent := y.cevent &&& (~~~(BitVec.ofNat 5 clr) ||| y.cevNow) }) := rfl
theorem putReg_evc : s.putReg (.col c 0x250) v clr cmd = s.modCol c (fun y => { y with evc := y.evc.set 0 v }) := by
  simp only [← setIfInBounds_of_lt]
  rfl
theorem putReg_wdlimit : s.putReg (.col c 0x2A0) v clr cmd = s.modCol c (fun y => { y with wdlimit := v.setWidth 32 }) := rfl
theorem putReg_tbudget : s.putReg (.pkg 0x1010) v clr cmd = { s with pkg := { s.pkg with tbudget := v.setWidth 23 } } := rfl
theorem putReg_hperr : s.putReg (.pkg 0x1074) v clr cmd =
    { s with pkg := { s.pkg with hperr := s.pkg.hperr &&& (~~~(w64 clr) ||| s.pkg.hperrNow) } } := rfl

end

/-- An instruction that changes units other than threads, and completes. -/
theorem accesses_of {i : Instr} {s u : State} (h : exec i s = .next u.finish) (hme : u.me = s.me) (hthr : ∀ m, u.thr m = s.thr m) :
    Accesses i s u (self s) :=
  ⟨_, h, by simp [hme, hthr, Safety.done], fun m hm => by simp [hme, hthr, hm], fun _ => rfl, fun c => by rw [State.finish_col, hme],
    fun _ => rfl, rfl, rfl, rfl, rfl⟩

section
variable {s : State} {a : Reg} (hs : s.isSuper s.me = true)
include hs

/-- CRWR at SUPERVISOR of a register outside the thread. -/
theorem accesses_crwr {n : BitVec 14} {u : State} (l : RegLoc) (hl : regNamed s.me n.toNat = l) (hp : ∀ i, l ≠ .plate i)
    (hk : ∀ old new, s.heldFields l old new = new)
    (hu : s.putReg l (mergeBits (rwMask l) (s.readReg l) (s.rd a)) ((s.rd a).toNat &&& w1cMask l) (bits (s.rd a).toNat 63 61) = u)
    (hme : u.me = s.me) (hthr : ∀ m, u.thr m = s.thr m) : Accesses (.crwr a n) s u (self s) :=
  accesses_of (hu ▸ exec_crwr l a hl hp hk (fun _ => hs)) hme hthr

/-- HCTL keeps its reserved bits, and the old handler slot stays in force for the cycle (R168, R174). -/
theorem crwr_hctl : Accesses (.crwr a 0x100) s (s.modCore (coreOf s.me) (fun y => { y with
    hctl := (y.hctl &&& 0xFFFF0000F000FFF0) ||| (s.rd a &&& 0x0000FFFF0FFF000F)
    hctlOld := if y.hctlAt = s.sched.cycle + 1 then y.hctlOld else y.hctl, hctlAt := s.sched.cycle + 1 })) (self s) := by
  have hkept : ~~~w64 0x0000FFFF0FFF000F = 0xFFFF0000F000FFF0 := by decide
  refine accesses_crwr hs (.core (coreOf s.me) 0x100) rfl nofun (fun _ _ => rfl) ?_ rfl (fun _ => rfl)
  rw [putReg_hctl, ← hkept]
  exact modCore_congr s _ rfl

/-- A set of bits of DBGCTL.SSMASK (R175). -/
theorem crset_ssmask : Accesses (.crset a 0x101) s (s.modCore (coreOf s.me) (fun y => { y with
    ssmask := y.ssmask ||| (s.rd a).setWidth 16 })) (self s) := by
  have hset := exec_crset (n := 0x101) (.core (coreOf s.me) 0x101) a rfl (by simp [rwMask]) (fun _ _ => rfl) (fun _ => hs)
  have hold : (s.readReg (.core (coreOf s.me) 0x101)).setWidth 16 = (s.core (coreOf s.me)).ssmask := by
    simp [State.readReg, State.readCoreReg, w64]
  rw [putReg_ssmask, setWidth_changeBits_true rfl, hold] at hset
  exact accesses_of hset rfl (fun _ => rfl)

/-- The halt mask is written whole (R428). -/
theorem crwr_hmask : Accesses (.crwr a 0x104) s (s.modCore (coreOf s.me) (fun y => { y with hmask := (s.rd a).setWidth 16 })) (self s) := by
  refine accesses_crwr hs (.core (coreOf s.me) 0x104) rfl nofun (fun _ _ => rfl) ?_ rfl (fun _ => rfl)
  rw [putReg_hmask, setWidth_mergeBits (by decide) rfl]

/-- A bit of CEVENT that is written 1 is cleared, unless this cycle has set it (R8, R181). -/
theorem crwr_cevent : Accesses (.crwr a 0x221) s (s.modCol (colOf s.me) (fun y => { y with
    cevent := y.cevent &&& (~~~((s.rd a).setWidth 5) ||| y.cevNow) })) (self s) := by
  have hclr : BitVec.ofNat 5 ((s.rd a).toNat &&& 0x1F) = (s.rd a).setWidth 5 := by
    rw [BitVec.ofNat_and, BitVec.ofNat_toNat]
    exact BitVec.and_allOnes
  refine accesses_crwr hs (.col (colOf s.me) 0x221) rfl nofun (fun _ _ => rfl) ?_ rfl (fun _ => rfl)
  rw [putReg_cevent, ← hclr]
  rfl

/-- An event counter is written whole (R8). -/
theorem crwr_evc : Accesses (.crwr a 0x250) s (s.modCol (colOf s.me) (fun y => { y with evc := y.evc.set 0 (s.rd a) })) (self s) := by
  refine accesses_crwr hs (.col (colOf s.me) 0x250) rfl nofun (fun _ _ => rfl) ?_ rfl (fun _ => rfl)
  rw [putReg_evc]
  exact congrArg (fun v => s.modCol (colOf s.me) (fun y => { y with evc := y.evc.set 0 v })) (mergeBits_all _ _)

/-- The limit of the wait watchdog is written whole (R403). -/
theorem crwr_wdlimit : Accesses (.crwr a 0x2A0) s (s.modCol (colOf s.me) (fun y => { y with wdlimit := (s.rd a).setWidth 32 })) (self s) := by
  refine accesses_crwr hs (.col (colOf s.me) 0x2A0) rfl nofun (fun _ _ => rfl) ?_ rfl (fun _ => rfl)
  rw [putReg_wdlimit, setWidth_mergeBits (by decide) rfl]

/-- The budget takes the 23 bits that TBUDGET holds (R350). -/
theorem crwr_tbudget : Accesses (.crwr a 0x1010) s { s with pkg := { s.pkg with tbudget := (s.rd a).setWidth 23 } } (self s) := by
  refine accesses_crwr hs (.pkg 0x1010) rfl nofun (fun _ _ => rfl) ?_ rfl (fun _ => rfl)
  rw [putReg_tbudget, setWidth_mergeBits (by decide) rfl]

/-- A bit of HPERR that is written 1 is cleared, unless this cycle has set it (R8, R456). -/
theorem crwr_hperr : Accesses (.crwr a 0x1074) s
    { s with pkg := { s.pkg with hperr := s.pkg.hperr &&& (~~~(s.rd a &&& 0xF) ||| s.pkg.hperrNow) } } (self s) := by
  have hclr : w64 ((s.rd a).toNat &&& w1cMask (.pkg 0x1074)) = s.rd a &&& 0xF := by
    rw [w64_and, w64_toNat]
    rfl
  refine accesses_crwr hs (.pkg 0x1074) rfl nofun (fun _ _ => rfl) ?_ rfl (fun _ => rfl)
  rw [putReg_hperr, hclr]

end

/-- Settles O31: at SUPERVISOR a write changes the writable bits of its register alone. -/
theorem unitRegisters : Obligations.UnitRegisters := fun _ _ hs =>
  ⟨crwr_hctl hs, crset_ssmask hs, crwr_hmask hs, crwr_cevent hs, crwr_evc hs, crwr_wdlimit hs, crwr_tbudget hs, crwr_hperr hs⟩

end Sys2Proof.Proofs.ScopeRegisters
end

section
/-! PROOFS. The statements of number formats (R44 to R74) and of the bytes of memory (R46, R203): first what bytes written to memory read
back as, then the values of special bit patterns and the operations on them, then lanes, reductions and conversions between lane types. -/
namespace Sys2Proof.Proofs.NumberFormats
open Sys2Proof Sys2Proof.Machine Sys2Proof.Safety

/-! ### Bytes of memory (R46, R203) -/

/-- Every one of the `n` bytes from `g` on lies in a memory space. Unlike `Within`, it holds of the bytes after the first as well. -/
def InMemory (g n : Nat) : Prop := ∀ i, i < n → gaSpace (g + i) < 4

theorem inMemory_of_within {g n : Nat} (h : Within g n) : InMemory g n := fun i hi => by
  obtain ⟨hsp, hend⟩ := h
  simp only [gaSpace, bits, Nat.shiftRight_eq_div_pow] at hsp ⊢
  omega

theorem InMemory.head {g n : Nat} (h : InMemory g (n + 1)) : gaSpace g < 4 := h 0 n.succ_pos

theorem InMemory.tail {g n : Nat} (h : InMemory g (n + 1)) : InMemory (g + 1) n := fun i hi => by
  rw [Nat.add_right_comm]
  exact h (i + 1) (Nat.succ_lt_succ hi)

theorem outside_head {g n h : Nat} (ho : Outside g (n + 1) h) : h % 2 ^ 48 ≠ g % 2 ^ 48 := ho 0 n.succ_pos

theorem outside_tail {g n h : Nat} (ho : Outside g (n + 1) h) : Outside (g + 1) n h := fun i hi => by
  rw [Nat.add_right_comm]
  exact ho (i + 1) (Nat.succ_lt_succ hi)

/-- The bytes after `g` do not come round to `g` itself before they have passed every address. -/
theorem outside_succ {g n : Nat} (hn : n < 2 ^ 48) : Outside (g + 1) n g := fun i hi => by omega

theorem byte_of_memory (s : State) {g : Nat} (hg : gaSpace g < 4) : s.byte g = sget 0 s.mem.bytes (g % 2 ^ 48) := if_neg (by omega)

theorem putByte_of_memory (s : State) {g : Nat} (hg : gaSpace g < 4) (b : Byte) :
    s.putByte g b = { s with mem := { s.mem with bytes := sset 0 s.mem.bytes (g % 2 ^ 48) b } } := if_neg (by omega)

theorem byte_putByte (s : State) {g h : Nat} (hg : gaSpace g < 4) (hh : gaSpace h < 4) (b : Byte) :
    (s.putByte g b).byte h = if h % 2 ^ 48 = g % 2 ^ 48 then b else s.byte h := by
  rw [byte_of_memory _ hh, byte_of_memory _ hh, putByte_of_memory _ hg]
  exact sget_sset ..

/-- A write of bytes to memory changes the table of bytes alone. -/
theorem writeN_mem {n : Nat} : ∀ {s : State} {g : Nat} (v : Nat), InMemory g n → ∃ b, (s.writeN g v n).mem = { s.mem with bytes := b } := by
  induction n with
  | zero => exact fun {s} _ _ _ => ⟨s.mem.bytes, rfl⟩
  | succ n ih =>
    intro s g v hin
    obtain ⟨b, hb⟩ := ih (s := s.putByte g (BitVec.ofNat 8 v)) (v / 256) hin.tail
    rw [putByte_of_memory s hin.head] at hb
    exact ⟨b, by rwa [State.writeN, putByte_of_memory s hin.head]⟩

/-- A byte outside a write reads as before. -/
theorem byte_writeN_outside {n h : Nat} (hh : gaSpace h < 4) : ∀ {s : State} {g : Nat} (v : Nat), InMemory g n → Outside g n h →
    (s.writeN g v n).byte h = s.byte h := by
  induction n with
  | zero => exact fun _ _ _ => rfl
  | succ n ih =>
    intro s g v hin ho
    calc ((s.putByte g (BitVec.ofNat 8 v)).writeN (g + 1) (v / 256) n).byte h
        = (s.putByte g (BitVec.ofNat 8 v)).byte h := ih _ hin.tail (outside_tail ho)
      _ = s.byte h := by rw [byte_putByte s hin.head hh, if_neg (outside_head ho)]

/-- Bytes written read back, little-endian (R46): the lowest byte, which the writes above it do not reach, and then the bytes above it. -/
theorem readN_writeN {n : Nat} (hn : n ≤ 2 ^ 48) : ∀ {s : State} {g : Nat} (v : Nat), InMemory g n →
    (s.writeN g v n).readN g n = v % 256 ^ n := by
  induction n with
  | zero => exact fun v _ => (Nat.mod_one v).symm
  | succ n ih =>
    intro s g v hin
    have hlow : (s.writeN g v (n + 1)).byte g = BitVec.ofNat 8 v := by
      rw [State.writeN, byte_writeN_outside hin.head _ hin.tail (outside_succ (by omega)), byte_putByte s hin.head hin.head, if_pos rfl]
    have hhigh : (s.writeN g v (n + 1)).readN (g + 1) n = v / 256 % 256 ^ n := ih (by omega) _ hin.tail
    rw [State.readN, hlow, hhigh, BitVec.toNat_ofNat, Nat.pow_succ' (m := 256)]
    exact Nat.mod_mul.symm

theorem full_setFull (s : State) (g h : Nat) (f : Bool) : (s.setFull g f).full h = if h % 2 ^ 48 / 8 = g % 2 ^ 48 / 8 then f else s.full h :=
  sget_sset ..

/-- Settles O27: by induction on the bytes written; a write and a read of other bytes do not meet. -/
theorem memoryHolds : Obligations.MemoryHolds := fun s g v n hwithin => by
  have hin := inMemory_of_within hwithin
  have hn : n ≤ 2 ^ 48 := by
    obtain ⟨-, hend⟩ := hwithin
    omega
  obtain ⟨b, hb⟩ := writeN_mem (s := s) v hin
  refine ⟨readN_writeN hn v hin, fun h hh => byte_writeN_outside hh v hin, ?_, ?_, ?_, ?_, fun h f _ => full_setFull s g h f⟩ <;> rw [hb]

/-! ### Special values (R48, R49) -/

@[simp] theorem isSig_nan (sig : Bool) : (FVal.nan sig).isSig = sig := by cases sig <;> rfl
@[simp] theorem isSig_inf (neg : Bool) : (FVal.inf neg).isSig = false := rfl
@[simp] theorem isSig_fin (neg : Bool) (mant : Nat) (ex : Int) : (FVal.fin neg mant ex).isSig = false := rfl

theorem isNan_iff {x : FVal} : x.isNan = true ↔ ∃ sig, x = .nan sig := by cases x <;> simp [FVal.isNan]

@[simp] theorem isNan_negate (x : FVal) : x.negate.isNan = x.isNan := by cases x <;> rfl

@[simp] theorem isSig_negate (x : FVal) : x.negate.isSig = x.isSig := by cases x <;> rfl

section
variable {f : FpFmt} (hf : f = fp32 ∨ f = fp16 ∨ f = bf16) (n : Bool)
include hf

theorem fdec_inf : fdec f (f.inf n) = .inf n := by obtain rfl | rfl | rfl := hf <;> cases n <;> decide

theorem fdec_zero : fdec f (f.zero n) = .fin n 0 f.qmin := by obtain rfl | rfl | rfl := hf <;> cases n <;> decide

end

/-! ### A NaN operand (R49, R124, R126): the canonical NaN, with NV exactly when an operand is signalling -/

theorem vadd2_of_nan (f : FpFmt) (m : Nat) {x y : FVal} (h : x.isNan = true ∨ y.isNan = true) :
    vadd2 f m x y = invalid f (x.isSig || y.isSig) := by
  rw [isNan_iff, isNan_iff] at h
  obtain ⟨sig, rfl⟩ | ⟨sig, rfl⟩ := h
  · rw [vadd2, isSig_nan]
  · cases x <;> simp [vadd2, Bool.or_comm]

theorem vmulExact_of_nan {x y : FVal} (h : x.isNan = true ∨ y.isNan = true) : vmulExact x y = some (.nan (x.isSig || y.isSig)) := by
  rw [isNan_iff, isNan_iff] at h
  obtain ⟨sig, rfl⟩ | ⟨sig, rfl⟩ := h
  · rw [vmulExact, isSig_nan]
  · cases x <;> simp [vmulExact, Bool.or_comm]

section
variable {f : FpFmt} (m : Nat) {x y : Nat} (h : (fdec f x).isNan = true ∨ (fdec f y).isNan = true)
include h

theorem fadd_of_nan : fadd f m x y = invalid f ((fdec f x).isSig || (fdec f y).isSig) := vadd2_of_nan f m h

theorem fsub_of_nan : fsub f m x y = invalid f ((fdec f x).isSig || (fdec f y).isSig) :=
  (vadd2_of_nan f m (by rwa [isNan_negate])).trans (by rw [isSig_negate])

theorem fmul_of_nan : fmul f m x y = invalid f ((fdec f x).isSig || (fdec f y).isSig) := by
  rw [fmul, vmulExact_of_nan h]
  rfl

theorem fdiv_of_nan : fdiv f m x y = invalid f ((fdec f x).isSig || (fdec f y).isSig) := by
  unfold fdiv
  rw [isNan_iff, isNan_iff] at h
  obtain ⟨sig, hx⟩ | ⟨sig, hy⟩ := h
  · rw [hx, isSig_nan]
  · rw [hy]
    cases fdec f x <;> simp [Bool.or_comm]

theorem fcompare_of_nan (c : FCond) : fcompare f c x y = (decide (c = .ne), nanFlags ((fdec f x).isSig || (fdec f y).isSig)) := by
  have hnan : ((fdec f x).isNan || (fdec f y).isNan) = true := by rwa [Bool.or_eq_true]
  simp only [fcompare, hnan, if_true]
  cases c <;> rfl

end

/-! ### Operations on infinities and zeros (R124) -/

section
variable {f : FpFmt} (hf : f = fp32 ∨ f = fp16 ∨ f = bf16) (m : Nat) (n : Bool)
include hf

theorem fadd_inf_inf_not : fadd f m (f.inf n) (f.inf !n) = invalid f true := by simp [fadd, fdec_inf hf, vadd2]

theorem fsub_inf_inf : fsub f m (f.inf n) (f.inf n) = invalid f true := by simp [fsub, fdec_inf hf, FVal.negate, vadd2]

theorem fmul_inf_zero (k : Bool) : fmul f m (f.inf n) (f.zero k) = invalid f true := by simp [fmul, fdec_inf hf, fdec_zero hf, vmulExact]

theorem fmul_zero_inf (k : Bool) : fmul f m (f.zero k) (f.inf n) = invalid f true := by simp [fmul, fdec_inf hf, fdec_zero hf, vmulExact]

theorem fdiv_zero_zero (k : Bool) : fdiv f m (f.zero n) (f.zero k) = invalid f true := by simp [fdiv, fdec_zero hf]

theorem fdiv_inf_inf (k : Bool) : fdiv f m (f.inf n) (f.inf k) = invalid f true := by simp [fdiv, fdec_inf hf]

theorem fdiv_finite_zero {x mant : Nat} {neg : Bool} {ex : Int} (hx : fdec f x = .fin neg mant ex) (h0 : mant ≠ 0) :
    fdiv f m x (f.zero n) = (f.inf (neg ^^ n), fDZ) := by
  simp [fdiv, hx, fdec_zero hf, h0]

theorem fsqrt_zero : fsqrt f m (f.zero n) = (f.zero n, 0) := by simp [fsqrt, fdec_zero hf]

theorem fsqrt_inf : fsqrt f m (f.inf n) = if n then invalid f true else (f.inf false, 0) := by simp [fsqrt, fdec_inf hf]

end

theorem fsqrt_negative {f : FpFmt} (m : Nat) {x mant : Nat} {ex : Int} (hx : fdec f x = .fin true mant ex) (h0 : mant ≠ 0) :
    fsqrt f m x = invalid f true := by simp [fsqrt, hx, h0]

/-- Settles O7: each operation decides these cases on the values that its operands stand for, before it rounds. -/
theorem floatSpecialCases : Obligations.FloatSpecialCases := fun _ hf m _ _ n =>
  ⟨fun h => ⟨fadd_of_nan m h, fsub_of_nan m h, fmul_of_nan m h, fdiv_of_nan m h, fcompare_of_nan h⟩,
    fadd_inf_inf_not hf m n, fsub_inf_inf hf m n, fmul_inf_zero hf m n false, fmul_zero_inf hf m n true, fdiv_zero_zero hf m n false,
    fdiv_inf_inf hf m n false, fun _ _ _ => fdiv_finite_zero hf m n, fun _ _ => fsqrt_negative m, fsqrt_zero hf m true,
    fsqrt_inf hf m false, fsqrt_inf hf m true⟩

/-! ### Lanes (R47, R129) -/

/-- Lanes joined are the digits of a number to the base `2^w`. -/
theorem joinLanes_digit (w : Nat) : ∀ (l : List Nat) (i : Nat), joinLanes w l / 2 ^ (w * i) % 2 ^ w = l.getD i 0 % 2 ^ w
  | [], i => by simp [joinLanes]
  | x :: xs, 0 => by simp [joinLanes]
  | x :: xs, i + 1 => by
    have htail : joinLanes w (x :: xs) / 2 ^ w = joinLanes w xs := by
      rw [joinLanes, Nat.add_mul_div_left _ _ (Nat.two_pow_pos w), Nat.div_eq_of_lt (Nat.mod_lt _ (Nat.two_pow_pos w)), Nat.zero_add]
    rw [Nat.mul_add_one, Nat.add_comm, Nat.pow_add, ← Nat.div_div_eq_div_mul, htail, joinLanes_digit w xs i, List.getD_cons_succ]

/-- A number cut off at `n` bits keeps the `w` bits from `k` on below them. -/
theorem toNat_ofNat_digit {k w n : Nat} (x : Nat) (h : k + w ≤ n) : (BitVec.ofNat n x).toNat / 2 ^ k % 2 ^ w = x / 2 ^ k % 2 ^ w := by
  obtain ⟨r, rfl⟩ := Nat.exists_eq_add_of_le h
  rw [BitVec.toNat_ofNat, Nat.add_assoc, Nat.pow_add, Nat.mod_mul_right_div_self, Nat.mod_mod_of_dvd _ (Nat.pow_dvd_pow 2 (Nat.le_add_right w r))]

/-- The lanes of a vector made of lanes, where they end within its 512 bits. -/
theorem lane_ofLanes {w i : Nat} (l : List Nat) (h : w * i + w ≤ 512) : lane w (ofLanes w l) i = l.getD i 0 % 2 ^ w := by
  rw [lane, ofLanes, toNat_ofNat_digit _ h, joinLanes_digit]

theorem lane_fits {lt : LaneType} {i : Nat} (h : i < lt.lanes) : lt.width * i + lt.width ≤ 512 := by
  cases lt <;> simp only [LaneType.lanes, LaneType.width] at h ⊢ <;> omega

theorem lane_buildLanes {lt : LaneType} {i : Nat} (f : Nat → Nat) (h : i < lt.lanes) : lane lt.width (buildLanes lt f) i = f i % 2 ^ lt.width := by
  rw [buildLanes, lane_ofLanes _ (lane_fits h)]
  simp [h]

theorem upFrom_eq_map : ∀ i n : Nat, upFrom i n = (List.range n).map (i + ·)
  | _, 0 => rfl
  | i, n + 1 => by simp [upFrom, upFrom_eq_map (i + 1) n, List.range_succ_eq_map, Nat.add_assoc, Nat.add_comm 1]

/-! ### An instruction that counts events, and then changes its own thread (R129, R404) -/

theorem onlyThread_me {s t : State} {n : Nat} (h : OnlyThread s t n) : t.me = s.me := by
  obtain ⟨-, -, -, -, -, -, -, -, -, -, -, -, hcur, -⟩ := h
  simp only [State.me, hcur]

theorem onlyThread_trans {s t u : State} {n : Nat} (h : OnlyThread s t n) (h' : OnlyThread t u n) : OnlyThread s u n := by
  simp_all [OnlyThread]

/-- The state `u` is `s` with the events `es` counted for the issuing thread, and nothing else changed. -/
structure OnlyCounts (s u : State) (es : List Nat) : Prop where
  others : OnlyThread s u s.me
  counted : Counted s u s.me es
  thr : u.thr s.me = self s

theorem onlyCounts_none (s : State) : OnlyCounts s s [] := ⟨by simp [OnlyThread], fun _ => rfl, rfl⟩

theorem onlyCounts_one (s : State) (e : Nat) : OnlyCounts s (s.count s.me e) [e] := ⟨by simp [OnlyThread], fun _ => rfl, rfl⟩

theorem OnlyCounts.me {s u : State} {es : List Nat} (hu : OnlyCounts s u es) : u.me = s.me := onlyThread_me hu.others

theorem OnlyCounts.rdP {s u : State} {es : List Nat} (hu : OnlyCounts s u es) (g : PReg) : u.rdP g = s.rdP g := by
  rw [State.rdP, hu.me, hu.thr]
  rfl

/-- Counting an event changes a column by what the column held. -/
theorem count_col_congr {s u : State} (h : ∀ c, u.col c = s.col c) (n e c : Nat) : (u.count n e).col c = (s.count n e).col c := by
  rw [State.count_col, State.count_col, h]

section
variable {i : Instr} {s u : State} {es : List Nat} (hu : OnlyCounts s u es)
include hu

/-- With the events counted, an instruction that then changes its own thread alone completes. -/
theorem completes_of_counts {v : State} {x : Thread} (hv : OnlyThread u v s.me) (hcol : ∀ c, v.col c = u.col c) (hx : v.thr s.me = x)
    (hpc : x.pc = (self s).pc) (h : exec i s = .next v.finish) : Completes i s x (es ++ [0]) := by
  have hme : v.me = s.me := (onlyThread_me hv).trans hu.me
  have hfin : OnlyThread v v.finish s.me := by simp +contextual [OnlyThread, hme]
  refine ⟨_, h, onlyThread_trans (onlyThread_trans hu.others hv) hfin, fun c => ?_, ?_⟩
  · rw [State.finish_col, hme, List.foldl_append]
    exact count_col_congr (fun k => (hcol k).trans (hu.counted k)) s.me 0 c
  · rw [State.finish_thr, hme, if_pos rfl, hx, hpc]
    rfl

theorem completes_unchanged (h : exec i s = .next u.finish) : Completes i s (self s) (es ++ [0]) :=
  completes_of_counts hu (by simp [OnlyThread]) (fun _ => rfl) hu.thr rfl h

theorem completes_flagged_putV {fl : FFlags} {d : VReg} {w : Vec} (h : exec i s = .next ((u.raiseFlags fl).wrV d w).finish) :
    Completes i s ((flagged (self s) fl).putV d w) (es ++ [0]) := by
  refine completes_of_counts hu (v := (u.raiseFlags fl).wrV d w) ?_ (fun _ => rfl) ?_ rfl h
  · simp +contextual [OnlyThread, hu.me]
  · simp [hu.me, hu.thr, flagged]

end

/-! ### Reductions (R71, R136) -/

/-- A fold does not depend on the side that it starts from, when its operation is associative and commutative. -/
theorem foldl_eq_foldr_of_comm {α : Type} (f : α → α → α) [Std.Associative f] [Std.Commutative f] (a : α) :
    ∀ l : List α, l.foldl f a = l.foldr f a
  | [] => rfl
  | x :: xs => by rw [List.foldl_cons, Std.Commutative.comm (op := f) a x, List.foldl_assoc, foldl_eq_foldr_of_comm f a xs, List.foldr_cons]

/-! The exact integer reduction does not depend on the order of its lanes. -/

section
variable (w : Nat) (active : Bool) (l : List Nat)

theorem redInt_sum : redInt w .sum active l = (if active then l.map (sgn w) else []).foldr (· + ·) 0 := foldl_eq_foldr_of_comm ..

theorem redInt_max : redInt w .max active l = (if active then l.map (sgn w) else []).foldr max (-((2 ^ (w - 1) : Nat) : Int)) := by
  rw [redInt, Int.natCast_pow]
  exact foldl_eq_foldr_of_comm ..

theorem redInt_min : redInt w .min active l = (if active then l.map (sgn w) else []).foldr min (((2 ^ (w - 1) : Nat) : Int) - 1) := by
  rw [redInt, Int.natCast_pow]
  exact foldl_eq_foldr_of_comm ..

end

theorem vred_int (s : State) {lt : LaneType} (g : PReg) (d a : VReg) (op : RedOp) (hint : lt.isInt = true) :
    Completes (.vred lt g d a op) s
      ((self s).putV d (BitVec.ofNat 512 (wrapTo 64 (redInt lt.width op (s.rdP g) (lanes lt (s.rdV a)))))) := by
  refine Laws.completes_of _ s _ (fun x => x.putV d _) rfl rfl ?_
  show execVred lt g d a op s = _
  rw [execVred, if_pos hint]
  rfl

theorem vred_float (s : State) {lt : LaneType} (g : PReg) (d a : VReg) (op : RedOp) (hfloat : lt.isInt = false) :
    let r := (treeReduce (redStep (laneFp lt) s.mode op) 6
      ((lanes lt (s.rdV a)).map (fun x => (if s.rdP g then x else redIdentity (laneFp lt) op, (0 : FFlags))))).headD (0, 0)
    Completes (.vred lt g d a op) s ((flagged (self s) r.2).putV d (BitVec.ofNat 512 r.1)) [10, 0] := by
  refine completes_flagged_putV (onlyCounts_one s 10) ?_
  show execVred lt g d a op s = _
  rw [execVred, if_neg (by simp [hfloat])]

/-! ### Conversions between lane types (R137) -/

section
variable (s : State) (src dst : LaneType) (g : PReg) (d a : VReg) (part : BitVec 2)

/-- Source lane `i` converted, with its flags. -/
def convertLane (i : Nat) : Nat × FFlags := cvtBits (laneFmt dst) (laneFmt src) s.mode (lane src.width (s.rdV a) i)

/-- The first source lane that a conversion takes: `part` counts where the source has more lanes. -/
def firstSource : Nat := if dst.lanes < src.lanes then part.toNat * dst.lanes else 0

/-- The first destination lane that a conversion writes: `part` counts where the destination has more lanes. -/
def firstDest : Nat := if src.lanes < dst.lanes then part.toNat * src.lanes else 0

def convertedLanes : List (Nat × FFlags) := (upFrom (firstSource src dst part) (min src.lanes dst.lanes)).map (convertLane s src dst a)

/-- The destination register with the converted lanes in their places. -/
def convertedVec : Vec := buildLanes dst (fun j =>
  if firstDest src dst part ≤ j ∧ j < firstDest src dst part + min src.lanes dst.lanes then
    ((convertedLanes s src dst a part).getD (j - firstDest src dst part) (0, 0)).1
  else lane dst.width (s.rdV d) j)

/-- The state of a conversion once it has counted its events: it is a floating-point one when either of its lane types is (R404). -/
def convertCounted : State := if src.isFloat || dst.isFloat then s.count s.me 10 else s

theorem convertedLanes_eq :
    convertedLanes s src dst a part = (List.range (min src.lanes dst.lanes)).map (fun i => convertLane s src dst a (firstSource src dst part + i)) := by
  rw [convertedLanes, upFrom_eq_map, List.map_map]
  rfl

theorem getD_convertedLanes {k : Nat} (hk : k < min src.lanes dst.lanes) :
    (convertedLanes s src dst a part).getD k (0, 0) = convertLane s src dst a (firstSource src dst part + k) := by
  rw [convertedLanes_eq, List.getD_eq_getElem?_getD, List.getElem?_eq_getElem (by simpa using hk), Option.getD_some, List.getElem_map, List.getElem_range]

/-- What stands in a destination lane after a conversion. -/
theorem lane_convertedVec {j : Nat} (hj : j < dst.lanes) : lane dst.width (convertedVec s src dst d a part) j =
    (if src.lanes < dst.lanes then
      (if part.toNat * src.lanes ≤ j ∧ j < part.toNat * src.lanes + src.lanes then (convertLane s src dst a (j - part.toNat * src.lanes)).1
        else lane dst.width (s.rdV d) j)
    else (convertLane s src dst a (firstSource src dst part + j)).1) % 2 ^ dst.width := by
  rw [convertedVec, lane_buildLanes _ hj]
  congr 1
  by_cases hfew : src.lanes < dst.lanes
  · have hsource : firstSource src dst part = 0 := if_neg (by omega)
    have hdest : firstDest src dst part = part.toNat * src.lanes := if_pos hfew
    have hmin : min src.lanes dst.lanes = src.lanes := by omega
    rw [if_pos hfew, hdest, hmin]
    refine ite_congr rfl (fun hin => ?_) (fun _ => rfl)
    rw [getD_convertedLanes _ _ _ _ _ (by omega), hsource, Nat.zero_add]
  · have hdest : firstDest src dst part = 0 := if_neg hfew
    rw [if_neg hfew, hdest, if_pos (by omega), getD_convertedLanes _ _ _ _ _ (by omega), Nat.sub_zero]

theorem onlyCounts_convertCounted : OnlyCounts s (convertCounted s src dst) (if src.isFloat || dst.isFloat then [10] else []) := by
  unfold convertCounted
  split
  · exact onlyCounts_one s 10
  · exact onlyCounts_none s

theorem exec_vcvt : exec (.vcvt src dst g d a part) s = .next (if (convertCounted s src dst).rdP g then
    ((convertCounted s src dst).raiseFlags (flagUnion (convertedLanes s src dst a part))).wrV d (convertedVec s src dst d a part)
    else convertCounted s src dst).finish := rfl

theorem vcvt_laneWise : LaneWise (.vcvt src dst g d a part) s dst g d
    (flagUnion ((List.range (min src.lanes dst.lanes)).map (fun i => convertLane s src dst a (firstSource src dst part + i))))
    (if src.isFloat || dst.isFloat then [10, 0] else [0])
    (fun j => if src.lanes < dst.lanes then
        (if part.toNat * src.lanes ≤ j ∧ j < part.toNat * src.lanes + src.lanes then (convertLane s src dst a (j - part.toNat * src.lanes)).1
          else lane dst.width (s.rdV d) j)
      else (convertLane s src dst a (firstSource src dst part + j)).1) := by
  have hu := onlyCounts_convertCounted s src dst
  have hguard : (convertCounted s src dst).rdP g = s.rdP g := hu.rdP g
  have hevents : (if src.isFloat || dst.isFloat then [10, 0] else [0]) = (if src.isFloat || dst.isFloat then [10] else []) ++ [0] := by
    split <;> rfl
  refine ⟨convertedVec s src dst d a part, ?_, fun j hj => lane_convertedVec s src dst d a part hj⟩
  rw [hevents, ← convertedLanes_eq]
  by_cases hg : s.rdP g = true
  · rw [if_pos hg]
    exact completes_flagged_putV hu (by rw [exec_vcvt, hguard, if_pos hg])
  · rw [if_neg hg]
    exact completes_unchanged hu (by rw [exec_vcvt, hguard, if_neg hg])

end

/-- Settles O12: the order of an exact integer reduction does not matter, and each destination lane of a conversion has one source. -/
theorem vectorReduceConvert : Obligations.VectorReduceConvert := fun s lt src dst g d a op part =>
  ⟨fun hint => by
    have hred := vred_int s g d a op hint
    cases op with
    | sum => rwa [redInt_sum] at hred
    | max => rwa [redInt_max] at hred
    | min => rwa [redInt_min] at hred, vred_float s g d a op, vcvt_laneWise s src dst g d a part⟩

end Sys2Proof.Proofs.NumberFormats
end

section
/-! PROOFS. The statements of the encoding (R77 to R83). A word is the encoding of an instruction exactly when its fields hold the
parts that the encoder joins; so each branch of the decoder, which tests some fields and hands the others on as operands, reads only words that
are the encoding of what it answers. -/
namespace Sys2Proof.Proofs.Encoding
open Sys2Proof Sys2Proof.Laws

/-! ### A word and its fields -/

/-- The field of `w` at bit `lo` that is as wide as `x` holds `x`. -/
def FieldIs (w : Word) (lo : Nat) {n : Nat} (x : BitVec n) : Prop := fld w lo n = x

@[simp] theorem fieldIs_iff {n : Nat} (w : Word) (lo : Nat) (x : BitVec n) : FieldIs w lo x ↔ (fld w lo n).toNat = x.toNat :=
  BitVec.toNat_inj.symm

theorem asWord_eq_iff (x : BitVec 32) (w : Word) : asWord x = w ↔ FieldIs w 0 x := by
  simp [asWord, FieldIs, fld, eq_comm]

theorem extractLsb'_fld (w : Word) {lo n i k : Nat} (h : i + k ≤ n) : (fld w lo n).extractLsb' i k = fld w (lo + i) k := by
  ext j hj
  have hin : i + j < n := by omega
  simp [fld, hin, Nat.add_assoc]

theorem fld_eq_cat (w : Word) (lo n m : Nat) : fld w lo (n + m) = cat (fld w (lo + m) n) (fld w lo m) :=
  (BitVec.extractLsb'_append_extractLsb'_eq_extractLsb' rfl).symm

/-- A field holds two joined parts when its upper and its lower bits hold one each. -/
theorem fieldIs_cat {n m : Nat} (w : Word) (lo : Nat) (x : BitVec n) (y : BitVec m) :
    FieldIs w lo (cat x y) ↔ FieldIs w (lo + m) x ∧ FieldIs w lo y := by
  constructor
  · intro h
    have hhigh := congrArg (BitVec.extractLsb' m n) h
    have hlow := congrArg (BitVec.extractLsb' 0 m) h
    rw [extractLsb'_fld w (Nat.le_of_eq (Nat.add_comm m n)), ext_cat_hi x y m n (Nat.le_refl m), Nat.sub_self, ext_self] at hhigh
    rw [extractLsb'_fld w (by omega), ext_cat_lo x y 0 m (by omega), ext_self] at hlow
    exact ⟨hhigh, hlow⟩
  · rintro ⟨hx, hy⟩
    exact (fld_eq_cat w lo n m).trans (congr (congrArg cat hx) hy)

theorem eq_ofNat_of_toNat {n k : Nat} {x : BitVec n} (h : x.toNat = k) : x = BitVec.ofNat n k := by
  rw [← h, BitVec.ofNat_toNat, BitVec.setWidth_eq]

/-- The last case of a match on a field of two bits. -/
theorem toNat_eq_three {x : BitVec 2} (h0 : x.toNat ≠ 0) (h1 : x.toNat ≠ 1) (h2 : x.toNat ≠ 2) : x.toNat = 3 := by
  have hlt := x.isLt
  omega

/-! ### A code that the decoder knows is the one that the encoder writes -/

theorem code_eq_some_iff {α : Type} {n : Nat} {dec : BitVec n → Option α} {enc : α → BitVec n} (hdec : ∀ a, dec (enc a) = some a)
    (henc : ∀ x, (dec x).all (fun a => x == enc a) = true) {x : BitVec n} {a : α} : dec x = some a ↔ x = enc a := by
  constructor
  · intro h
    have hx := henc x
    rw [h] at hx
    exact beq_iff_eq.1 hx
  · rintro rfl
    exact hdec a

@[simp] theorem decFmt_eq_some {x : BitVec 4} {a : Fmt} : decFmt x = some a ↔ x = encFmt a :=
  code_eq_some_iff decFmt_enc (by decide)

@[simp] theorem decLane_eq_some {x : BitVec 3} {a : LaneType} : decLane x = some a ↔ x = encLane a :=
  code_eq_some_iff decLane_enc (by decide)

@[simp] theorem decSize_eq_some {x : BitVec 3} {a : MSize} : decSize x = some a ↔ x = encSize a :=
  code_eq_some_iff decSize_enc (by decide)

@[simp] theorem decScope_eq_some {x : BitVec 3} {a : Scope} : decScope x = some a ↔ x = encScope a :=
  code_eq_some_iff decScope_enc (by decide)

@[simp] theorem decCond_eq_some {x : BitVec 3} {a : Cond} : decCond x = some a ↔ x = encCond a :=
  code_eq_some_iff decCond_enc (by decide)

@[simp] theorem decFCond_eq_some {x : BitVec 3} {a : FCond} : decFCond x = some a ↔ x = encFCond a :=
  code_eq_some_iff decFCond_enc (by decide)

@[simp] theorem decKind_eq_some {x : BitVec 4} {a : TokKind} : decKind x = some a ↔ x = encKind a :=
  code_eq_some_iff decKind_enc (by decide)

@[simp] theorem decVamo_eq_some {x : BitVec 4} {a : VamoOp} : decVamo x = some a ↔ x = encVamo a :=
  code_eq_some_iff decVamo_enc (by decide)

@[simp] theorem decAFmt_eq_some {x : BitVec 2} {a : AFmt} : decAFmt x = some a ↔ x = encAFmt a :=
  code_eq_some_iff decAFmt_enc (by decide)

@[simp] theorem decShuf_eq_some {x : BitVec 6} {a : ShufKind} : decShuf x = some a ↔ x = encShuf a :=
  code_eq_some_iff decShuf_enc (by decide)

@[simp] theorem decAmoSize_eq_some {x : BitVec 2} {a : AmoSize} : decAmoSize x = some a ↔ x = encAmoSize a :=
  code_eq_some_iff decAmoSize_enc (by decide)

@[simp] theorem decRed_eq_some {x : BitVec 8} {a : RedOp} : decRed x = some a ↔ x = encRed a := by
  refine ⟨fun h => ?_, fun h => h ▸ decRed_enc a⟩
  unfold decRed at h
  split at h <;> cases h <;> exact eq_ofNat_of_toNat ‹_›

@[simp] theorem decAct_eq_some {x : BitVec 12} {a : ResumeAct} : decAct x = some a ↔ x = encAct a := by
  refine ⟨fun h => ?_, fun h => h ▸ decAct_enc a⟩
  unfold decAct at h
  split at h <;> cases h <;> exact eq_ofNat_of_toNat ‹_›

@[simp] theorem decAmoOrd_eq_some {o : BitVec 2} {x : BitVec 3} {a : AmoOrd} : decAmoOrd o x = some a ↔ o = encAmoOrd a ∧ x = encAmoScope a := by
  constructor
  · intro h
    unfold decAmoOrd at h
    split at h
    next ho =>
      split at h <;> cases h
      exact ⟨eq_ofNat_of_toNat ho, ‹_›⟩
    next ho =>
      obtain ⟨s, hs, rfl⟩ := Option.map_eq_some_iff.1 h
      exact ⟨eq_ofNat_of_toNat ho, decScope_eq_some.1 hs⟩
    next ho =>
      obtain ⟨s, hs, rfl⟩ := Option.map_eq_some_iff.1 h
      exact ⟨eq_ofNat_of_toNat ho, decScope_eq_some.1 hs⟩
    next => cases h
  · rintro ⟨rfl, rfl⟩
    exact decAmoOrd_enc a

/-- The index of a CTAG target has four bits (R366). -/
theorem setWidth_low_of_high_zero : ∀ x : BitVec 5, x.extractLsb' 4 1 = 0 → x = (x.extractLsb' 0 4).setWidth 5 := by decide

@[simp] theorem decTarget_eq_some {c : BitVec 2} {k : BitVec 4} {x : BitVec 5} {t : RgTarget} :
    decTarget c k x = some t ↔ c = encTargetCode t ∧ k = encTargetIsl t ∧ x = encTargetIdx t := by
  constructor
  · intro h
    unfold decTarget at h
    split at h
    next hc =>
      split at h <;> cases h
      exact ⟨eq_ofNat_of_toNat hc, ‹_›, rfl⟩
    next hc =>
      cases h
      exact ⟨eq_ofNat_of_toNat hc, rfl, rfl⟩
    next hc =>
      split at h <;> cases h
      next hz => exact ⟨eq_ofNat_of_toNat hc, hz.1, setWidth_low_of_high_zero x hz.2⟩
    next h0 h1 h2 =>
      split at h <;> cases h
      exact ⟨eq_ofNat_of_toNat (toNat_eq_three h0 h1 h2), rfl, ‹_›⟩
  · rintro ⟨rfl, rfl, rfl⟩
    exact decTarget_enc t

@[simp] theorem encWFmt_dec : ∀ x : BitVec 2, encWFmt (decWFmt x) = x := by decide

@[simp] theorem bit1_beq_one : ∀ x : BitVec 1, bit1 (x == 1#1) = x := by decide

@[simp] theorem encLane_i32 : encLane .i32 = 0#3 := rfl

@[simp] theorem encLane_f32 : encLane .f32 = 1#3 := rfl

/-! ### What a decoder answers is well formed and encodes to the word -/

/-- Every instruction that `r` may be is well formed, with `w` as its encoding. -/
def ReadsBack (w : Word) (r : Except Reject Instr) : Prop := ∀ i, r = .ok i → WellFormed i = true ∧ encode i = some w

section
variable {w : Word} {i : Instr} {x : BitVec 32}

theorem readsBack_error (e : Reject) : ReadsBack w (.error e) := by
  rintro j ⟨⟩

/-- An instruction is read back when the fields of the word hold the parts of its encoding. -/
theorem readsBack_ok (henc : encode i = some (asWord x)) (hwf : WellFormed i = true) (h : FieldIs w 0 x) : ReadsBack w (.ok i) := by
  rintro j ⟨⟩
  exact ⟨hwf, henc.trans (congrArg some ((asWord_eq_iff x w).2 h))⟩

/-- The decoder asks for nothing but the operand limits. -/
theorem readsBack_limit {limit : Bool} (henc : encode i = some (asWord x)) (hlimit : limit = WellFormed i) (h : FieldIs w 0 x) :
    ReadsBack w (accept limit i) := by
  cases limit with
  | true => exact readsBack_ok henc hlimit.symm h
  | false => exact readsBack_error _

/-- The decoder asks for reserved fields, then for the operand limits. -/
theorem readsBack_fields_limit {ok limit : Bool} (henc : encode i = some (asWord x)) (hlimit : limit = WellFormed i)
    (h : ok = true → FieldIs w 0 x) : ReadsBack w (accept (ok && limit) i) := by
  cases ok with
  | true => exact readsBack_limit henc hlimit (h rfl)
  | false => exact readsBack_error _

/-- The decoder asks for reserved fields alone. -/
theorem readsBack_fields {ok : Bool} (henc : encode i = some (asWord x)) (hwf : WellFormed i = true) (h : ok = true → FieldIs w 0 x) :
    ReadsBack w (accept ok i) :=
  Bool.and_true ok ▸ readsBack_fields_limit henc hwf.symm h

end

/-! ### The shapes of operand fields -/

section
variable {w : Word} {m : BitVec 6} {k : Nat}

theorem readsBack_decR3 {mk : Reg → Reg → Reg → Instr} (hm : fld w 26 6 = m) (hfn : (fld w 0 11).toNat = k)
    (hmk : ∀ d a b, encode (mk d a b) = some (encR m d a b (BitVec.ofNat 11 k)) ∧ WellFormed (mk d a b) = true) : ReadsBack w (decR3 w mk) := by
  subst hm hfn
  exact readsBack_ok (hmk _ _ _).1 (hmk _ _ _).2 (by simp_all [↓fieldIs_cat])

theorem readsBack_decR2 {mk : Reg → Reg → Instr} (hm : fld w 26 6 = m) (hfn : (fld w 0 11).toNat = k)
    (hmk : ∀ d a, encode (mk d a) = some (encR m d a 0 (BitVec.ofNat 11 k)) ∧ WellFormed (mk d a) = true) : ReadsBack w (decR2 w mk) := by
  subst hm hfn
  exact readsBack_fields (hmk _ _).1 (hmk _ _).2 fun hz => by simp_all [↓fieldIs_cat]

theorem readsBack_decP3 {mk : PReg → PReg → PReg → Instr} (hm : fld w 26 6 = m) (hfn : (fld w 0 11).toNat = k)
    (hmk : ∀ d a b, encode (mk d a b) =
      some (asWord (cat m (cat 0#2 (cat d (cat 0#2 (cat a (cat 0#2 (cat b (BitVec.ofNat 11 k))))))))) ∧ WellFormed (mk d a b) = true) :
    ReadsBack w (decP3 w mk) := by
  subst hm hfn
  exact readsBack_fields (hmk _ _ _).1 (hmk _ _ _).2 fun hz => by simp_all [↓fieldIs_cat]

theorem readsBack_decV3 {mk : LaneType → PReg → VReg → VReg → VReg → Instr} {fn : BitVec 8} (hm : fld w 26 6 = m) (hfn : fld w 0 8 = fn)
    (hmk : ∀ lt g d a b, encode (mk lt g d a b) = some (encV m lt g d a b fn)) : ReadsBack w (decV3 w mk) := by
  unfold decV3
  split
  next lt hlt => exact readsBack_limit (hmk _ _ _ _ _) rfl (by simp_all [↓fieldIs_cat])
  next => exact readsBack_error _

theorem readsBack_decV2 {mk : LaneType → PReg → VReg → VReg → Instr} {fn : BitVec 8} (hm : fld w 26 6 = m) (hfn : fld w 0 8 = fn)
    (hmk : ∀ lt g d a, encode (mk lt g d a) = some (encV m lt g d a 0 fn)) : ReadsBack w (decV2 w mk) := by
  unfold decV2
  split
  next lt hlt => exact readsBack_fields_limit (hmk _ _ _ _) rfl fun hz => by simp_all [↓fieldIs_cat]
  next => exact readsBack_error _

theorem readsBack_decVBits {mk : PReg → VReg → VReg → VReg → Instr} (hm : fld w 26 6 = m) (hfn : (fld w 0 8).toNat = k)
    (hmk : ∀ g d a b, encode (mk g d a b) = some (encV m .i32 g d a b (BitVec.ofNat 8 k)) ∧ WellFormed (mk g d a b) = true) :
    ReadsBack w (decVBits w mk) := by
  subst hm hfn
  exact readsBack_fields (hmk _ _ _ _).1 (hmk _ _ _ _).2 fun hz => by simp_all [↓fieldIs_cat]

theorem readsBack_decM {mk : MSize → Reg → Reg → BitVec 8 → Instr} (hm : fld w 26 6 = m) (hord : (fld w 11 2).toNat = k)
    (hmk : ∀ z d b off, encode (mk z d b off) =
      some (asWord (cat m (cat d (cat b (cat (encSize z) (cat (BitVec.ofNat 2 k) (cat 0#3 off)))))))) : ReadsBack w (decM w mk) := by
  subst hm hord
  unfold decM
  split
  next z hz => exact readsBack_fields_limit (hmk _ _ _ _) rfl fun hz => by simp_all [↓fieldIs_cat]
  next => exact readsBack_error _

theorem readsBack_decMS {mk : MSize → Scope → Reg → Reg → BitVec 8 → Instr} (hm : fld w 26 6 = m) (hord : (fld w 11 2).toNat = k)
    (hmk : ∀ z s d b off, encode (mk z s d b off) =
      some (asWord (cat m (cat d (cat b (cat (encSize z) (cat (BitVec.ofNat 2 k) (cat (encScope s) off)))))))) : ReadsBack w (decMS w mk) := by
  subst hm hord
  unfold decMS
  split
  next z s hz hs => exact readsBack_limit (hmk _ _ _ _ _) rfl (by simp_all [↓fieldIs_cat])
  next => exact readsBack_error _

theorem readsBack_decAmo {mk : AmoSize → AmoOrd → Reg → Reg → Reg → Instr} (hm : fld w 26 6 = m) (hfn : (fld w 0 4).toNat = k)
    (hmk : ∀ z o d a b, encode (mk z o d a b) =
      some (asWord (cat m (cat d (cat a (cat b (cat (encAmoScope o) (cat (encAmoOrd o) (cat (encAmoSize z) (BitVec.ofNat 4 k))))))))) ∧
      WellFormed (mk z o d a b) = true) : ReadsBack w (decAmo w mk) := by
  subst hm hfn
  unfold decAmo
  split
  next z o hz ho => exact readsBack_ok (hmk _ _ _ _ _).1 (hmk _ _ _ _ _).2 (by simp_all [↓fieldIs_cat])
  next => exact readsBack_error _

theorem readsBack_decX2 {mk : Reg → Reg → Instr} (hm : fld w 26 6 = m) (hfn : (fld w 12 4).toNat = k)
    (hmk : ∀ d a, encode (mk d a) = some (asWord (cat m (cat d (cat a (cat (BitVec.ofNat 4 k) 0#12))))) ∧ WellFormed (mk d a) = true) :
    ReadsBack w (decX2 w mk) := by
  subst hm hfn
  exact readsBack_fields (hmk _ _).1 (hmk _ _).2 fun hz => by simp_all [↓fieldIs_cat]

end

/-! ### One lemma for each major opcode -/

section
variable {w : Word}

/-- The only word of ILL is zero. -/
theorem eq_zero_of_fields (hm : fld w 26 6 = 0) (hmid : fld w 11 15 = 0) (hfn : fld w 0 11 = 0) : FieldIs w 0 0#32 := by
  have hparts : FieldIs w 0 (cat 0#6 (cat 0#15 0#11)) := (fieldIs_cat w 0 _ _).2 ⟨hm, (fieldIs_cat w 0 _ _).2 ⟨hmid, hfn⟩⟩
  exact hparts.trans (by decide)

theorem readsBack_major00 (hm : fld w 26 6 = 0x00#6) : ReadsBack w (decMajor00 w) := by
  unfold decMajor00
  split
  case h_1 hfn =>
    exact readsBack_fields (x := 0#32) rfl rfl fun hz => eq_zero_of_fields hm (by simpa using hz) (eq_ofNat_of_toNat hfn)
  case h_12 => exact readsBack_error _
  all_goals exact readsBack_decR3 hm ‹_› fun _ _ _ => ⟨rfl, rfl⟩

theorem readsBack_major01 (hm : fld w 26 6 = 0x01#6) : ReadsBack w (decMajor01 w) := by
  unfold decMajor01
  split
  case h_6 => exact readsBack_error _
  all_goals exact readsBack_decR3 hm ‹_› fun _ _ _ => ⟨rfl, rfl⟩

theorem readsBack_major02 (hm : fld w 26 6 = 0x02#6) : ReadsBack w (decMajor02 w) := by
  unfold decMajor02
  split
  case h_8 => exact readsBack_error _
  all_goals exact readsBack_decR3 hm ‹_› fun _ _ _ => ⟨rfl, rfl⟩

theorem readsBack_major03 (hm : fld w 26 6 = 0x03#6) : ReadsBack w (decMajor03 w) := by
  unfold decMajor03
  split
  case h_4 | h_5 => exact readsBack_decR3 hm ‹_› fun _ _ _ => ⟨rfl, rfl⟩
  case h_9 => exact readsBack_error _
  all_goals exact readsBack_decR2 hm ‹_› fun _ _ => ⟨rfl, rfl⟩

theorem readsBack_major04 (hm : fld w 26 6 = 0x04#6) : ReadsBack w (decMajor04 w) := by
  unfold decMajor04
  split
  next c hc => exact readsBack_fields rfl rfl fun hz => by simp_all [↓fieldIs_cat]
  next => exact readsBack_error _

theorem readsBack_major09 (hm : fld w 26 6 = 0x09#6) : ReadsBack w (decMajor09 w) := by
  unfold decMajor09
  split
  case h_4 => exact readsBack_error _
  all_goals exact readsBack_ok rfl rfl (by simp_all [↓fieldIs_cat])

theorem readsBack_major0A (hm : fld w 26 6 = 0x0A#6) : ReadsBack w (decMajor0A w) := by
  unfold decMajor0A
  split
  next c hc => exact readsBack_fields rfl rfl fun hz => by simp_all [↓fieldIs_cat]
  next => exact readsBack_error _

theorem readsBack_major0B (hm : fld w 26 6 = 0x0B#6) : ReadsBack w (decMajor0B w) :=
  readsBack_fields rfl rfl fun hz => by simp_all [↓fieldIs_cat]

theorem readsBack_major0C (hm : fld w 26 6 = 0x0C#6) : ReadsBack w (decMajor0C w) := by
  unfold decMajor0C
  split
  case h_5 hfn => exact readsBack_decR2 hm hfn fun _ _ => ⟨rfl, rfl⟩
  case h_8 => exact readsBack_error _
  all_goals exact readsBack_decR3 hm ‹_› fun _ _ _ => ⟨rfl, rfl⟩

theorem readsBack_major0D (hm : fld w 26 6 = 0x0D#6) : ReadsBack w (decMajor0D w) := by
  unfold decMajor0D
  split
  case h_4 => exact readsBack_error _
  all_goals exact readsBack_decR3 hm ‹_› fun _ _ _ => ⟨rfl, rfl⟩

theorem readsBack_major0E (hm : fld w 26 6 = 0x0E#6) : ReadsBack w (decMajor0E w) := by
  unfold decMajor0E
  split
  next hfn => exact readsBack_decR2 hm (congrArg BitVec.toNat hfn) fun _ _ => ⟨rfl, rfl⟩
  next =>
    split
    next c hc => exact readsBack_fields rfl rfl fun hz => by simp_all [↓fieldIs_cat]
    next => exact readsBack_error _

theorem readsBack_major0F (hm : fld w 26 6 = 0x0F#6) : ReadsBack w (decMajor0F w) := by
  unfold decMajor0F
  split
  next dst src hdst hsrc =>
    refine readsBack_fields_limit rfl rfl fun hz => ?_
    have hzeros : FieldIs w 8 (cat 0#5 0#3) := beq_iff_eq.1 hz
    simp_all [↓fieldIs_cat]
  next => exact readsBack_error _

theorem readsBack_major10 (hm : fld w 26 6 = 0x10#6) :
    ReadsBack w (accept (fld w 24 1 == 0) (.bra (fld w 25 1 == 1) (fld w 21 3) (fld w 0 21))) :=
  readsBack_fields rfl rfl fun hz => by simp_all [↓fieldIs_cat]

theorem readsBack_major12 (hm : fld w 26 6 = 0x12#6) : ReadsBack w (decMajor12 w) :=
  readsBack_limit rfl rfl (by simp_all [↓fieldIs_cat])

theorem readsBack_major13 (hm : fld w 26 6 = 0x13#6) : ReadsBack w (decMajor13 w) := by
  unfold decMajor13
  split
  case h_2 hfn => exact readsBack_decR2 hm hfn fun _ _ => ⟨rfl, rfl⟩
  case h_3 | h_4 | h_5 => exact readsBack_decP3 hm ‹_› fun _ _ _ => ⟨rfl, rfl⟩
  case h_9 => exact readsBack_error _
  all_goals exact readsBack_fields rfl rfl fun hz => by simp_all [↓fieldIs_cat]

theorem readsBack_major14 (hm : fld w 26 6 = 0x14#6) : ReadsBack w (decMajor14 w) := by
  unfold decMajor14
  split
  case h_6 hfn => exact readsBack_decV2 hm (eq_ofNat_of_toNat hfn) fun _ _ _ _ => rfl
  case h_9 => exact readsBack_error _
  all_goals exact readsBack_decV3 hm (eq_ofNat_of_toNat ‹_›) fun _ _ _ _ _ => rfl

theorem readsBack_major15 (hm : fld w 26 6 = 0x15#6) : ReadsBack w (decMajor15 w) := by
  unfold decMajor15
  split
  case h_7 => exact readsBack_error _
  all_goals exact readsBack_decV3 hm (eq_ofNat_of_toNat ‹_›) fun _ _ _ _ _ => rfl

theorem readsBack_major16 (hm : fld w 26 6 = 0x16#6) : ReadsBack w (decMajor16 w) := by
  unfold decMajor16
  split
  case h_3 => exact readsBack_error _
  all_goals exact readsBack_decV3 hm (eq_ofNat_of_toNat ‹_›) fun _ _ _ _ _ => rfl

theorem readsBack_major17 (hm : fld w 26 6 = 0x17#6) : ReadsBack w (decMajor17 w) := by
  unfold decMajor17
  split
  next => exact readsBack_error _
  next lt hlt =>
    split
    next hfn =>
      split
      next c hc => exact readsBack_fields_limit rfl rfl fun hz => by simp_all [↓fieldIs_cat]
      next => exact readsBack_error _
    next hfn =>
      split
      next c hc => exact readsBack_fields_limit rfl rfl fun hz => by simp_all [↓fieldIs_cat]
      next => exact readsBack_error _
    next => exact readsBack_error _

theorem readsBack_major18 (hm : fld w 26 6 = 0x18#6) : ReadsBack w (decMajor18 w) := by
  unfold decMajor18
  split
  case h_4 | h_5 | h_6 => exact readsBack_decV3 hm (eq_ofNat_of_toNat ‹_›) fun _ _ _ _ _ => rfl
  case h_8 => exact readsBack_error _
  all_goals exact readsBack_decVBits hm ‹_› fun _ _ _ _ => ⟨rfl, rfl⟩

/-- The function field of the permutes: an opcode of two bits over an operand of six. -/
theorem fn_of_parts {k : Nat} {l : BitVec 6} (hk : (fld w 6 2).toNat = k) (hl : fld w 0 6 = l) : fld w 0 8 = cat (BitVec.ofNat 2 k) l :=
  (fieldIs_cat w 0 _ _).2 ⟨eq_ofNat_of_toNat hk, hl⟩

theorem readsBack_major19 (hm : fld w 26 6 = 0x19#6) : ReadsBack w (decMajor19 w) := by
  unfold decMajor19
  split
  next hk => exact readsBack_decV2 hm (fn_of_parts hk rfl) fun _ _ _ _ => rfl
  next hk =>
    split
    next hz => exact readsBack_decV3 hm (fn_of_parts hk hz) fun _ _ _ _ _ => rfl
    next => exact readsBack_error _
  next hk =>
    split
    next k hshuf => exact readsBack_decV3 hm (fn_of_parts hk (decShuf_eq_some.1 hshuf)) fun _ _ _ _ _ => rfl
    next => exact readsBack_error _
  next h0 h1 h2 => exact readsBack_decV3 hm (fn_of_parts (toNat_eq_three h0 h1 h2) rfl) fun _ _ _ _ _ => rfl

theorem readsBack_major1A (hm : fld w 26 6 = 0x1A#6) : ReadsBack w (decMajor1A w) := by
  unfold decMajor1A
  split
  next op hop => exact readsBack_decV2 hm (decRed_eq_some.1 hop) fun _ _ _ _ => rfl
  next => exact readsBack_error _

theorem readsBack_major1B (hm : fld w 26 6 = 0x1B#6) : ReadsBack w (decMajor1B w) := by
  unfold decMajor1B
  split
  next dst hdst =>
    split
    next hz =>
      have hlow : FieldIs w 0 (cat 0#3 (encLane dst)) := (fieldIs_cat w 0 _ _).2 ⟨hz, decLane_eq_some.1 hdst⟩
      have hfn : fld w 0 8 = cat (fld w 6 2) (cat 0#3 (encLane dst)) := (fieldIs_cat w 0 _ _).2 ⟨rfl, hlow⟩
      exact readsBack_decV2 hm hfn fun _ _ _ _ => rfl
    next => exact readsBack_error _
  next => exact readsBack_error _

theorem readsBack_major1C (hm : fld w 26 6 = 0x1C#6) : ReadsBack w (decMajor1C w) := by
  unfold decMajor1C
  split
  case h_3 => exact readsBack_error _
  all_goals exact readsBack_fields rfl rfl fun hz => by simp_all [↓fieldIs_cat]

theorem readsBack_major1D (hm : fld w 26 6 = 0x1D#6) : ReadsBack w (decMajor1D w) := by
  unfold decMajor1D
  split
  next => exact readsBack_error _
  next lt hlt =>
    split
    next hfn => exact readsBack_fields rfl rfl fun hz => by simp_all [↓fieldIs_cat]
    next hfn => exact readsBack_fields_limit rfl rfl fun hz => by simp_all [↓fieldIs_cat]
    next hfn => exact readsBack_fields_limit rfl rfl fun hz => by simp_all [↓fieldIs_cat]
    next hfn => exact readsBack_fields rfl rfl fun hz => by simp_all [↓fieldIs_cat]
    next => exact readsBack_error _

theorem readsBack_major1E (hm : fld w 26 6 = 0x1E#6) : ReadsBack w (decMajor1E w) := by
  unfold decMajor1E
  split
  next hfn => exact readsBack_decR3 hm hfn fun _ _ _ => ⟨rfl, rfl⟩
  next hfn => exact readsBack_decR3 hm hfn fun _ _ _ => ⟨rfl, rfl⟩
  next hfn => exact readsBack_fields rfl rfl fun hz => by simp_all [↓fieldIs_cat]
  next hfn => exact readsBack_fields rfl rfl fun hz => by simp_all [↓fieldIs_cat]
  next => exact readsBack_error _

theorem readsBack_major1F (hm : fld w 26 6 = 0x1F#6) : ReadsBack w (decMajor1F w) := by
  unfold decMajor1F
  split
  next hfn => exact readsBack_fields_limit rfl rfl fun hz => by simp_all [↓fieldIs_cat]
  next hfn => exact readsBack_fields_limit rfl rfl fun hz => by simp_all [↓fieldIs_cat]
  next hfn =>
    split
    next f hf => exact readsBack_fields_limit rfl rfl fun hz => by simp_all [↓fieldIs_cat]
    next => exact readsBack_error _
  next h0 h1 h2 =>
    have hfn := toNat_eq_three h0 h1 h2
    split
    next f hf =>
      split
      next hplane => exact readsBack_fields_limit rfl rfl fun hz => by simp_all [↓fieldIs_cat]
      next hplane =>
        have hone : fld w 8 1 = 1#1 := (BitVec.eq_zero_or_eq_one _).resolve_left hplane
        exact readsBack_fields_limit rfl rfl fun hz => by simp_all [↓fieldIs_cat]
    next => exact readsBack_error _

theorem readsBack_major20 (hm : fld w 26 6 = 0x20#6) : ReadsBack w (decMajor20 w) := by
  unfold decMajor20
  split
  next hfn =>
    split
    next f hf => exact readsBack_fields rfl rfl fun hz => by simp_all [↓fieldIs_cat]
    next => exact readsBack_error _
  next hfn => exact readsBack_fields rfl rfl fun hz => by simp_all [↓fieldIs_cat]
  next => exact readsBack_error _

theorem readsBack_major21 (hm : fld w 26 6 = 0x21#6) : ReadsBack w (decMajor21 w) := by
  unfold decMajor21
  split
  case h_4 => exact readsBack_error _
  all_goals exact readsBack_fields rfl rfl fun hz => by simp_all [↓fieldIs_cat]

theorem readsBack_major22 (hm : fld w 26 6 = 0x22#6) : ReadsBack w (decMajor22 w) := by
  unfold decMajor22
  split
  case h_4 h0 h1 h2 =>
    have hfn := toNat_eq_three h0 h1 h2
    exact readsBack_fields_limit rfl rfl fun hz => by simp_all [↓fieldIs_cat]
  all_goals exact readsBack_fields_limit rfl rfl fun hz => by simp_all [↓fieldIs_cat]

theorem readsBack_major23 (hm : fld w 26 6 = 0x23#6) : ReadsBack w (decMajor23 w) := by
  unfold decMajor23
  split
  next hfn => exact readsBack_fields rfl rfl fun hz => by simp_all [↓fieldIs_cat]
  next hfn => exact readsBack_fields rfl rfl fun hz => by simp_all [↓fieldIs_cat]
  next hfn => exact readsBack_fields_limit rfl rfl fun hz => by simp_all [↓fieldIs_cat]
  next hfn =>
    split
    next x hx => exact readsBack_ok rfl rfl (by simp_all [↓fieldIs_cat])
    next => exact readsBack_error _
  next => exact readsBack_error _

theorem readsBack_major24 (hm : fld w 26 6 = 0x24#6) : ReadsBack w (decMajor24 w) := by
  unfold decMajor24
  split
  next hord => exact readsBack_decM hm hord fun _ _ _ _ => rfl
  next hord => exact readsBack_decMS hm hord fun _ _ _ _ _ => rfl
  next hord => exact readsBack_decM hm hord fun _ _ _ _ => rfl
  next => exact readsBack_error _

theorem readsBack_major25 (hm : fld w 26 6 = 0x25#6) : ReadsBack w (decMajor25 w) := by
  unfold decMajor25
  split
  next hord => exact readsBack_decM hm hord fun _ _ _ _ => rfl
  next hord => exact readsBack_decMS hm hord fun _ _ _ _ _ => rfl
  next => exact readsBack_error _

theorem readsBack_major26 (hm : fld w 26 6 = 0x26#6) : ReadsBack w (decMajor26 w) := by
  unfold decMajor26
  split
  next hord => exact readsBack_decM hm hord fun _ _ _ _ => rfl
  next hord => exact readsBack_decMS hm hord fun _ _ _ _ _ => rfl
  next hord => exact readsBack_decM hm hord fun _ _ _ _ => rfl
  next => exact readsBack_error _

theorem readsBack_major27 (hm : fld w 26 6 = 0x27#6) : ReadsBack w (decMajor27 w) := by
  unfold decMajor27
  split
  next hord => exact readsBack_decM hm hord fun _ _ _ _ => rfl
  next => exact readsBack_error _

theorem readsBack_major28 (hm : fld w 26 6 = 0x28#6) : ReadsBack w (decMajor28 w) := by
  unfold decMajor28
  split
  case h_11 => exact readsBack_error _
  all_goals exact readsBack_decAmo hm ‹_› fun _ _ _ _ _ => ⟨rfl, rfl⟩

theorem readsBack_major29 (hm : fld w 26 6 = 0x29#6) : ReadsBack w (decMajor29 w) := by
  unfold decMajor29
  split
  next hfn =>
    split
    next s hs => exact readsBack_fields rfl rfl fun hz => by simp_all [↓fieldIs_cat]
    next => exact readsBack_error _
  next hfn => exact readsBack_fields rfl rfl fun hz => by simp_all [↓fieldIs_cat]
  next hfn => exact readsBack_fields rfl rfl fun hz => by simp_all [↓fieldIs_cat]
  next hfn =>
    split
    next op lt hop hlt => exact readsBack_fields_limit rfl rfl fun hz => by simp_all [↓fieldIs_cat]
    next => exact readsBack_error _
  next => exact readsBack_error _

theorem readsBack_major2A (hm : fld w 26 6 = 0x2A#6) : ReadsBack w (decMajor2A w) := by
  unfold decMajor2A
  split
  next hfn =>
    split
    next k hk => exact readsBack_fields_limit rfl rfl fun hz => by simp_all [↓fieldIs_cat]
    next => exact readsBack_error _
  next hfn => exact readsBack_fields rfl rfl fun hz => by simp_all [↓fieldIs_cat]
  next hfn => exact readsBack_fields rfl rfl fun hz => by simp_all [↓fieldIs_cat]
  next => exact readsBack_error _

theorem readsBack_major2B (hm : fld w 26 6 = 0x2B#6) : ReadsBack w (decMajor2B w) :=
  readsBack_fields_limit rfl rfl fun hz => by simp_all [↓fieldIs_cat]

theorem readsBack_major2C (hm : fld w 26 6 = 0x2C#6) : ReadsBack w (decMajor2C w) := by
  unfold decMajor2C
  split
  case h_1 | h_3 => exact readsBack_fields_limit rfl rfl fun hz => by simp_all [↓fieldIs_cat]
  case h_8 => exact readsBack_error _
  all_goals exact readsBack_fields rfl rfl fun hz => by simp_all [↓fieldIs_cat]

theorem readsBack_major2D (hm : fld w 26 6 = 0x2D#6) : ReadsBack w (decMajor2D w) := by
  unfold decMajor2D
  split
  case h_4 => exact readsBack_error _
  all_goals exact readsBack_fields rfl rfl fun hz => by simp_all [↓fieldIs_cat]

theorem readsBack_major2E (hm : fld w 26 6 = 0x2E#6) : ReadsBack w (decMajor2E w) := by
  unfold decMajor2E
  split
  case h_2 | h_3 => exact readsBack_fields rfl rfl fun hz => by simp_all [↓fieldIs_cat]
  case h_8 => exact readsBack_error _
  all_goals exact readsBack_decX2 hm ‹_› fun _ _ => ⟨rfl, rfl⟩

theorem readsBack_major2F (hm : fld w 26 6 = 0x2F#6) : ReadsBack w (decMajor2F w) := by
  unfold decMajor2F
  split
  next hfn =>
    split
    next t ht => exact readsBack_fields_limit rfl rfl fun hz => by simp_all [↓fieldIs_cat]
    next => exact readsBack_error _
  next hfn =>
    split
    next t ht => exact readsBack_fields_limit rfl rfl fun hz => by simp_all [↓fieldIs_cat]
    next => exact readsBack_error _
  next hfn => exact readsBack_fields_limit rfl rfl fun hz => by simp_all [↓fieldIs_cat]
  next hfn => exact readsBack_fields rfl rfl fun hz => by simp_all [↓fieldIs_cat]
  next hfn => exact readsBack_fields rfl rfl fun hz => by simp_all [↓fieldIs_cat]
  next => exact readsBack_error _

theorem readsBack_major30 (hm : fld w 26 6 = 0x30#6) : ReadsBack w (decMajor30 w) := by
  unfold decMajor30
  split
  next hfn =>
    split
    next s hs => exact readsBack_fields_limit rfl rfl fun hz => by simp_all [↓fieldIs_cat]
    next => exact readsBack_error _
  next hfn =>
    split
    next s hs => exact readsBack_fields_limit rfl rfl fun hz => by simp_all [↓fieldIs_cat]
    next => exact readsBack_error _
  next hfn => exact readsBack_fields rfl rfl fun hz => by simp_all [↓fieldIs_cat]
  next hfn => exact readsBack_fields rfl rfl fun hz => by simp_all [↓fieldIs_cat]
  next => exact readsBack_error _

theorem readsBack_major31 (hm : fld w 26 6 = 0x31#6) : ReadsBack w (decMajor31 w) := by
  unfold decMajor31
  split
  next hfn => exact readsBack_fields_limit rfl rfl fun hz => by simp_all [↓fieldIs_cat]
  next hfn => exact readsBack_fields_limit rfl rfl fun hz => by simp_all [↓fieldIs_cat]
  next hfn => exact readsBack_fields rfl rfl fun hz => by simp_all [↓fieldIs_cat]
  next hfn => exact readsBack_fields rfl rfl fun hz => by simp_all [↓fieldIs_cat]
  next => exact readsBack_error _

theorem readsBack_major32 (hm : fld w 26 6 = 0x32#6) : ReadsBack w (decMajor32 w) := by
  unfold decMajor32
  split
  case h_5 => exact readsBack_error _
  all_goals exact readsBack_fields rfl rfl fun hz => by simp_all [↓fieldIs_cat]

theorem readsBack_major33 (hm : fld w 26 6 = 0x33#6) : ReadsBack w (decMajor33 w) := by
  unfold decMajor33
  split
  next hfn => exact readsBack_decX2 hm hfn fun _ _ => ⟨rfl, rfl⟩
  next hfn => exact readsBack_fields_limit rfl rfl fun hz => by simp_all [↓fieldIs_cat]
  next hfn => exact readsBack_fields rfl rfl fun hz => by simp_all [↓fieldIs_cat]
  next hfn => exact readsBack_fields_limit rfl rfl fun hz => by simp_all [↓fieldIs_cat]
  next hfn => exact readsBack_decX2 hm hfn fun _ _ => ⟨rfl, rfl⟩
  next hfn => exact readsBack_fields rfl rfl fun hz => by simp_all [↓fieldIs_cat]
  next => exact readsBack_error _

theorem readsBack_major34 (hm : fld w 26 6 = 0x34#6) : ReadsBack w (decMajor34 w) := by
  unfold decMajor34
  split
  case h_1 hfn => exact readsBack_fields rfl rfl fun hz => by simp_all [↓fieldIs_cat]
  case h_5 => exact readsBack_error _
  all_goals exact readsBack_decX2 hm ‹_› fun _ _ => ⟨rfl, rfl⟩

end

/-- Every instruction that the decoder reads from a word is well formed, with that word as its encoding. -/
theorem readsBack_decode (w : Word) : ReadsBack w (decode w) := by
  unfold decode
  split
  next hm => exact readsBack_major00 (eq_ofNat_of_toNat hm)
  next hm => exact readsBack_major01 (eq_ofNat_of_toNat hm)
  next hm => exact readsBack_major02 (eq_ofNat_of_toNat hm)
  next hm => exact readsBack_major03 (eq_ofNat_of_toNat hm)
  next hm => exact readsBack_major04 (eq_ofNat_of_toNat hm)
  next hm => exact readsBack_ok rfl rfl (by simp_all [↓fieldIs_cat])
  next hm => exact readsBack_ok rfl rfl (by simp_all [↓fieldIs_cat])
  next hm => exact readsBack_ok rfl rfl (by simp_all [↓fieldIs_cat])
  next hm => exact readsBack_ok rfl rfl (by simp_all [↓fieldIs_cat])
  next hm => exact readsBack_major09 (eq_ofNat_of_toNat hm)
  next hm => exact readsBack_major0A (eq_ofNat_of_toNat hm)
  next hm => exact readsBack_major0B (eq_ofNat_of_toNat hm)
  next hm => exact readsBack_major0C (eq_ofNat_of_toNat hm)
  next hm => exact readsBack_major0D (eq_ofNat_of_toNat hm)
  next hm => exact readsBack_major0E (eq_ofNat_of_toNat hm)
  next hm => exact readsBack_major0F (eq_ofNat_of_toNat hm)
  next hm => exact readsBack_major10 (eq_ofNat_of_toNat hm)
  next hm => exact readsBack_ok rfl rfl (by simp_all [↓fieldIs_cat])
  next hm => exact readsBack_major12 (eq_ofNat_of_toNat hm)
  next hm => exact readsBack_major13 (eq_ofNat_of_toNat hm)
  next hm => exact readsBack_major14 (eq_ofNat_of_toNat hm)
  next hm => exact readsBack_major15 (eq_ofNat_of_toNat hm)
  next hm => exact readsBack_major16 (eq_ofNat_of_toNat hm)
  next hm => exact readsBack_major17 (eq_ofNat_of_toNat hm)
  next hm => exact readsBack_major18 (eq_ofNat_of_toNat hm)
  next hm => exact readsBack_major19 (eq_ofNat_of_toNat hm)
  next hm => exact readsBack_major1A (eq_ofNat_of_toNat hm)
  next hm => exact readsBack_major1B (eq_ofNat_of_toNat hm)
  next hm => exact readsBack_major1C (eq_ofNat_of_toNat hm)
  next hm => exact readsBack_major1D (eq_ofNat_of_toNat hm)
  next hm => exact readsBack_major1E (eq_ofNat_of_toNat hm)
  next hm => exact readsBack_major1F (eq_ofNat_of_toNat hm)
  next hm => exact readsBack_major20 (eq_ofNat_of_toNat hm)
  next hm => exact readsBack_major21 (eq_ofNat_of_toNat hm)
  next hm => exact readsBack_major22 (eq_ofNat_of_toNat hm)
  next hm => exact readsBack_major23 (eq_ofNat_of_toNat hm)
  next hm => exact readsBack_major24 (eq_ofNat_of_toNat hm)
  next hm => exact readsBack_major25 (eq_ofNat_of_toNat hm)
  next hm => exact readsBack_major26 (eq_ofNat_of_toNat hm)
  next hm => exact readsBack_major27 (eq_ofNat_of_toNat hm)
  next hm => exact readsBack_major28 (eq_ofNat_of_toNat hm)
  next hm => exact readsBack_major29 (eq_ofNat_of_toNat hm)
  next hm => exact readsBack_major2A (eq_ofNat_of_toNat hm)
  next hm => exact readsBack_major2B (eq_ofNat_of_toNat hm)
  next hm => exact readsBack_major2C (eq_ofNat_of_toNat hm)
  next hm => exact readsBack_major2D (eq_ofNat_of_toNat hm)
  next hm => exact readsBack_major2E (eq_ofNat_of_toNat hm)
  next hm => exact readsBack_major2F (eq_ofNat_of_toNat hm)
  next hm => exact readsBack_major30 (eq_ofNat_of_toNat hm)
  next hm => exact readsBack_major31 (eq_ofNat_of_toNat hm)
  next hm => exact readsBack_major32 (eq_ofNat_of_toNat hm)
  next hm => exact readsBack_major33 (eq_ofNat_of_toNat hm)
  next hm => exact readsBack_major34 (eq_ofNat_of_toNat hm)
  next => exact readsBack_error _

/-- Every operand of a well-formed instruction reads back from its word. -/
theorem decode_encode (i : Instr) : RoundTrip.Statement i := by
  cases i with
  | ill => exact RoundTrip.ill
  | add d a b => exact RoundTrip.add d a b
  | sub d a b => exact RoundTrip.sub d a b
  | and d a b => exact RoundTrip.and d a b
  | or d a b => exact RoundTrip.or d a b
  | xor d a b => exact RoundTrip.xor d a b
  | andn d a b => exact RoundTrip.andn d a b
  | min d a b => exact RoundTrip.min d a b
  | max d a b => exact RoundTrip.max d a b
  | minu d a b => exact RoundTrip.minu d a b
  | maxu d a b => exact RoundTrip.maxu d a b
  | shl d a b => exact RoundTrip.shl d a b
  | shr d a b => exact RoundTrip.shr d a b
  | sra d a b => exact RoundTrip.sra d a b
  | rol d a b => exact RoundTrip.rol d a b
  | ror d a b => exact RoundTrip.ror d a b
  | mul d a b => exact RoundTrip.mul d a b
  | mulh d a b => exact RoundTrip.mulh d a b
  | mulhu d a b => exact RoundTrip.mulhu d a b
  | div d a b => exact RoundTrip.div d a b
  | divu d a b => exact RoundTrip.divu d a b
  | rem d a b => exact RoundTrip.rem d a b
  | remu d a b => exact RoundTrip.remu d a b
  | clz d a => exact RoundTrip.clz d a
  | ctz d a => exact RoundTrip.ctz d a
  | popc d a => exact RoundTrip.popc d a
  | bext d a b => exact RoundTrip.bext d a b
  | bins d a b => exact RoundTrip.bins d a b
  | sxtB d a => exact RoundTrip.sxtB d a
  | sxtH d a => exact RoundTrip.sxtH d a
  | sxtW d a => exact RoundTrip.sxtW d a
  | cmp p c a b => exact RoundTrip.cmp p c a b
  | addi d a imm => exact RoundTrip.addi d a imm
  | andi d a imm => exact RoundTrip.andi d a imm
  | ori d a imm => exact RoundTrip.ori d a imm
  | xori d a imm => exact RoundTrip.xori d a imm
  | shli d a k => exact RoundTrip.shli d a k
  | shri d a k => exact RoundTrip.shri d a k
  | srai d a k => exact RoundTrip.srai d a k
  | cmpi p c a imm => exact RoundTrip.cmpi p c a imm
  | movk d k imm => exact RoundTrip.movk d k imm
  | fadd d a b => exact RoundTrip.fadd d a b
  | fsub d a b => exact RoundTrip.fsub d a b
  | fmul d a b => exact RoundTrip.fmul d a b
  | fdiv d a b => exact RoundTrip.fdiv d a b
  | fsqrt d a => exact RoundTrip.fsqrt d a
  | fmin d a b => exact RoundTrip.fmin d a b
  | fmax d a b => exact RoundTrip.fmax d a b
  | fma d a b => exact RoundTrip.fma d a b
  | fms d a b => exact RoundTrip.fms d a b
  | fnma d a b => exact RoundTrip.fnma d a b
  | fcmp p c a b => exact RoundTrip.fcmp p c a b
  | fclass d a => exact RoundTrip.fclass d a
  | fcvt d a dst src => exact RoundTrip.fcvt d a dst src
  | bra neg p off => exact RoundTrip.bra neg p off
  | call l off => exact RoundTrip.call l off
  | loop c off => exact RoundTrip.loop c off
  | jmpr a => exact RoundTrip.jmpr a
  | callr d a => exact RoundTrip.callr d a
  | pand d a b => exact RoundTrip.pand d a b
  | por d a b => exact RoundTrip.por d a b
  | pxor d a b => exact RoundTrip.pxor d a b
  | pnot d a => exact RoundTrip.pnot d a
  | pmovFromScalar d a => exact RoundTrip.pmovFromScalar d a
  | pmovToScalar d a => exact RoundTrip.pmovToScalar d a
  | vadd lt g d a b => exact RoundTrip.vadd lt g d a b
  | vsub lt g d a b => exact RoundTrip.vsub lt g d a b
  | vmul lt g d a b => exact RoundTrip.vmul lt g d a b
  | vmin lt g d a b => exact RoundTrip.vmin lt g d a b
  | vmax lt g d a b => exact RoundTrip.vmax lt g d a b
  | vabs lt g d a => exact RoundTrip.vabs lt g d a
  | vadds lt g d a b => exact RoundTrip.vadds lt g d a b
  | vsubs lt g d a b => exact RoundTrip.vsubs lt g d a b
  | vfadd lt g d a b => exact RoundTrip.vfadd lt g d a b
  | vfsub lt g d a b => exact RoundTrip.vfsub lt g d a b
  | vfmul lt g d a b => exact RoundTrip.vfmul lt g d a b
  | vfdiv lt g d a b => exact RoundTrip.vfdiv lt g d a b
  | vfmin lt g d a b => exact RoundTrip.vfmin lt g d a b
  | vfmax lt g d a b => exact RoundTrip.vfmax lt g d a b
  | vfma lt g d a b => exact RoundTrip.vfma lt g d a b
  | vfms lt g d a b => exact RoundTrip.vfms lt g d a b
  | vcmp lt g p all c a b => exact RoundTrip.vcmp lt g p all c a b
  | vfcmp lt g p all c a b => exact RoundTrip.vfcmp lt g p all c a b
  | vand g d a b => exact RoundTrip.vand g d a b
  | vor g d a b => exact RoundTrip.vor g d a b
  | vxor g d a b => exact RoundTrip.vxor g d a b
  | vshl lt g d a b => exact RoundTrip.vshl lt g d a b
  | vshr lt g d a b => exact RoundTrip.vshr lt g d a b
  | vsra lt g d a b => exact RoundTrip.vsra lt g d a b
  | vsel g d a b => exact RoundTrip.vsel g d a b
  | vbcast lt g d a l => exact RoundTrip.vbcast lt g d a l
  | vperm lt g d a b => exact RoundTrip.vperm lt g d a b
  | vshuf lt g d a b k => exact RoundTrip.vshuf lt g d a b k
  | vslide lt g d a b k => exact RoundTrip.vslide lt g d a b k
  | vred lt g d a op => exact RoundTrip.vred lt g d a op
  | vcvt src dst g d a part => exact RoundTrip.vcvt src dst g d a part
  | vlog2 g d a => exact RoundTrip.vlog2 g d a
  | vexp2 g d a => exact RoundTrip.vexp2 g d a
  | vmovs lt g d s => exact RoundTrip.vmovs lt g d s
  | vins lt g d s l => exact RoundTrip.vins lt g d s l
  | vext lt g s d l => exact RoundTrip.vext lt g s d l
  | vmovp g d a => exact RoundTrip.vmovp g d a
  | tld t a b => exact RoundTrip.tld t a b
  | tst t a b => exact RoundTrip.tst t a b
  | tvget d t b => exact RoundTrip.tvget d t b
  | tvset t a b => exact RoundTrip.tvset t a b
  | mwld f pl a s tag => exact RoundTrip.mwld f pl a s tag
  | mwlt f pl t s tag => exact RoundTrip.mwlt f pl t s tag
  | mgo f acc t pl tag add mask r => exact RoundTrip.mgo f acc t pl tag add mask r
  | moutTile f t acc emp => exact RoundTrip.moutTile f t acc emp
  | moutMemory f d acc r emp => exact RoundTrip.moutMemory f d acc r emp
  | mgos f acc c m pl tag add => exact RoundTrip.mgos f acc c m pl tag add
  | mmask t => exact RoundTrip.mmask t
  | mhold => exact RoundTrip.mhold
  | myield => exact RoundTrip.myield
  | mclr acc => exact RoundTrip.mclr acc
  | crrd d n => exact RoundTrip.crrd d n
  | crwr a n => exact RoundTrip.crwr a n
  | crset a n => exact RoundTrip.crset a n
  | crclr a n => exact RoundTrip.crclr a n
  | trap imm => exact RoundTrip.trap imm
  | bkpt imm => exact RoundTrip.bkpt imm
  | tqpop d nw => exact RoundTrip.tqpop d nw
  | tresume d a act => exact RoundTrip.tresume d a act
  | ld z d b off => exact RoundTrip.ld z d b off
  | ldAcq z s d b off => exact RoundTrip.ldAcq z s d b off
  | lds z d b off => exact RoundTrip.lds z d b off
  | ldu z d b off => exact RoundTrip.ldu z d b off
  | lduAcq z s d b off => exact RoundTrip.lduAcq z s d b off
  | st z d b off => exact RoundTrip.st z d b off
  | stRel z s d b off => exact RoundTrip.stRel z s d b off
  | stf z d b off => exact RoundTrip.stf z d b off
  | ldse z d b off => exact RoundTrip.ldse z d b off
  | amoadd z o d a b => exact RoundTrip.amoadd z o d a b
  | amoand z o d a b => exact RoundTrip.amoand z o d a b
  | amoor z o d a b => exact RoundTrip.amoor z o d a b
  | amoxor z o d a b => exact RoundTrip.amoxor z o d a b
  | amomin z o d a b => exact RoundTrip.amomin z o d a b
  | amomax z o d a b => exact RoundTrip.amomax z o d a b
  | amominu z o d a b => exact RoundTrip.amominu z o d a b
  | amomaxu z o d a b => exact RoundTrip.amomaxu z o d a b
  | amoswap z o d a b => exact RoundTrip.amoswap z o d a b
  | amocas z o d a b => exact RoundTrip.amocas z o d a b
  | fence s => exact RoundTrip.fence s
  | feset a n => exact RoundTrip.feset a n
  | feclr a n => exact RoundTrip.feclr a n
  | vamo op lt d a => exact RoundTrip.vamo op lt d a
  | csend c k aux s => exact RoundTrip.csend c k aux s
  | crecv d e c => exact RoundTrip.crecv d e c
  | cpoll d c => exact RoundTrip.cpoll d c
  | invoke d k b m => exact RoundTrip.invoke d k b m
  | xbind o a n => exact RoundTrip.xbind o a n
  | xsend o a d => exact RoundTrip.xsend o a d
  | xrecv d i => exact RoundTrip.xrecv d i
  | xfree i => exact RoundTrip.xfree i
  | xflush o => exact RoundTrip.xflush o
  | xfold o a => exact RoundTrip.xfold o a
  | xstat d inb c => exact RoundTrip.xstat d inb c
  | cpy a => exact RoundTrip.cpy a
  | lswap a => exact RoundTrip.lswap a
  | engstat d swap => exact RoundTrip.engstat d swap
  | spawn d a => exact RoundTrip.spawn d a
  | exit => exact RoundTrip.exit
  | yield n => exact RoundTrip.yield n
  | dpush d a => exact RoundTrip.dpush d a
  | dkey d a => exact RoundTrip.dkey d a
  | ddel d a => exact RoundTrip.ddel d a
  | dpop d a => exact RoundTrip.dpop d a
  | rgset d t a => exact RoundTrip.rgset d t a
  | rgget d t => exact RoundTrip.rgget d t
  | rgprobe d a => exact RoundTrip.rgprobe d a
  | rgsplit d i j a => exact RoundTrip.rgsplit d i j a
  | rgmerge d i j => exact RoundTrip.rgmerge d i j
  | rgres s d a => exact RoundTrip.rgres s d a
  | rginv s nw d a => exact RoundTrip.rginv s nw d a
  | rgsync => exact RoundTrip.rgsync
  | rgcpt a => exact RoundTrip.rgcpt a
  | ginstall d a k => exact RoundTrip.ginstall d a k
  | garg d a j => exact RoundTrip.garg d a j
  | gdrain d a => exact RoundTrip.gdrain d a
  | greconf d a => exact RoundTrip.greconf d a
  | barj d n => exact RoundTrip.barj d n
  | barw a n => exact RoundTrip.barw a n
  | cntinc n a => exact RoundTrip.cntinc n a
  | cntwait n a => exact RoundTrip.cntwait n a
  | rngdraw d a => exact RoundTrip.rngdraw d a
  | snoise v a => exact RoundTrip.snoise v a
  | smaxk d v a new => exact RoundTrip.smaxk d v a new
  | accept d a => exact RoundTrip.accept d a
  | kvcommit d a => exact RoundTrip.kvcommit d a
  | genabort a => exact RoundTrip.genabort a
  | gate a opn => exact RoundTrip.gate a opn
  | qwait d a => exact RoundTrip.qwait d a
  | ctxsave d a => exact RoundTrip.ctxsave d a
  | ctxload d a => exact RoundTrip.ctxload d a
  | _ => exact fun _ _ h => nomatch h

/-- Settles O55: an encoding reads back for each instruction, and the word of an instruction for each branch of the decoder. -/
theorem decodeOfEncode : Obligations.DecodeOfEncode :=
  ⟨decode_encode, readsBack_decode⟩

/-- Settles O54: a word that is an instruction is the encoding of it, and each of the others stops at the field that is reserved. -/
theorem decodeWords : Obligations.DecodeWords := by
  have word {w : Word} {i : Instr} (hwf : WellFormed i = true) (henc : encode i = some w) : decode w = .ok i := decode_encode i w hwf henc
  unfold Obligations.DecodeWords
  exact ⟨word rfl rfl, word rfl rfl, word rfl rfl, word rfl rfl, word rfl rfl, word rfl rfl, word rfl rfl, word rfl rfl, word rfl rfl,
    word rfl rfl, word rfl rfl, word rfl rfl, word rfl rfl, word rfl rfl, word rfl rfl, word rfl rfl, word rfl rfl, word rfl rfl,
    word rfl rfl, word rfl rfl, word rfl rfl, word rfl rfl, word rfl rfl, word rfl rfl, word rfl rfl, word rfl rfl, word rfl rfl,
    word rfl rfl, word rfl rfl, word rfl rfl, rfl, rfl, word rfl rfl, rfl⟩
end Sys2Proof.Proofs.Encoding
end

section
/-! PROOFS. The statements of ILL, TRAP, BKPT and TQPOP (R83, R111, R186): the queue of trap records as TQPOP leaves it. -/
namespace Sys2Proof.Proofs.TrapQueue
open Sys2Proof Sys2Proof.Machine Sys2Proof.Safety

/-- A queue that holds all records of its core stays as it is when records are let in. -/
theorem setRecords_records {c : Core} (hwaiting : c.waiting = []) (hroom : c.tq.length ≤ 16) : c.setRecords c.records = c := by
  have hrecords : c.records = c.tq := by rw [Core.records, hwaiting, List.append_nil]
  rw [hrecords, Core.setRecords, List.take_of_length_le hroom, List.drop_of_length_le hroom, ← hwaiting]

/-- With no record waiting, a queue with room lets none in. -/
theorem admitWaiting_of_none {s : State} {q : Nat} (hwaiting : (s.core q).waiting = []) (hroom : (s.core q).tq.length ≤ 16) :
    s.admitWaiting q = s.putCore q (s.core q) := by
  have hsame : s.modCore q (fun c => c.setRecords c.records) = s.putCore q (s.core q) :=
    congrArg (s.putCore q) (setRecords_records hwaiting hroom)
  simp [State.admitWaiting, hsame]

theorem supervisor_pass {s : State} (h : s.isSuper s.me = true) (go : State → State) : s.supervisor go = go s := if_pos h

@[simp] theorem putRun_pc (x : Thread) (d : Reg) (l : List W64) : (x.putRun d l).pc = x.pc := by
  induction l generalizing x d with
  | nil => rfl
  | cons v vs ih =>
    have hput : (x.putS d v).pc = x.pc := by
      unfold Thread.putS
      split <;> rfl
    rw [Thread.putRun, ih, hput]

/-- The issuing thread has taken the head `r` of its core's queue into four registers, and `rs` is left. -/
def taken (s : State) (d : Reg) (r : TrapRec) (rs : List TrapRec) : State :=
  (s.modCore s.myCore (fun c => { c with tq := rs })).modThr s.me (fun x => x.putRun d [r.w0, r.w1, r.w2, r.w3])

section
variable {s : State} (d : Reg) (nw : Bool)

theorem exec_tqpop_record {r : TrapRec} {rs : List TrapRec} (hs : s.isSuper s.me = true) (htq : (s.core s.myCore).tq = r :: rs)
    (hroom : rs.length < 16) (hwaiting : (s.core s.myCore).waiting = []) :
    exec (.tqpop d nw) s = .next ((taken s d r rs).putCore s.myCore { s.core s.myCore with tq := rs }).finish := by
  have hcore : (taken s d r rs).core s.myCore = { s.core s.myCore with tq := rs } := by simp [taken]
  have hadmit : (taken s d r rs).admitWaiting s.myCore = (taken s d r rs).putCore s.myCore { s.core s.myCore with tq := rs } := by
    rw [admitWaiting_of_none (by rw [hcore]; exact hwaiting) (by rw [hcore]; exact Nat.le_of_lt hroom), hcore]
  rw [← hadmit]
  refine congrArg Host.Outcome.next ((supervisor_pass hs _).trans ?_)
  simp only [htq, taken]

/-- TQPOP of a record: it goes into four registers and leaves the queue, and with no record waiting none takes its place. -/
theorem tqpop_record {r : TrapRec} {rs : List TrapRec} (hs : s.isSuper s.me = true) (htq : (s.core s.myCore).tq = r :: rs)
    (hroom : rs.length < 16) (hwaiting : (s.core s.myCore).waiting = []) : ∃ t, exec (.tqpop d nw) s = .next t ∧
      t.thr s.me = done ((self s).putRun d [r.w0, r.w1, r.w2, r.w3]) ((self s).pc + 1) ∧ (∀ m, m ≠ s.me → t.thr m = s.thr m) ∧
      t.core s.myCore = { s.core s.myCore with tq := rs } ∧ (∀ q, q ≠ s.myCore → t.core q = s.core q) ∧ t.mem = s.mem ∧ t.pkg = s.pkg ∧
      Counted s t s.me [0] := by
  refine ⟨_, exec_tqpop_record d nw hs htq hroom hwaiting, ?_, ?_, ?_, ?_, ?_, ?_, fun c => ?_⟩
  · simp [taken, done]
  · intro m hm
    simp [taken, hm]
  · simp
  · intro q hq
    simp [taken, hq]
  · simp [taken]
  · simp [taken]
  · simp [taken, State.count_col]

theorem tqpop_empty_zeros (hs : s.isSuper s.me = true) (htq : (s.core s.myCore).tq = []) :
    Completes (.tqpop d true) s ((self s).putRun d [0, 0, 0, 0]) := by
  refine Laws.completes_of _ s _ (fun x => x.putRun d [0, 0, 0, 0]) rfl (putRun_pc _ _ _) ?_
  refine congrArg Host.Outcome.next ((supervisor_pass hs _).trans ?_)
  simp only [htq, if_true]

theorem tqpop_empty_parks (hs : s.isSuper s.me = true) (htq : (s.core s.myCore).tq = []) : Parks (.tqpop d false) s .trap .record := by
  refine ⟨s.parkMe .trap .record, congrArg Host.Outcome.next ((supervisor_pass hs _).trans ?_), ⟨fun m hm => ?_, ?_⟩, fun c => rfl, ?_⟩
  · simp only [htq, Bool.false_eq_true, if_false]
  · simp [hm]
  · simp
  · simp [parked]

end

/-- Settles O16: the four words trap as their meanings say, and TQPOP has one case for each shape of the queue. -/
theorem softwareTrapsAndQueue : Obligations.SoftwareTrapsAndQueue := by
  refine ⟨fun s w imm => ⟨rfl, rfl, rfl, rfl⟩, fun s d nw hs => ⟨fun r rs => tqpop_record d nw hs, ?_, ?_⟩⟩
  · rintro htq rfl
    exact tqpop_empty_zeros d hs htq
  · rintro htq rfl
    exact tqpop_empty_parks d hs htq

end Sys2Proof.Proofs.TrapQueue
end

section
/-! PROOFS. The registers of a thread (R103), and the ways in which its instructions complete: by changes of its own thread, at the next word or at
the target of a branch, with the flags that it raises (R54, R75, R76). -/
namespace Sys2Proof.Proofs.ThreadRegisters
open Sys2Proof Sys2Proof.Machine Sys2Proof.Safety
open Sys2Proof.Proofs.NumberFormats (OnlyCounts completes_of_counts)

/-! ### The register files (R103) -/

@[simp] theorem putS_pc (x : Thread) (d : Reg) (v : W64) : (x.putS d v).pc = x.pc := by
  unfold Thread.putS
  split <;> rfl

@[simp] theorem putP_pc (x : Thread) (d : PReg) (v : Bool) : (x.putP d v).pc = x.pc := by
  unfold Thread.putP
  split <;> rfl

theorem pred_of_ne_zero (x : Thread) {r : PReg} (hr : r ≠ 0) : x.pred r = x.preds.getLsbD r.toNat := by
  rw [Thread.pred, beq_false_of_ne hr, Bool.false_or]

/-- The bit of predicate `r` in the one-hot mask of predicate `d`. -/
theorem getLsbD_oneHot : ∀ d r : PReg, (1#8 <<< d.toNat).getLsbD r.toNat = decide (r = d) := by decide

/-- A write of one bit of the predicate file. -/
theorem getLsbD_putBit (preds : BitVec 8) (d r : PReg) (v : Bool) :
    (if v then preds ||| (1#8 <<< d.toNat) else preds &&& ~~~(1#8 <<< d.toNat)).getLsbD r.toNat =
      if r = d then v else preds.getLsbD r.toNat := by
  have hr : r.toNat < 8 := r.isLt
  cases v with
  | false =>
    rw [if_neg Bool.false_ne_true, BitVec.getLsbD_and, BitVec.getLsbD_not, getLsbD_oneHot]
    by_cases h : r = d <;> simp [h, hr]
  | true =>
    rw [if_pos rfl, BitVec.getLsbD_or, getLsbD_oneHot]
    by_cases h : r = d <;> simp [h]

theorem pred_putP (x : Thread) (d r : PReg) (v : Bool) :
    (x.putP d v).pred r = if r = 0 then true else if r = d then v else x.pred r := by
  by_cases hr : r = 0
  · rw [if_pos hr, hr]
    rfl
  · rw [if_neg hr, pred_of_ne_zero _ hr, pred_of_ne_zero _ hr]
    unfold Thread.putP
    by_cases hd : d = 0
    · rw [if_pos hd, if_neg (hd ▸ hr)]
    · rw [if_neg hd]
      exact getLsbD_putBit x.preds d r v

theorem putS_regs (x : Thread) (d : Reg) (v : W64) : ∃ regs, x.putS d v = { x with regs := regs } := by
  unfold Thread.putS
  split
  · exact ⟨x.regs, rfl⟩
  · exact ⟨_, rfl⟩

theorem putP_preds (x : Thread) (d : PReg) (v : Bool) : ∃ preds, x.putP d v = { x with preds := preds } := by
  unfold Thread.putP
  split
  · exact ⟨x.preds, rfl⟩
  · exact ⟨_, rfl⟩

/-- Settles O5: a write changes the register that it names, unless that register is a constant. -/
theorem registerFiles : Obligations.RegisterFiles := fun x v u b =>
  ⟨fun d r => Thread.sreg_putS x d r v, fun d r => Thread.vreg_putV x d r u, fun d r => pred_putP x d r b,
    fun d => putS_regs x d v, fun _ => ⟨_, rfl⟩, fun d => putP_preds x d b⟩

/-! ### How an instruction completes -/

@[simp] theorem flagged_zero (x : Thread) : flagged x 0 = x := by simp [flagged]

section
variable {i : Instr} {s : State}

/-- A state that differs from `s` in the issuing thread alone. -/
structure OnlyMe (s v : State) (x : Thread) : Prop where
  others : OnlyThread s v s.me
  columns : ∀ c, v.col c = s.col c
  thr : v.thr s.me = x

theorem onlyMe_id (s : State) : OnlyMe s s (self s) := ⟨by simp [OnlyThread], fun _ => rfl, rfl⟩

theorem onlyMe_modThr (s : State) (f : Thread → Thread) : OnlyMe s (s.modThr s.me f) (f (self s)) :=
  ⟨by simp +contextual [OnlyThread], fun _ => rfl, by simp⟩

/-- An instruction that changes its own thread alone and then completes at `pc`. -/
theorem completesAt_of {v : State} {x : Thread} {pc : W64} (hv : OnlyMe s v x) (h : exec i s = .next (v.finishAt pc)) :
    CompletesAt i s pc x := by
  have hme : v.me = s.me := NumberFormats.onlyThread_me hv.others
  have hfin : OnlyThread v (v.finishAt pc) s.me := by simp +contextual [OnlyThread, hme]
  refine ⟨_, h, NumberFormats.onlyThread_trans hv.others hfin, fun c => ?_, ?_⟩
  · rw [State.finishAt_col, hme]
    exact NumberFormats.count_col_congr hv.columns s.me 0 c
  · rw [State.finishAt_thr, hme, if_pos rfl, hv.thr]
    rfl

/-- An instruction that changes its own thread by `f` when predicate `g` is set, and completes. -/
theorem completes_guarded {g : PReg} (f : Thread → Thread) (hf : ∀ x, (f x).pc = x.pc)
    (h : exec i s = .next (if s.rdP g then s.modThr s.me f else s).finish) : Completes i s (if s.rdP g then f (self s) else self s) := by
  split
  next hg => exact Laws.completes_of i s _ f rfl (hf _) (h.trans (by rw [if_pos hg]))
  next hg => exact completesAt_of (onlyMe_id s) (h.trans (by rw [if_neg hg]; rfl))

/-- The target of a branch is the sum, where it lies in the code store (R76). -/
theorem branchTarget_eq (pc : W64) (off : BitVec 21) : branchTarget pc off =
    if 0 ≤ (pc.toNat : Int) + off.toInt ∧ (pc.toNat : Int) + off.toInt ≤ 4095 then
      some (BitVec.ofInt 64 ((pc.toNat : Int) + off.toInt))
    else none := by
  refine ite_congr rfl (fun ht => ?_) (fun _ => rfl)
  rw [← BitVec.ofInt_natCast, Int.toNat_of_nonneg ht.1]

/-- A branch of the model, with its two outcomes in the terms of `Branches`. -/
theorem branch_eq (s : State) (off : BitVec 21) (k : State → State) : s.branch off k =
    if 0 ≤ ((self s).pc.toNat : Int) + off.toInt ∧ ((self s).pc.toNat : Int) + off.toInt ≤ 4095 then
      (k s).finishAt (BitVec.ofInt 64 (((self s).pc.toNat : Int) + off.toInt))
    else s.trapMe (cause 0x01) := by
  rw [State.branch, branchTarget_eq]
  by_cases ht : 0 ≤ ((self s).pc.toNat : Int) + off.toInt ∧ ((self s).pc.toNat : Int) + off.toInt ≤ 4095
  · rw [if_pos ht, State.pc, if_pos ht]
  · rw [if_neg ht, State.pc, if_neg ht]

/-- An instruction that branches, with a change `k` of its own thread when the branch is taken. -/
theorem branches_of {off : BitVec 21} {k : State → State} {x : Thread} (hk : OnlyMe s (k s) x) (h : exec i s = .next (s.branch off k)) :
    Branches i s off x := by
  rw [branch_eq] at h
  unfold Branches
  by_cases ht : 0 ≤ ((self s).pc.toNat : Int) + off.toInt ∧ ((self s).pc.toNat : Int) + off.toInt ≤ 4095
  · rw [if_pos ht] at h ⊢
    exact completesAt_of hk h
  · rw [if_neg ht] at h ⊢
    exact h

/-- An instruction that has counted events, raises flags and writes a register of its thread. -/
theorem completes_flagged {u : State} {es : List Nat} (hu : OnlyCounts s u es) {fl : FFlags} (f : Thread → Thread) (hf : ∀ x, (f x).pc = x.pc)
    (h : exec i s = .next ((u.raiseFlags fl).modThr u.me f).finish) : Completes i s (f (flagged (self s) fl)) (es ++ [0]) := by
  refine completes_of_counts hu (v := (u.raiseFlags fl).modThr u.me f) ?_ (fun _ => rfl) ?_ ?_ h
  · simp +contextual [OnlyThread, hu.me]
  · simp [hu.me, hu.thr, flagged]
  · rw [hf]
    rfl

end

end Sys2Proof.Proofs.ThreadRegisters
end

section
/-! PROOFS. Words that are written field by field, in the terms of the encoder, and words that stop the decoder (R77, R83). -/
namespace Sys2Proof.Proofs.WordFormats
open Sys2Proof Sys2Proof.Safety
open Sys2Proof.Proofs.Encoding (FieldIs fieldIs_cat asWord_eq_iff decode_encode)

/-! ### Words from their fields -/

theorem fieldIs_self (w : Word) : FieldIs w 0 w := (asWord_eq_iff w w).1 (BitVec.setWidth_eq w)

section
variable (m : BitVec 6)

theorem fields_wordR (d a b : BitVec 5) (fn : BitVec 11) : let w := wordR m d a b fn
    FieldIs w 26 m ∧ FieldIs w 21 d ∧ FieldIs w 16 a ∧ FieldIs w 11 b ∧ FieldIs w 0 fn := by
  have h : FieldIs (wordR m d a b fn) 0 (cat (cat (cat (cat m d) a) b) fn) := fieldIs_self _
  simpa only [fieldIs_cat, and_assoc] using h

theorem fields_wordI (d a : BitVec 5) (imm : BitVec 16) : let w := wordI m d a imm
    FieldIs w 26 m ∧ FieldIs w 21 d ∧ FieldIs w 16 a ∧ FieldIs w 0 imm := by
  have h : FieldIs (wordI m d a imm) 0 (cat (cat (cat m d) a) imm) := fieldIs_self _
  simpa only [fieldIs_cat, and_assoc] using h

theorem fields_wordB (a : BitVec 5) (off : BitVec 21) : let w := wordB m a off
    FieldIs w 26 m ∧ FieldIs w 21 a ∧ FieldIs w 0 off := by
  have h : FieldIs (wordB m a off) 0 (cat (cat m a) off) := fieldIs_self _
  simpa only [fieldIs_cat, and_assoc] using h

theorem fields_wordV (vd va vb : BitVec 4) (lt g : BitVec 3) (fn : BitVec 8) : let w := wordV m vd va vb lt g fn
    FieldIs w 26 m ∧ FieldIs w 22 vd ∧ FieldIs w 18 va ∧ FieldIs w 14 vb ∧ FieldIs w 11 lt ∧ FieldIs w 8 g ∧ FieldIs w 0 fn := by
  have h : FieldIs (wordV m vd va vb lt g fn) 0 (cat (cat (cat (cat (cat (cat m vd) va) vb) lt) g) fn) := fieldIs_self _
  simpa only [fieldIs_cat, and_assoc] using h

end

/-! A word is an instruction when its fields hold the parts that the encoder joins. -/

section
variable {i : Instr} {x : BitVec 32} {m : BitVec 6} (henc : encode i = some (asWord x)) (hwf : WellFormed i = true)
include henc hwf

theorem decode_of_fields {w : Word} (h : FieldIs w 0 x) : decode w = .ok i :=
  decode_encode i w hwf (henc.trans (congrArg some ((asWord_eq_iff x w).2 h)))

theorem decode_wordR {d a b : BitVec 5} {fn : BitVec 11}
    (hx : ∀ w, FieldIs w 26 m ∧ FieldIs w 21 d ∧ FieldIs w 16 a ∧ FieldIs w 11 b ∧ FieldIs w 0 fn → FieldIs w 0 x) :
    decode (wordR m d a b fn) = .ok i :=
  decode_of_fields henc hwf (hx _ (fields_wordR m d a b fn))

theorem decode_wordI {d a : BitVec 5} {imm : BitVec 16}
    (hx : ∀ w, FieldIs w 26 m ∧ FieldIs w 21 d ∧ FieldIs w 16 a ∧ FieldIs w 0 imm → FieldIs w 0 x) :
    decode (wordI m d a imm) = .ok i :=
  decode_of_fields henc hwf (hx _ (fields_wordI m d a imm))

theorem decode_wordB {a : BitVec 5} {off : BitVec 21} (hx : ∀ w, FieldIs w 26 m ∧ FieldIs w 21 a ∧ FieldIs w 0 off → FieldIs w 0 x) :
    decode (wordB m a off) = .ok i :=
  decode_of_fields henc hwf (hx _ (fields_wordB m a off))

theorem decode_wordV {vd va vb : BitVec 4} {lt g : BitVec 3} {fn : BitVec 8}
    (hx : ∀ w, FieldIs w 26 m ∧ FieldIs w 22 vd ∧ FieldIs w 18 va ∧ FieldIs w 14 vb ∧ FieldIs w 11 lt ∧ FieldIs w 8 g ∧
      FieldIs w 0 fn → FieldIs w 0 x) : decode (wordV m vd va vb lt g fn) = .ok i :=
  decode_of_fields henc hwf (hx _ (fields_wordV m vd va vb lt g fn))

end

/-- The word of the R format with whole fields. -/
theorem decode_encR {i : Instr} {m : BitVec 6} {d a b : BitVec 5} {fn : BitVec 11} (henc : encode i = some (encR m d a b fn))
    (hwf : WellFormed i = true) : decode (wordR m d a b fn) = .ok i :=
  decode_wordR (x := cat m (cat d (cat a (cat b fn)))) henc hwf fun w => by simp only [fieldIs_cat, Nat.zero_add, Nat.reduceAdd, imp_self]

theorem decode_encV {i : Instr} {m : BitVec 6} {lt : LaneType} {g : PReg} {d a b : VReg} {fn : BitVec 8}
    (henc : encode i = some (encV m lt g d a b fn)) (hwf : WellFormed i = true) : decode (wordV m d a b (encLane lt) g fn) = .ok i :=
  decode_wordV (x := cat m (cat d (cat a (cat b (cat (encLane lt) (cat g fn)))))) henc hwf fun w => by
    simp only [fieldIs_cat, Nat.zero_add, Nat.reduceAdd, imp_self]

/-! ### Words that are none -/

/-- The value of a field is that of its two parts. -/
theorem fld_toNat_split (w : Word) (lo n m : Nat) : (fld w lo (n + m)).toNat = 2 ^ m * (fld w (lo + m) n).toNat + (fld w lo m).toNat := by
  rw [Encoding.fld_eq_cat, cat, BitVec.toNat_append, Nat.shiftLeft_eq, Nat.mul_comm, Nat.two_pow_add_eq_or_of_lt (BitVec.isLt _)]

theorem reserved_of {w : Word} {r : Except Reject Instr} (hw : decode w = r) (hr : ∃ e, r = .error e) : Reserved w := by
  rwa [Reserved, hw]

/-- A decoder that asks for fields that do not hold stops. -/
theorem accept_eq_error {ok : Bool} (h : ok = false) (i : Instr) : accept ok i = .error .reservedField := by
  rw [h]
  rfl

end Sys2Proof.Proofs.WordFormats
end

section
/-! PROOFS. The scalar integer instructions, majors 0x00 to 0x0B (R111 to R118). -/
namespace Sys2Proof.Proofs.ScalarInteger
open Sys2Proof Sys2Proof.Machine Sys2Proof.Safety
open Sys2Proof.Laws (writes_of writesP_of)
open Sys2Proof.Proofs.WordFormats
open Sys2Proof.Proofs.Encoding (fieldIs_cat decCond_eq_some)

/-! ### Values (R111, R112, R113) -/

/-- A strict and a weak comparison choose the same value when equal keys mean equal values. -/
theorem ite_lt_eq_ite_le {lt le : Prop} [Decidable lt] [Decidable le] {x y : W64} (himp : lt → le) (heq : le → ¬lt → x = y) :
    (if lt then y else x) = if le then y else x := by
  by_cases hlt : lt
  · rw [if_pos hlt, if_pos (himp hlt)]
  · rw [if_neg hlt]
    split
    next hle => exact heq hle hlt
    next => rfl

section
variable (x y : W64)

theorem min_signed : (if y.slt x then y else x) = if x.toInt ≤ y.toInt then x else y := by
  simp only [BitVec.slt_iff_toInt_lt, ← Int.not_le, ite_not]

theorem max_signed : (if x.slt y then y else x) = if x.toInt ≤ y.toInt then y else x := by
  simp only [BitVec.slt_iff_toInt_lt]
  exact ite_lt_eq_ite_le Int.le_of_lt fun hle hlt => BitVec.eq_of_toInt_eq (Int.le_antisymm hle (Int.not_lt.1 hlt))

theorem min_unsigned : (if y.ult x then y else x) = if x.toNat ≤ y.toNat then x else y := by
  simp only [BitVec.ult_iff_toNat_lt, ← Nat.not_le, ite_not]

theorem max_unsigned : (if x.ult y then y else x) = if x.toNat ≤ y.toNat then y else x := by
  simp only [BitVec.ult_iff_toNat_lt]
  exact ite_lt_eq_ite_le Nat.le_of_lt fun hle hlt => BitVec.eq_of_toNat_eq (Nat.le_antisymm hle (Nat.not_lt.1 hlt))

theorem rotateLeft_shiftAmt : x.rotateLeft (shiftAmt y) = x <<< (y.toNat % 64) ||| x >>> (64 - y.toNat % 64) := by
  rw [BitVec.rotateLeft_def, shiftAmt, Nat.mod_mod]

theorem rotateRight_shiftAmt : x.rotateRight (shiftAmt y) = x >>> (y.toNat % 64) ||| x <<< (64 - y.toNat % 64) := by
  rw [BitVec.rotateRight_def, shiftAmt, Nat.mod_mod]

theorem mul_eq_ofNat : x * y = BitVec.ofNat 64 (x.toNat * y.toNat) := by
  rw [BitVec.ofNat_mul, BitVec.ofNat_toNat, BitVec.ofNat_toNat, BitVec.setWidth_eq, BitVec.setWidth_eq]

/-- The upper half of a product of 128 bits. -/
theorem ofInt_shift_setWidth (p : Int) : ((BitVec.ofInt 128 p) >>> 64).setWidth 64 = BitVec.ofInt 64 (p / 2 ^ 64) := by
  apply BitVec.eq_of_toNat_eq
  simp only [BitVec.toNat_setWidth, BitVec.toNat_ushiftRight, BitVec.toNat_ofInt, Nat.shiftRight_eq_div_pow]
  omega

theorem mulHigh_eq : mulHigh x y = BitVec.ofInt 64 (x.toInt * y.toInt / 2 ^ 64) := by
  rw [← ofInt_shift_setWidth, BitVec.ofInt_mul]
  rfl

theorem mulHighU_eq : mulHighU x y = BitVec.ofNat 64 (x.toNat * y.toNat / 2 ^ 64) := by
  apply BitVec.eq_of_toNat_eq
  simp only [mulHighU, BitVec.toNat_setWidth, BitVec.toNat_ushiftRight, BitVec.toNat_mul, BitVec.toNat_ofNat, Nat.shiftRight_eq_div_pow,
    BitVec.truncate_eq_setWidth, Nat.mod_mul_mod, Nat.mul_mod_mod]
  omega

theorem divSigned_eq : divSigned x y = if y = 0 then BitVec.ofNat 64 (2 ^ 64 - 1) else BitVec.ofInt 64 (Int.tdiv x.toInt y.toInt) := by
  refine ite_congr rfl (fun _ => rfl) (fun _ => BitVec.eq_of_toInt_eq ?_)
  rw [BitVec.toInt_sdiv, BitVec.toInt_ofInt]

theorem divUnsigned_eq : divUnsigned x y = if y = 0 then BitVec.ofNat 64 (2 ^ 64 - 1) else BitVec.ofNat 64 (x.toNat / y.toNat) := by
  refine ite_congr rfl (fun _ => rfl) (fun _ => ?_)
  rw [← BitVec.toNat_udiv, BitVec.ofNat_toNat, BitVec.setWidth_eq]

theorem remSigned_eq : remSigned x y = if y = 0 then x else BitVec.ofInt 64 (Int.tmod x.toInt y.toInt) := by
  refine ite_congr rfl (fun _ => rfl) (fun _ => ?_)
  rw [← BitVec.toInt_srem, BitVec.ofInt_toInt]

theorem remUnsigned_eq : remUnsigned x y = if y = 0 then x else BitVec.ofNat 64 (x.toNat % y.toNat) := by
  refine ite_congr rfl (fun _ => rfl) (fun _ => ?_)
  rw [← BitVec.toNat_umod, BitVec.ofNat_toNat, BitVec.setWidth_eq]

end

/-! ### Reserved words of majors 0x00, 0x01, 0x02 and 0x09 (R111, R117) -/

section
variable {w : Word}

theorem decMajor00_reserved (h : 10 < (fld w 0 11).toNat) : decMajor00 w = .error .reservedFn := by
  unfold decMajor00
  split
  case h_12 => rfl
  all_goals omega

theorem decMajor01_reserved (h : (fld w 0 11).toNat = 0 ∨ 5 < (fld w 0 11).toNat) : decMajor01 w = .error .reservedFn := by
  unfold decMajor01
  split
  case h_6 => rfl
  all_goals omega

theorem decMajor02_reserved (h : (fld w 0 11).toNat = 0 ∨ 7 < (fld w 0 11).toNat) : decMajor02 w = .error .reservedFn := by
  unfold decMajor02
  split
  case h_8 => rfl
  all_goals omega

theorem decMajor09_reserved (h : fld w 8 8 ≠ 0 ∨ fld w 6 2 = 3#2) : decMajor09 w = .error .reservedFn := by
  have hsplit : (fld w 6 10).toNat = 4 * (fld w 8 8).toNat + (fld w 6 2).toNat := fld_toNat_split w 6 8 2
  have hbig : 3 ≤ (fld w 6 10).toNat := by
    obtain h | h := h
    · have hhigh : (fld w 8 8).toNat ≠ 0 := BitVec.toNat_ne_iff_ne.2 h
      omega
    · have hlow : (fld w 6 2).toNat = 3 := congrArg BitVec.toNat h
      omega
  unfold decMajor09
  split
  case h_4 => rfl
  all_goals omega

theorem reserved_fn (h : fld w 26 6 = 0x00#6 ∧ 10 < (fld w 0 11).toNat ∨
    fld w 26 6 = 0x01#6 ∧ ((fld w 0 11).toNat = 0 ∨ 5 < (fld w 0 11).toNat) ∨
    fld w 26 6 = 0x02#6 ∧ ((fld w 0 11).toNat = 0 ∨ 7 < (fld w 0 11).toNat)) : Reserved w := by
  obtain ⟨hm, hfn⟩ | ⟨hm, hfn⟩ | ⟨hm, hfn⟩ := h
  · exact reserved_of (decode_major00 w hm) ⟨_, decMajor00_reserved hfn⟩
  · exact reserved_of (decode_major01 w hm) ⟨_, decMajor01_reserved hfn⟩
  · exact reserved_of (decode_major02 w hm) ⟨_, decMajor02_reserved hfn⟩

end

/-! ### Arithmetic, logic and shifts (R111, R112, R113, R116, R117) -/

section
variable (s : State) (d a b : Reg)

/-- An instruction that writes what the model's function `f` gives of two registers, where that is `v`. -/
theorem writes_bin {i : Instr} {f : W64 → W64 → W64} {v : W64} (hv : f (s.rd a) (s.rd b) = v) (h : exec i s = .next (s.bin d a b f)) :
    Writes i s d v :=
  writes_of i s d v (hv ▸ h)

end

/-- Settles O1: each result is the value that its table gives, and each word has the fields that the encoder joins. -/
theorem integerArithmetic : Obligations.IntegerArithmetic := by
  refine ⟨fun s d a b imm k => ?_, fun w hm h => reserved_of (decode_major09 w hm) ⟨_, decMajor09_reserved h⟩, fun w => reserved_fn,
    fun d a b imm k => ?_, fun s d a b => ?_⟩
  · exact ⟨writes_of _ s d _ rfl, writes_of _ s d _ rfl, writes_of _ s d _ rfl, writes_of _ s d _ rfl, writes_of _ s d _ rfl,
      writes_of _ s d _ rfl, writes_bin s d a b (min_signed _ _) rfl, writes_bin s d a b (max_signed _ _) rfl,
      writes_bin s d a b (min_unsigned _ _) rfl, writes_bin s d a b (max_unsigned _ _) rfl, writes_of _ s d _ rfl, writes_of _ s d _ rfl,
      writes_of _ s d _ rfl, writes_bin s d a b (rotateLeft_shiftAmt _ _) rfl, writes_bin s d a b (rotateRight_shiftAmt _ _) rfl,
      writes_of _ s d _ rfl, writes_of _ s d _ rfl, writes_of _ s d _ rfl, writes_of _ s d _ rfl, writes_of _ s d _ rfl,
      writes_of _ s d _ rfl, writes_of _ s d _ rfl⟩
  · refine ⟨?_, ?_, ?_, ?_, ?_, ?_, ?_, ?_, ?_, ?_, ?_, ?_, ?_, ?_, ?_, ?_, ?_, ?_, ?_, ?_, ?_, ?_,
      ?addi, ?andi, ?ori, ?xori, ?shli, ?shri, ?srai⟩
    case shli => exact decode_wordI (imm := cat 0#10 k) rfl rfl (by simp +contextual [↓fieldIs_cat])
    case shri => exact decode_wordI (imm := cat 1#10 k) rfl rfl (by simp +contextual [↓fieldIs_cat])
    case srai => exact decode_wordI (imm := cat 2#10 k) rfl rfl (by simp +contextual [↓fieldIs_cat])
    case addi | andi | ori | xori => exact decode_wordI rfl rfl (by simp +contextual [↓fieldIs_cat])
    all_goals exact decode_encR rfl rfl
  · exact ⟨writes_bin s d a b (mul_eq_ofNat _ _) rfl, writes_bin s d a b (mulHigh_eq _ _) rfl, writes_bin s d a b (mulHighU_eq _ _) rfl,
      writes_bin s d a b (divSigned_eq _ _) rfl, writes_bin s d a b (divUnsigned_eq _ _) rfl, writes_bin s d a b (remSigned_eq _ _) rfl,
      writes_bin s d a b (remUnsigned_eq _ _) rfl⟩

/-! ### Compares (R115) -/

theorem condHolds_iff (c : Cond) (x y : W64) : condHolds c x y = true ↔ conditionMeans c x y := by
  cases c with
  | eq => exact beq_iff_eq
  | ne => exact bne_iff_ne
  | lt => exact BitVec.slt_iff_toInt_lt
  | ge => simp [condHolds, conditionMeans, BitVec.slt_eq_decide]
  | ltu => exact BitVec.ult_iff_toNat_lt
  | geu => simp [condHolds, conditionMeans, BitVec.ult_eq_decide]

theorem cmpImm_eq (c : Cond) (imm : BitVec 13) : cmpImm c imm = if c = .ltu ∨ c = .geu then imm.zeroExtend 64 else imm.signExtend 64 := by
  cases c <;> rfl

/-- The code of a condition is the one that the encoder writes (R115). -/
theorem code_eq_encCond {n : BitVec 3} {c : Cond}
    (h : (n, c) ∈ [(0#3, .eq), (1#3, .ne), (2#3, .lt), (3#3, .ge), (4#3, .ltu), (5#3, .geu)]) : n = encCond c := by
  revert n
  cases c <;> decide

theorem toNat_lt_of_decCond {x : BitVec 3} {c : Cond} (h : decCond x = some c) : x.toNat < 6 := by
  rw [decCond_eq_some.1 h]
  cases c <;> decide

theorem decMajor04_reserved {w : Word} (h : fld w 24 2 ≠ 0 ∨ 6 ≤ (fld w 0 11).toNat) : ∃ e, decMajor04 w = .error e := by
  have hsplit : (fld w 0 11).toNat = 8 * (fld w 3 8).toNat + (fld w 0 3).toNat := fld_toNat_split w 0 8 3
  unfold decMajor04
  split
  next c hc =>
    have hcond := toNat_lt_of_decCond hc
    refine ⟨_, accept_eq_error (Bool.eq_false_iff.2 fun hok => ?_) _⟩
    obtain ⟨hhigh, hmid⟩ : fld w 24 2 = 0 ∧ fld w 3 8 = 0 := by simpa using hok
    have hmid0 : (fld w 3 8).toNat = 0 := congrArg BitVec.toNat hmid
    have hbig := h.resolve_left fun hne => hne hhigh
    omega
  next => exact ⟨_, rfl⟩

theorem decMajor0A_reserved {w : Word} (h : fld w 24 2 ≠ 0 ∨ 6 ≤ (fld w 13 3).toNat) : ∃ e, decMajor0A w = .error e := by
  unfold decMajor0A
  split
  next c hc =>
    have hhigh := h.resolve_right (Nat.not_le_of_gt (toNat_lt_of_decCond hc))
    exact ⟨_, accept_eq_error (beq_false_of_ne hhigh) _⟩
  next => exact ⟨_, rfl⟩

/-- Settles O3: the model's test of a condition is what the condition means of the two values. -/
theorem compares : Obligations.Compares := fun s p c a b imm =>
  ⟨⟨_, writesP_of _ s p _ rfl, condHolds_iff c _ _⟩,
    ⟨_, writesP_of _ s p _ rfl, cmpImm_eq c imm ▸ condHolds_iff c _ _⟩,
    fun w hm h => reserved_of (decode_major04 w hm) (decMajor04_reserved h),
    fun w hm h => reserved_of (decode_major0A w hm) (decMajor0A_reserved h),
    fun n hn => by
      rw [code_eq_encCond hn]
      exact ⟨decode_wordR (d := cat 0#2 p) (fn := cat 0#8 (encCond c)) rfl rfl (by simp +contextual [↓fieldIs_cat]),
        decode_wordI (d := cat 0#2 p) (imm := cat (encCond c) imm) rfl rfl (by simp +contextual [↓fieldIs_cat])⟩⟩

/-! ### Counts (R114) -/

/-- A count that stops at `k` has counted `k`. -/
theorem length_takeWhile_range {p : Nat → Bool} {n k : Nat} (hk : k ≤ n) (hp : ∀ i, i < k → p i = true) (hstop : k < n → p k = false) :
    ((List.range n).takeWhile p).length = k := by
  obtain ⟨m, rfl⟩ := Nat.exists_eq_add_of_le hk
  rw [List.range_add, List.takeWhile_append_of_pos (fun i hi => hp i (List.mem_range.1 hi))]
  cases m with
  | zero => simp
  | succ m =>
    have hfirst : p k = false := hstop (by omega)
    simp [List.range_succ_eq_map, hfirst]

theorem countLeading_eq (x : W64) : countLeading x = leadingZeros x := by
  refine (length_takeWhile_range (by unfold countLeading; omega) (fun i hi => ?_) (fun hlt => ?_)).symm
  · have hsmall : x.toNat < 2 ^ bitLen x.toNat := by
      unfold bitLen
      split
      · omega
      · exact Nat.lt_log2_self
    have hpow : 2 ^ bitLen x.toNat ≤ 2 ^ (63 - i) := Nat.pow_le_pow_right (by decide) (by unfold countLeading at hi; omega)
    rw [Bool.not_eq_true', BitVec.getLsbD, Nat.testBit_lt_two_pow (by omega)]
  · have hne : x.toNat ≠ 0 := by
      intro h0
      simp [countLeading, bitLen, h0] at hlt
    have htop : Nat.log2 x.toNat < 64 := (Nat.log2_lt hne).2 x.isLt
    have hpos : 63 - countLeading x = Nat.log2 x.toNat := by
      rw [countLeading, bitLen, if_neg hne]
      omega
    rw [hpos, BitVec.getLsbD, Nat.testBit_log2 hne]
    rfl

/-- The lowest bit of a value, alone (R114). -/
theorem and_neg_eq_twoPow {x : W64} {k : Nat} (hk : x.getLsbD k = true) (hlow : ∀ j, j < k → x.getLsbD j = false) :
    x &&& -x = BitVec.twoPow 64 k := by
  apply BitVec.eq_of_getLsbD_eq
  intro i hi
  rw [BitVec.getLsbD_and, BitVec.getLsbD_neg, BitVec.getLsbD_twoPow]
  obtain h | rfl | h := Nat.lt_trichotomy i k
  · simp [hlow i h, Nat.ne_of_gt h]
  · have hnone : ¬∃ j, j < i ∧ x.getLsbD j = true := fun ⟨j, hj, hx⟩ => by simp [hlow j hj] at hx
    simp [hk, hi, hnone]
  · have hsome : ∃ j, j < i ∧ x.getLsbD j = true := ⟨k, h, hk⟩
    simp [hi, hsome, Nat.ne_of_lt h]

/-- Of the first `n` values of a test none holds, or one is the first to hold. -/
theorem none_or_first (p : Nat → Bool) : ∀ n, (∀ i, i < n → p i = false) ∨ ∃ k, k < n ∧ p k = true ∧ ∀ j, j < k → p j = false
  | 0 => .inl nofun
  | n + 1 => by
    obtain h | ⟨k, hk, hfirst⟩ := none_or_first p n
    · cases hp : p n with
      | true => exact .inr ⟨n, Nat.lt_succ_self n, hp, h⟩
      | false =>
        refine .inl fun i hi => ?_
        obtain hlt | rfl := Nat.lt_succ_iff_lt_or_eq.1 hi
        · exact h i hlt
        · exact hp
    · exact .inr ⟨k, Nat.lt_succ_of_lt hk, hfirst⟩

theorem countTrailing_eq (x : W64) : countTrailing x = trailingZeros x := by
  unfold countTrailing
  obtain hnone | ⟨k, hlt, hk, hlow⟩ := none_or_first x.getLsbD 64
  · have h0 : x = 0 := BitVec.eq_of_getLsbD_eq fun i hi => (hnone i hi).trans BitVec.getLsbD_zero.symm
    rw [if_pos h0]
    exact (length_takeWhile_range (Nat.le_refl 64) (fun i hi => by simp [hnone i hi]) (fun h => absurd h (Nat.lt_irrefl 64))).symm
  · have hne : x ≠ 0 := fun h0 => Bool.false_ne_true (BitVec.getLsbD_zero.symm.trans (h0 ▸ hk))
    rw [if_neg hne, and_neg_eq_twoPow hk hlow, BitVec.toNat_twoPow_of_lt hlt, Nat.log2_two_pow]
    exact (length_takeWhile_range (Nat.le_of_lt hlt) (fun j hj => by simp [hlow j hj]) (fun _ => by simp [hk])).symm

theorem countOnes_eq (x : W64) : countOnes x = (List.range 64).countP (fun i => x.getLsbD i) := List.countP_eq_length_filter.symm

/-! ### Fields (R114, R118) -/

theorem signExtend_setWidth (n : Nat) (x : W64) : (x.setWidth n).signExtend 64 = BitVec.ofInt 64 (toSigned n x.toNat) := by
  have hint : (x.setWidth n).toInt = toSigned n x.toNat := by
    rw [BitVec.toInt_eq_toNat_cond, BitVec.toNat_setWidth]
    simp only [toSigned, ← Nat.not_lt, ite_not, Int.natCast_pow, Int.cast_ofNat_Int]
  rw [BitVec.signExtend, hint]

theorem fieldWidth_eq (y : W64) : fieldWidth y = y.toNat / 256 % 64 + 1 := by
  simp [fieldWidth, bits, Nat.shiftRight_eq_div_pow]

theorem getLsbD_fieldMask (y : W64) (i : Nat) : (fieldMask y).getLsbD i = decide (i < fieldWidth y) := by
  have hwidth : fieldWidth y ≤ 64 := by
    rw [fieldWidth_eq]
    omega
  rw [fieldMask, BitVec.getLsbD_ofNat, Nat.testBit_two_pow_sub_one, ← Bool.decide_and]
  exact decide_eq_decide.2 (by omega)

theorem getLsbD_bext (x y : W64) (i : Nat) :
    ((x >>> fieldPos y) &&& fieldMask y).getLsbD i = (decide (i < fieldWidth y) && x.getLsbD (fieldPos y + i)) := by
  rw [BitVec.getLsbD_and, BitVec.getLsbD_ushiftRight, getLsbD_fieldMask, Bool.and_comm]

theorem getLsbD_bins (old x y : W64) {i : Nat} (hi : i < 64) :
    ((old &&& ~~~(fieldMask y <<< fieldPos y)) ||| ((x <<< fieldPos y) &&& (fieldMask y <<< fieldPos y))).getLsbD i =
      if fieldPos y ≤ i ∧ i < fieldPos y + fieldWidth y then x.getLsbD (i - fieldPos y) else old.getLsbD i := by
  simp only [BitVec.getLsbD_or, BitVec.getLsbD_and, BitVec.getLsbD_not, BitVec.getLsbD_shiftLeft, getLsbD_fieldMask, hi, decide_true,
    Bool.true_and]
  by_cases hlo : i < fieldPos y
  · rw [if_neg (by omega)]
    simp [hlo]
  · have hin : i - fieldPos y < fieldWidth y ↔ fieldPos y ≤ i ∧ i < fieldPos y + fieldWidth y := by omega
    by_cases h : i - fieldPos y < fieldWidth y
    · rw [if_pos (hin.1 h)]
      simp [hlo, h]
    · rw [if_neg (mt hin.2 h)]
      simp [hlo, h]

/-- The ones of a 16-bit field. -/
theorem getLsbD_field16 (j : Nat) : (0xFFFF : W64).getLsbD j = decide (j < 16) := by
  have hones : (0xFFFF : W64) = BitVec.ofNat 64 (2 ^ 16 - 1) := rfl
  rw [hones, BitVec.getLsbD_ofNat, Nat.testBit_two_pow_sub_one, ← Bool.decide_and]
  exact decide_eq_decide.2 (by omega)

theorem getLsbD_movkVal (old : W64) (k : BitVec 2) (imm : BitVec 16) {i : Nat} (hi : i < 64) :
    (movkVal old k imm).getLsbD i = if i / 16 = k.toNat then imm.getLsbD (i % 16) else old.getLsbD i := by
  simp only [movkVal, BitVec.getLsbD_or, BitVec.getLsbD_and, BitVec.getLsbD_not, BitVec.getLsbD_shiftLeft, getLsbD_field16, hi, decide_true,
    Bool.true_and, BitVec.truncate_eq_setWidth, BitVec.getLsbD_setWidth]
  obtain h | h | h := Nat.lt_trichotomy (i / 16) k.toNat
  · have hlo : i < 16 * k.toNat := by omega
    simp [Nat.ne_of_lt h, hlo]
  · have hlo : ¬i < 16 * k.toNat := by omega
    have hmod : i - 16 * k.toNat = i % 16 := by omega
    have hin : i % 16 < 16 := by omega
    have hword : i % 16 < 64 := by omega
    simp [h, hlo, hmod, hin, hword]
  · have hlo : ¬i < 16 * k.toNat := by omega
    have hge : 16 ≤ i - 16 * k.toNat := by omega
    simp [Nat.ne_of_gt h, hlo, hge]

/-! ### Reserved words of majors 0x03 and 0x0B (R114, R118) -/

section
variable {w : Word}

theorem decR2_reserved {mk : Reg → Reg → Instr} (h : fld w 11 5 ≠ 0) : ∃ e, decR2 w mk = .error e :=
  ⟨_, accept_eq_error (beq_false_of_ne h) _⟩

theorem decMajor03_reserved (h : (fld w 0 11).toNat = 0 ∨ 8 < (fld w 0 11).toNat ∨
    (fld w 0 11).toNat ≠ 4 ∧ (fld w 0 11).toNat ≠ 5 ∧ fld w 11 5 ≠ 0) : ∃ e, decMajor03 w = .error e := by
  unfold decMajor03
  split
  case h_9 => exact ⟨_, rfl⟩
  case h_4 | h_5 => omega
  all_goals
    refine decR2_reserved (fun hb => ?_)
    simp only [hb, ne_eq, not_true_eq_false, and_false, or_false] at h
    omega

theorem decMajor0B_reserved (h : fld w 18 3 ≠ 0) : ∃ e, decMajor0B w = .error e := ⟨_, accept_eq_error (beq_false_of_ne h) _⟩

end

/-- Settles O2: bit by bit of each result, and the zeros of a count from its end. -/
theorem bitFields : Obligations.BitFields := by
  intro s d a b k imm
  refine ⟨?clz, ?ctz, ?popc, ⟨_, writes_of _ s d _ rfl, fun i => ?bext⟩, ⟨_, writes_of _ s d _ rfl, fun i hi => ?bins⟩, ?sxtB, ?sxtH, ?sxtW,
    ⟨_, writes_of _ s d _ rfl, fun i => getLsbD_movkVal _ k imm⟩, fun w hm h => reserved_of (decode_major03 w hm) (decMajor03_reserved h),
    fun w hm h => reserved_of (decode_major0B w hm) (decMajor0B_reserved h), decode_encR rfl rfl, decode_encR rfl rfl, decode_encR rfl rfl,
    decode_encR rfl rfl, decode_encR rfl rfl, decode_encR rfl rfl, decode_encR rfl rfl, decode_encR rfl rfl, ?movk⟩
  case clz => exact countLeading_eq _ ▸ writes_of _ s d _ rfl
  case ctz => exact countTrailing_eq _ ▸ writes_of _ s d _ rfl
  case popc => exact countOnes_eq _ ▸ writes_of _ s d _ rfl
  case bext => exact fieldWidth_eq (s.rd b) ▸ getLsbD_bext _ _ i
  case bins => exact fieldWidth_eq (s.rd b) ▸ getLsbD_bins _ _ _ hi
  case sxtB => exact signExtend_setWidth 8 _ ▸ writes_of _ s d _ rfl
  case sxtH => exact signExtend_setWidth 16 _ ▸ writes_of _ s d _ rfl
  case sxtW => exact signExtend_setWidth 32 _ ▸ writes_of _ s d _ rfl
  case movk => exact decode_wordI (a := cat 0#3 k) rfl rfl (by simp +contextual [↓fieldIs_cat])

end Sys2Proof.Proofs.ScalarInteger
end

section
/-! PROOFS. Control flow and predicates, majors 0x10 to 0x13 (R119 to R122), and scalar floating point, majors 0x0C to 0x0F (R123 to R127). -/
namespace Sys2Proof.Proofs.ControlAndFloat
open Sys2Proof Sys2Proof.Machine Sys2Proof.Safety
open Sys2Proof.Laws (writes_of writesP_of)
open Sys2Proof.Proofs.ThreadRegisters Sys2Proof.Proofs.WordFormats
open Sys2Proof.Proofs.Encoding (fieldIs_cat)
open Sys2Proof.Proofs.NumberFormats (onlyCounts_none)

/-! ### Branches, calls, loops and jumps (R119 to R122) -/

section
variable (s : State) (l a : Reg) (off : BitVec 21)

theorem bra_cases (neg : Bool) (p : PReg) :
    if (s.rdP p ^^ neg) = true then Branches (.bra neg p off) s off (self s) else Completes (.bra neg p off) s (self s) := by
  have hexec : exec (.bra neg p off) s = .next (if (s.rdP p ^^ neg) = true then s.branch off id else s.finish) := rfl
  split
  next h => exact branches_of (onlyMe_id s) (hexec.trans (by rw [if_pos h]))
  next h => exact completesAt_of (onlyMe_id s) (hexec.trans (by rw [if_neg h]; rfl))

theorem call_branches : Branches (.call l off) s off ((self s).putS l ((self s).pc + 1)) :=
  branches_of (k := fun s => s.wr l (s.pc + 1)) (onlyMe_modThr s fun x => x.putS l ((self s).pc + 1)) rfl

theorem loop_cases : let t := s.rd a - 1
    if t = 0 then Completes (.loop a off) s ((self s).putS a t) else Branches (.loop a off) s off ((self s).putS a t) := by
  intro t
  have hexec : exec (.loop a off) s = .next (if t ≠ 0 then s.branch off (fun s => s.wr a t) else (s.wr a t).finish) := rfl
  have hwr := onlyMe_modThr s fun x => x.putS a t
  split
  next h => exact Laws.completes_of _ s _ (fun x => x.putS a t) rfl (putS_pc _ _ _) (hexec.trans (by rw [if_neg (fun hne => hne h)]; rfl))
  next h => exact branches_of (k := fun s => s.wr a t) hwr (hexec.trans (by rw [if_pos h]))

theorem jmpr_completes : CompletesAt (.jmpr a) s (s.rd a) (self s) := completesAt_of (onlyMe_id s) rfl

theorem callr_completes : CompletesAt (.callr l a) s (s.rd a) ((self s).putS l ((self s).pc + 1)) :=
  completesAt_of (onlyMe_modThr s fun x => x.putS l ((self s).pc + 1)) rfl

end

/-- A word with three predicates in five-bit fields (R80). -/
theorem decode_predicates {i : Instr} {p q r : PReg} {fn : BitVec 11}
    (henc : encode i = some (asWord (cat 0x13#6 (cat 0#2 (cat p (cat 0#2 (cat q (cat 0#2 (cat r fn)))))))))
    (hwf : WellFormed i = true) : decode (wordR 0x13 (0#2 ++ p) (0#2 ++ q) (0#2 ++ r) fn) = .ok i :=
  decode_wordR (d := cat 0#2 p) (a := cat 0#2 q) (b := cat 0#2 r) henc hwf (by simp +contextual [↓fieldIs_cat])

theorem bnat_eq (v : Bool) : BitVec.ofNat 64 (bnat v) = if v then 1 else 0 := by cases v <;> rfl

theorem reserved_loop_or_bra {w : Word} (h : fld w 26 6 = 0x12#6 ∧ fld w 21 5 = 0 ∨ fld w 26 6 = 0x10#6 ∧ fld w 24 1 = 1#1) : Reserved w := by
  obtain ⟨hm, hc⟩ | ⟨hm, hz⟩ := h
  · exact reserved_of (decode_major12 w hm) ⟨_, accept_eq_error (by rw [hc]; rfl) _⟩
  · exact reserved_of (decode_major10 w hm) ⟨_, accept_eq_error (by rw [hz]; rfl) _⟩

/-- Settles O4: a branch has two outcomes, and each word has the fields that the encoder joins. -/
theorem controlAndPredicates : Obligations.ControlAndPredicates := by
  refine ⟨fun s neg p l a off => ⟨bra_cases s off neg p, call_branches s l off, loop_cases s a off, jmpr_completes s a, callr_completes s l a⟩,
    fun w => reserved_loop_or_bra, fun p q r l a off => ?words, fun s p q r d a => ?predicates⟩
  case words =>
    refine ⟨?_, ?_, ?_, fun ha => ?_, decode_encR rfl rfl, decode_encR rfl rfl, decode_predicates rfl rfl,
      decode_predicates rfl rfl, decode_predicates rfl rfl, ?_, ?_, ?_⟩
    · exact decode_wordB (a := cat (cat (bit1 false) 0#1) p) rfl rfl (by simp +contextual [↓fieldIs_cat])
    · exact decode_wordB (a := cat (cat (bit1 true) 0#1) p) rfl rfl (by simp +contextual [↓fieldIs_cat])
    · exact decode_wordB rfl rfl (by simp +contextual [↓fieldIs_cat])
    · exact decode_wordB (i := .loop a off) rfl (bne_iff_ne.2 ha) (by simp +contextual [↓fieldIs_cat])
    · exact decode_wordR (d := cat 0#2 p) (a := cat 0#2 q) rfl rfl (by simp +contextual [↓fieldIs_cat])
    · exact decode_wordR (d := cat 0#2 p) rfl rfl (by simp +contextual [↓fieldIs_cat])
    · exact decode_wordR (a := cat 0#2 q) rfl rfl (by simp +contextual [↓fieldIs_cat])
  case predicates =>
    exact ⟨writesP_of _ s p _ rfl, writesP_of _ s p _ rfl, writesP_of _ s p _ rfl, writesP_of _ s p _ rfl, writesP_of _ s p _ rfl,
      bnat_eq (s.rdP q) ▸ writes_of _ s d _ rfl⟩

/-! ### Scalar floating point (R123 to R127) -/

section
variable {i : Instr} {s : State} {fl : FFlags}

/-- An instruction that raises flags and writes a scalar register. -/
theorem completes_flagged_putS {d : Reg} {v : W64} (h : exec i s = .next ((s.raiseFlags fl).wr d v).finish) :
    Completes i s ((flagged (self s) fl).putS d v) :=
  completes_flagged (onlyCounts_none s) (fun x => x.putS d v) (fun x => putS_pc x d v) h

theorem completes_flagged_putP {p : PReg} {v : Bool} (h : exec i s = .next ((s.raiseFlags fl).wrP p v).finish) :
    Completes i s ((flagged (self s) fl).putP p v) :=
  completes_flagged (onlyCounts_none s) (fun x => x.putP p v) (fun x => putP_pc x p v) h

end

/-- Settles O6: every result is a number and its flags, which the instruction writes and raises. -/
theorem scalarFloat : Obligations.ScalarFloat := fun s d _ _ _ _ _ _ =>
  ⟨completes_flagged_putS rfl, completes_flagged_putS rfl, completes_flagged_putS rfl, completes_flagged_putS rfl, completes_flagged_putS rfl,
    completes_flagged_putS rfl, completes_flagged_putS rfl, completes_flagged_putS rfl, completes_flagged_putS rfl, completes_flagged_putS rfl,
    completes_flagged_putP rfl, writes_of _ s d _ rfl, completes_flagged_putS rfl⟩

end Sys2Proof.Proofs.ControlAndFloat
end

section
/-! PROOFS. Lane-wise instructions, majors 0x14 to 0x16 and 0x1C (R129 to R132, R134, R138): how such an instruction completes, and the value of
each lane. -/
namespace Sys2Proof.Proofs.VectorLanes
open Sys2Proof Sys2Proof.Machine Sys2Proof.Safety
open Sys2Proof.Proofs.ThreadRegisters Sys2Proof.Proofs.WordFormats
open Sys2Proof.Proofs.Encoding (decLane_eq_some)
open Sys2Proof.Proofs.NumberFormats (lane_buildLanes onlyCounts_one completes_flagged_putV completes_unchanged)

/-! ### How an instruction on vectors completes (R129) -/

section
variable {i : Instr} {s : State} {lt : LaneType} {g : PReg} {d : VReg}

/-- An instruction that writes one vector register under a predicate. -/
theorem writesV_of {v : Vec} (h : exec i s = .next (s.vecResult g d v)) : WritesV i s g d v :=
  completes_guarded (fun x => x.putV d v) (fun _ => rfl) h

section
variable {f r : Nat → Nat} (h : exec i s = .next (s.vecResult g d (buildLanes lt f)))
include h

/-- An instruction that writes the lanes `f`, which have the low bits of the lanes `r`. -/
theorem laneWise_of (hr : ∀ n, n < lt.lanes → f n % 2 ^ lt.width = r n % 2 ^ lt.width) : LaneWise i s lt g d 0 [0] r := by
  refine ⟨buildLanes lt f, ?_, fun n hn => (lane_buildLanes f hn).trans (hr n hn)⟩
  rw [flagged_zero]
  exact writesV_of h

theorem laneWise_of_eq (hr : ∀ n, n < lt.lanes → f n = r n) : LaneWise i s lt g d 0 [0] r :=
  laneWise_of h fun n hn => congrArg (· % 2 ^ lt.width) (hr n hn)

end

/-- A floating-point instruction on lanes counts its event, raises the flags of all lanes and writes their results. -/
theorem laneWiseFp_of {f : Nat → Nat × FFlags} (h : exec i s = .next (s.vecFp lt g d f)) : LaneWiseFp i s lt g d f := by
  have hcount := onlyCounts_one s 10
  have hguard : (s.count s.me 10).rdP g = s.rdP g := hcount.rdP g
  have hexec : exec i s = .next (if (s.count s.me 10).rdP g then ((s.count s.me 10).raiseFlags (flagUnion ((List.range lt.lanes).map f))).wrV d
      (buildLanes lt (fun n => (f n).1)) else s.count s.me 10).finish := by
    rw [h, State.vecFp, List.map_map]
    rfl
  refine ⟨buildLanes lt (fun n => (f n).1), ?_, fun n hn => lane_buildLanes _ hn⟩
  rw [hguard] at hexec
  split
  next hg => exact completes_flagged_putV hcount (hexec.trans (by rw [if_pos hg]))
  next hg => exact completes_unchanged hcount (hexec.trans (by rw [if_neg hg]))

end

/-! ### Integers in lanes (R47, R130) -/

theorem width_pos (lt : LaneType) : 0 < lt.width := by cases lt <;> decide

theorem lane_lt (w : Nat) (v : Vec) (n : Nat) : lane w v n < 2 ^ w := Nat.mod_lt _ (Nat.two_pow_pos w)

theorem two_pow_pos (n : Nat) : (0 : Int) < 2 ^ n := Int.pow_pos (by decide)

theorem wrapTo_mod (w : Nat) (z : Int) : wrapTo w z % 2 ^ w = wrapTo w z := by
  refine Nat.mod_eq_of_lt ((Int.toNat_lt (Int.emod_nonneg z (Int.ne_of_gt (two_pow_pos w)))).2 ?_)
  rw [Int.natCast_pow]
  exact Int.emod_lt_of_pos z (two_pow_pos w)

theorem wrapTo_natCast (w n : Nat) : wrapTo w (n : Int) = n % 2 ^ w := by
  unfold wrapTo
  norm_cast

/-- An integer wraps to the same lane as any other that differs from it by a multiple of `2^w`. -/
theorem wrapTo_add_pow (w : Nat) (z : Int) : wrapTo w (z + 2 ^ w) = wrapTo w z := by
  rw [wrapTo, Int.add_emod_right, wrapTo]

/-- A lane read as a signed integer wraps back to its bits. -/
theorem wrapTo_sgn (w x : Nat) : wrapTo w (sgn w x) = x % 2 ^ w := by
  have hbits : wrapTo w ((x % 2 ^ w : Nat) : Int) = x % 2 ^ w := by rw [wrapTo_natCast, Nat.mod_mod]
  unfold sgn toSigned
  dsimp only
  split
  · rw [← wrapTo_add_pow, Int.sub_add_cancel, hbits]
  · exact hbits

theorem clampInt_eq {lo hi : Int} (h : lo ≤ hi) (z : Int) : clampInt lo hi z = max lo (min hi z) := by
  unfold clampInt
  split
  · omega
  · split <;> omega

theorem satLane_eq (w : Nat) (z : Int) : satLane w z = wrapTo w (max (-(2 ^ (w - 1) : Nat)) (min ((2 ^ (w - 1) : Nat) - 1) z)) := by
  have hpos := two_pow_pos (w - 1)
  rw [satLane, clampInt_eq (by omega)]
  push_cast
  rfl

section
variable {w x : Nat}

/-- The magnitude of a signed lane is too large for the lane in one case (R130). -/
theorem sgn_natAbs (hw : 0 < w) (hx : x < 2 ^ w) :
    if x = 2 ^ (w - 1) then (sgn w x).natAbs = 2 ^ (w - 1) else (sgn w x).natAbs < 2 ^ (w - 1) := by
  obtain ⟨k, rfl⟩ := Nat.exists_eq_add_of_lt hw
  simp only [Nat.zero_add, Nat.add_sub_cancel] at hx ⊢
  have hpow : 2 ^ (k + 1) = 2 * 2 ^ k := Nat.pow_succ'
  have hcast : (2 : Int) ^ (k + 1) = ((2 ^ (k + 1) : Nat) : Int) := (Int.natCast_pow 2 (k + 1)).symm
  unfold sgn toSigned
  rw [Nat.mod_eq_of_lt hx, hcast]
  dsimp only
  split <;> split <;> omega

theorem vabs_lane (hw : 0 < w) (hx : x < 2 ^ w) :
    satLane w ((sgn w x).natAbs : Int) % 2 ^ w = (if x = 2 ^ (w - 1) then 2 ^ (w - 1) - 1 else (sgn w x).natAbs) % 2 ^ w := by
  have habs := sgn_natAbs hw hx
  have hpos : 0 < 2 ^ (w - 1) := Nat.two_pow_pos _
  rw [satLane_eq, wrapTo_mod, ← wrapTo_natCast]
  congr 1
  by_cases h : x = 2 ^ (w - 1)
  · rw [if_pos h] at habs ⊢
    omega
  · rw [if_neg h] at habs ⊢
    omega

end

theorem vsub_lane {w y : Nat} (x : Nat) (hy : y < 2 ^ w) : (x + (2 ^ w - y)) % 2 ^ w = wrapTo w ((x : Int) - y) % 2 ^ w := by
  have hcast : ((2 ^ w : Nat) : Int) = 2 ^ w := Int.natCast_pow 2 w
  rw [wrapTo_mod, ← wrapTo_add_pow, ← wrapTo_natCast, Int.natCast_add, Int.natCast_sub (Nat.le_of_lt hy), hcast]
  exact congrArg (wrapTo w) (by omega)

theorem vmin_lane (w x y : Nat) :
    wrapTo w (if sgn w y < sgn w x then sgn w y else sgn w x) % 2 ^ w = (if sgn w x ≤ sgn w y then x else y) % 2 ^ w := by
  simp only [← Int.not_le, ite_not, wrapTo_mod]
  split <;> exact wrapTo_sgn w _

theorem vmax_lane (w x y : Nat) :
    wrapTo w (if sgn w x < sgn w y then sgn w y else sgn w x) % 2 ^ w = (if sgn w x ≤ sgn w y then y else x) % 2 ^ w := by
  have hmax : (if sgn w x < sgn w y then sgn w y else sgn w x) = if sgn w x ≤ sgn w y then sgn w y else sgn w x := by
    split <;> split <;> omega
  rw [hmax, wrapTo_mod]
  split <;> exact wrapTo_sgn w _

/-! ### Lane types in words (R81, R130) -/

/-- The codes of the integer lane types are the ones that the encoder writes. -/
theorem intCode {code : BitVec 3} {lt : LaneType} (h : (code, lt) ∈ [(0#3, LaneType.i32), (2#3, .i16), (5#3, .i8)]) :
    code = encLane lt ∧ lt.isInt = true := by
  revert code
  cases lt <;> decide

theorem encLane_of_isInt {lt : LaneType} (h : lt.isInt = true) : encLane lt ∈ [0#3, 2#3, 5#3] := by
  revert h
  cases lt <;> decide

section
variable {w : Word}

theorem decV3_reserved {mk : LaneType → PReg → VReg → VReg → VReg → Instr} (hmk : ∀ lt g d a b, WellFormed (mk lt g d a b) = lt.isInt)
    (h : fld w 11 3 ∉ [0#3, 2#3, 5#3]) : ∃ e, decV3 w mk = .error e := by
  unfold decV3
  split
  next lt hlt =>
    refine ⟨_, accept_eq_error (Bool.eq_false_iff.2 fun hwf => h ?_) _⟩
    rw [decLane_eq_some.1 hlt]
    exact encLane_of_isInt (hmk lt _ _ _ _ ▸ hwf)
  next => exact ⟨_, rfl⟩

theorem decV2_reserved {mk : LaneType → PReg → VReg → VReg → Instr} (hmk : ∀ lt g d a, WellFormed (mk lt g d a) = lt.isInt)
    (h : fld w 14 4 ≠ 0 ∨ fld w 11 3 ∉ [0#3, 2#3, 5#3]) : ∃ e, decV2 w mk = .error e := by
  unfold decV2
  split
  next lt hlt =>
    refine ⟨_, accept_eq_error (Bool.eq_false_iff.2 fun hok => ?_) _⟩
    obtain ⟨hz, hwf⟩ := Bool.and_eq_true_iff.1 hok
    obtain h | h := h
    · exact h (beq_iff_eq.1 hz)
    · rw [decLane_eq_some.1 hlt] at h
      exact h (encLane_of_isInt (hmk lt _ _ _ ▸ hwf))
  next => exact ⟨_, rfl⟩

theorem decMajor14_reserved (h : (fld w 0 8).toNat = 0 ∨ 8 < (fld w 0 8).toNat ∨ (fld w 0 8).toNat = 6 ∧ fld w 14 4 ≠ 0 ∨
    fld w 11 3 ∉ [0#3, 2#3, 5#3]) : ∃ e, decMajor14 w = .error e := by
  unfold decMajor14
  split
  case h_9 => exact ⟨_, rfl⟩
  case h_6 hfn =>
    refine decV2_reserved (fun _ _ _ _ => rfl) ?_
    obtain h | h | ⟨-, h⟩ | h := h
    · omega
    · omega
    · exact .inl h
    · exact .inr h
  all_goals
    refine decV3_reserved (fun _ _ _ _ _ => rfl) ?_
    obtain h | h | ⟨h, -⟩ | h := h
    · omega
    · omega
    · omega
    · exact h

end

/-- Settles O8: each lane has the low bits of the integer that its table gives. -/
theorem vectorInteger : Obligations.VectorInteger := by
  intro s lt g d a b hint
  have hlt : ∀ v n, lane lt.width v n < 2 ^ lt.width := lane_lt lt.width
  refine ⟨laneWise_of_eq rfl fun _ _ => rfl, laneWise_of rfl fun n _ => vsub_lane _ (hlt _ n), laneWise_of_eq rfl fun _ _ => rfl,
    laneWise_of rfl fun _ _ => vmin_lane _ _ _, laneWise_of rfl fun _ _ => vmax_lane _ _ _,
    laneWise_of rfl fun n _ => vabs_lane (width_pos lt) (hlt _ n), laneWise_of_eq rfl fun _ _ => satLane_eq _ _,
    laneWise_of_eq rfl fun _ _ => satLane_eq _ _, laneWise_of_eq rfl fun _ _ => Nat.shiftLeft_eq _ _,
    laneWise_of_eq rfl fun _ _ => Nat.shiftRight_eq_div_pow _ _, laneWise_of_eq rfl fun _ _ => rfl, fun code hcode => ?_,
    fun v hm h => reserved_of (decode_major14 v hm) (decMajor14_reserved h)⟩
  obtain ⟨rfl, -⟩ := intCode hcode
  exact ⟨decode_encV rfl hint, decode_encV rfl hint, decode_encV rfl hint, decode_encV rfl hint, decode_encV rfl hint, decode_encV rfl hint,
    decode_encV rfl hint, decode_encV rfl hint⟩

/-- Settles O9: every operation on lanes gives a number and its flags for each of them. -/
theorem vectorFloat : Obligations.VectorFloat := fun _ _ _ _ _ _ =>
  ⟨laneWiseFp_of rfl, laneWiseFp_of rfl, laneWiseFp_of rfl, laneWiseFp_of rfl, laneWiseFp_of rfl, laneWiseFp_of rfl, laneWiseFp_of rfl,
    laneWiseFp_of rfl, laneWiseFp_of rfl, laneWiseFp_of rfl⟩

end Sys2Proof.Proofs.VectorLanes
end

section
/-! PROOFS. Compares of lanes, major 0x17 (R133), bitwise operations and moves of lanes, majors 0x18, 0x19 and 0x1D (R134, R135, R139). -/
namespace Sys2Proof.Proofs.VectorComparesMoves
open Sys2Proof Sys2Proof.Machine Sys2Proof.Safety
open Sys2Proof.Proofs.ThreadRegisters Sys2Proof.Proofs.WordFormats Sys2Proof.Proofs.VectorLanes
open Sys2Proof.Proofs.ScalarInteger (toNat_lt_of_decCond code_eq_encCond)
open Sys2Proof.Proofs.Encoding (fieldIs_cat decFCond_eq_some)
open Sys2Proof.Proofs.NumberFormats (onlyCounts_one)

/-! ### Conditions between lanes (R115, R133) -/

section
variable {w x y : Nat}

theorem sgn_eq_ite (hx : x < 2 ^ w) : sgn w x = if 2 * x < 2 ^ w then (x : Int) else x - (2 ^ w : Nat) := by
  unfold sgn toSigned
  rw [Nat.mod_eq_of_lt hx]
  simp only [← Nat.not_lt, ite_not, Int.natCast_pow, Int.cast_ofNat_Int]

/-- A signed lane extended to 64 bits, read as unsigned: the negative lanes stand above the others. -/
theorem toNat_ofInt_sgn (hw : w ≤ 64) (hx : x < 2 ^ w) :
    (BitVec.ofInt 64 (sgn w x)).toNat = if 2 * x < 2 ^ w then x else 2 ^ 64 - 2 ^ w + x := by
  have hle : 2 ^ w ≤ 2 ^ 64 := Nat.pow_le_pow_right (by decide) hw
  rw [BitVec.toNat_ofInt, sgn_eq_ite hx]
  generalize 2 ^ w = p at *
  split <;> omega

theorem toInt_ofInt_sgn (hw : w ≤ 64) (hx : x < 2 ^ w) : (BitVec.ofInt 64 (sgn w x)).toInt = sgn w x := by
  have hle : 2 ^ w ≤ 2 ^ 64 := Nat.pow_le_pow_right (by decide) hw
  rw [BitVec.toInt_eq_toNat_cond, toNat_ofInt_sgn hw hx, sgn_eq_ite hx]
  generalize 2 ^ w = p at *
  by_cases h : 2 * x < p
  · simp only [if_pos h]
    omega
  · simp only [if_neg h]
    omega

theorem ofInt_sgn_inj (hw : w ≤ 64) (hx : x < 2 ^ w) (hy : y < 2 ^ w) :
    BitVec.ofInt 64 (sgn w x) = BitVec.ofInt 64 (sgn w y) ↔ x = y := by
  refine ⟨fun h => ?_, fun h => h ▸ rfl⟩
  have hbits : x % 2 ^ w = y % 2 ^ w := by
    rw [← wrapTo_sgn, ← wrapTo_sgn, ← toInt_ofInt_sgn hw hx, ← toInt_ofInt_sgn hw hy, h]
  rwa [Nat.mod_eq_of_lt hx, Nat.mod_eq_of_lt hy] at hbits

theorem ofInt_sgn_toNat_lt (hw : w ≤ 64) (hx : x < 2 ^ w) (hy : y < 2 ^ w) :
    (BitVec.ofInt 64 (sgn w x)).toNat < (BitVec.ofInt 64 (sgn w y)).toNat ↔ x < y := by
  have hle : 2 ^ w ≤ 2 ^ 64 := Nat.pow_le_pow_right (by decide) hw
  rw [toNat_ofInt_sgn hw hx, toNat_ofInt_sgn hw hy]
  generalize 2 ^ w = p at *
  split <;> split <;> omega

/-- A condition between two lanes is the condition between the 64-bit values that they extend to. -/
theorem laneCond_iff (c : Cond) (hw : w ≤ 64) (hx : x < 2 ^ w) (hy : y < 2 ^ w) :
    laneCond c w x y = true ↔ conditionMeans c (BitVec.ofInt 64 (sgn w x)) (BitVec.ofInt 64 (sgn w y)) := by
  cases c with
  | eq => exact decide_eq_true_iff.trans (ofInt_sgn_inj hw hx hy).symm
  | ne => exact decide_eq_true_iff.trans (not_congr (ofInt_sgn_inj hw hx hy).symm)
  | lt => simp only [laneCond, conditionMeans, toInt_ofInt_sgn hw hx, toInt_ofInt_sgn hw hy, decide_eq_true_iff]
  | ge => simp only [laneCond, conditionMeans, toInt_ofInt_sgn hw hx, toInt_ofInt_sgn hw hy, decide_eq_true_iff]
  | ltu => exact decide_eq_true_iff.trans (ofInt_sgn_toNat_lt hw hx hy).symm
  | geu => simp only [laneCond, conditionMeans, ← Nat.not_lt, ofInt_sgn_toNat_lt hw hx hy, decide_eq_true_iff]

end

theorem width_le (lt : LaneType) : lt.width ≤ 64 := by cases lt <;> decide

/-- The lanes' results brought to one predicate. -/
theorem reduceCond_iff {k : Nat} {p : Nat → Bool} {q : Nat → Prop} (h : ∀ n, p n = true ↔ q n) (guard all : Bool) :
    reduceCond guard all ((List.range k).map p) = true ↔
      if guard then (if all then ∀ n, n < k → q n else ∃ n, n < k ∧ q n) else (all : Prop) := by
  cases guard with
  | false => rfl
  | true => cases all <;> simp [reduceCond, h]

theorem flagUnion_map (l : List Nat) (r : Nat → Bool × FFlags) :
    flagUnion (l.map (fun n => ((0 : Nat), (r n).2))) = (l.map r).foldl (fun x y => x ||| y.2) 0 := by
  rw [flagUnion, List.foldl_map, List.foldl_map]

section
variable (s : State) (lt : LaneType) (g p : PReg) (all : Bool) (a b : VReg)

theorem vfcmp_completes (c : FCond) :
    let r := fun n => fcompare (laneFp lt) c (lane lt.width (s.rdV a) n) (lane lt.width (s.rdV b) n)
    Completes (.vfcmp lt g p all c a b) s ((flagged (self s)
      (if s.rdP g then flagUnion ((List.range lt.lanes).map (fun n => ((0 : Nat), (r n).2))) else 0)).putP p
        (reduceCond (s.rdP g) all ((List.range lt.lanes).map (fun n => (r n).1)))) [10, 0] := by
  intro r
  refine completes_flagged (onlyCounts_one s 10) (fun x => x.putP p _) (fun x => putP_pc x p _) ?_
  rw [flagUnion_map]
  show execVfcmp lt g p all c a b s = _
  rw [execVfcmp, List.map_map]
  rfl

end

/-! ### Words of major 0x17 (R133) -/

theorem floatCode {code : BitVec 3} {lt : LaneType} (h : (code, lt) ∈ [(1#3, LaneType.f32), (3#3, .f16), (4#3, .bf16)]) :
    code = encLane lt ∧ lt.isFloat = true := by
  revert code
  cases lt <;> decide

/-- The codes of the floating-point conditions are the ones that the encoder writes. -/
theorem code_eq_encFCond {n : BitVec 3} {c : FCond} (h : (n, c) ∈ [(0#3, FCond.eq), (1#3, .ne), (2#3, .lt), (3#3, .le)]) : n = encFCond c := by
  revert n
  cases c <;> decide

theorem toNat_lt_of_decFCond {x : BitVec 3} {c : FCond} (h : decFCond x = some c) : x.toNat < 4 := by
  rw [decFCond_eq_some.1 h]
  cases c <;> decide

section
variable {w : Word}

/-- Bits 25 and 7 of a compare are zero in every instruction. -/
theorem accept_zeros_reserved {limit : Bool} {i : Instr} (h : fld w 25 1 = 0 → fld w 7 1 ≠ 0) :
    ∃ e, accept (fld w 25 1 == 0 && fld w 7 1 == 0 && limit) i = .error e := by
  refine ⟨_, accept_eq_error (Bool.eq_false_iff.2 fun hok => ?_) _⟩
  simp only [Bool.and_eq_true, beq_iff_eq] at hok
  obtain ⟨⟨hhigh, hlow⟩, -⟩ := hok
  exact h hhigh hlow

theorem decMajor17_reserved (h : fld w 25 1 ≠ 0 ∨ fld w 7 1 ≠ 0 ∨ 2 ≤ (fld w 3 3).toNat ∨
    (fld w 3 3).toNat = 0 ∧ 6 ≤ (fld w 0 3).toNat ∨ (fld w 3 3).toNat = 1 ∧ 4 ≤ (fld w 0 3).toNat) : ∃ e, decMajor17 w = .error e := by
  unfold decMajor17
  split
  next => exact ⟨_, rfl⟩
  next lt hlt =>
    split
    next hcls =>
      split
      next c hc =>
        have hcond := toNat_lt_of_decCond hc
        exact accept_zeros_reserved fun hhigh => (h.resolve_left fun hne => hne hhigh).resolve_right (by omega)
      next => exact ⟨_, rfl⟩
    next hcls =>
      split
      next c hc =>
        have hcond := toNat_lt_of_decFCond hc
        exact accept_zeros_reserved fun hhigh => (h.resolve_left fun hne => hne hhigh).resolve_right (by omega)
      next => exact ⟨_, rfl⟩
    next => exact ⟨_, rfl⟩

end

section
variable {lt : LaneType} {g p : PReg} {all : Bool} {a b : VReg}

theorem decode_vcmp {c : Cond} (hint : lt.isInt = true) :
    decode (wordV 0x17 (0#1 ++ p) a b (encLane lt) g (cat (cat (cat 0#1 (bit1 all)) 0#3) (encCond c))) = .ok (.vcmp lt g p all c a b) :=
  decode_wordV (i := .vcmp lt g p all c a b) (vd := cat 0#1 p) rfl hint (by simp +contextual [↓fieldIs_cat])

theorem decode_vfcmp {c : FCond} (hfloat : lt.isFloat = true) :
    decode (wordV 0x17 (0#1 ++ p) a b (encLane lt) g (cat (cat (cat 0#1 (bit1 all)) 1#3) (encFCond c))) = .ok (.vfcmp lt g p all c a b) :=
  decode_wordV (i := .vfcmp lt g p all c a b) (vd := cat 0#1 p) rfl hfloat (by simp +contextual [↓fieldIs_cat])

end

/-- Settles O10: lane by lane, then all lanes together. -/
theorem vectorCompare : Obligations.VectorCompare := by
  intro s lt g p all c fc a b
  refine ⟨⟨_, Laws.writesP_of _ s p _ rfl, reduceCond_iff (fun _ => laneCond_iff c (width_le lt) (lane_lt _ _ _) (lane_lt _ _ _)) _ _⟩,
    ⟨_, vfcmp_completes s lt g p all a b fc, reduceCond_iff (fun _ => Iff.rfl) _ _⟩,
    fun w hm h => reserved_of (decode_major17 w hm) (decMajor17_reserved h), fun code n hcode hn => ?_, fun code n hcode hn => ?_⟩
  · obtain ⟨rfl, hint⟩ := intCode hcode
    obtain rfl := code_eq_encCond hn
    exact ⟨decode_vcmp (all := false) hint, decode_vcmp (all := true) hint⟩
  · obtain ⟨rfl, hfloat⟩ := floatCode hcode
    obtain rfl := code_eq_encFCond hn
    exact ⟨decode_vfcmp (all := false) hfloat, decode_vfcmp (all := true) hfloat⟩

/-! ### Moves of lanes (R135, R139) -/

section
variable (lt : LaneType) {i : Nat}

theorem catLane_lo {a b : Vec} (h : i < lt.lanes) : catLane lt a b i = lane lt.width a i := if_pos h

theorem catLane_hi (a b : Vec) : catLane lt a b (i + lt.lanes) = lane lt.width b i := by
  rw [catLane, if_neg (by omega), Nat.add_sub_cancel]

/-- The lanes of both halves are as many (R47). -/
theorem lanes_even : lt.lanes = 2 * (lt.lanes / 2) := by cases lt <;> rfl

theorem catLane_zip {a b : Vec} (odd : Prop) [Decidable odd] (h : i < lt.lanes) :
    catLane lt a b (i + if odd then 0 else lt.lanes) = if odd then lane lt.width a i else lane lt.width b i := by
  split
  · exact catLane_lo lt h
  · exact catLane_hi lt a b

end

/-! ### Words of major 0x19 (R135) -/

theorem laneCode {code : BitVec 3} {lt : LaneType}
    (h : (code, lt) ∈ [(0#3, LaneType.i32), (1#3, .f32), (2#3, .i16), (3#3, .f16), (4#3, .bf16), (5#3, .i8)]) : code = encLane lt := by
  revert code
  cases lt <;> decide

theorem code_eq_encShuf {m : BitVec 6} {k : ShufKind} (h : (m, k) ∈ [(0#6, ShufKind.ziplo), (1#6, .ziphi), (2#6, .unzipe), (3#6, .unzipo)]) :
    m = encShuf k := by
  revert m
  cases k <;> decide

theorem decShuf_eq_none {x : BitVec 6} (h : 4 ≤ x.toNat) : decShuf x = none := by
  unfold decShuf
  split
  case h_5 => rfl
  all_goals omega

theorem decMajor19_reserved {v : Word} {lt : LaneType} (hlt : decLane (fld v 11 3) = some lt)
    (h : ((fld v 6 2).toNat = 0 ∨ (fld v 6 2).toNat = 3) ∧ lt.lanes ≤ (fld v 0 6).toNat ∨ (fld v 6 2).toNat = 0 ∧ fld v 14 4 ≠ 0 ∨
      (fld v 6 2).toNat = 1 ∧ (fld v 0 6).toNat ≠ 0 ∨ (fld v 6 2).toNat = 2 ∧ 4 ≤ (fld v 0 6).toNat) : ∃ e, decMajor19 v = .error e := by
  unfold decMajor19
  split
  case h_1 hsel =>
    simp only [decV2, hlt]
    refine ⟨_, accept_eq_error (Bool.eq_false_iff.2 fun hok => ?_) _⟩
    obtain ⟨hz, hl⟩ := Bool.and_eq_true_iff.1 hok
    have hlane : (fld v 0 6).toNat < lt.lanes := of_decide_eq_true hl
    simp only [beq_iff_eq.1 hz, ne_eq, not_true_eq_false, and_false, false_or] at h
    omega
  case h_2 hsel =>
    split
    next hp =>
      have hzero : (fld v 0 6).toNat = 0 := congrArg BitVec.toNat hp
      omega
    next => exact ⟨_, rfl⟩
  case h_3 hsel =>
    rw [decShuf_eq_none (by omega)]
    exact ⟨_, rfl⟩
  case h_4 h0 h1 h2 =>
    simp only [decV3, hlt]
    have hsel := Encoding.toNat_eq_three h0 h1 h2
    refine ⟨_, accept_eq_error (Bool.eq_false_iff.2 fun hl => ?_) _⟩
    have hlane : (fld v 0 6).toNat < lt.lanes := of_decide_eq_true hl
    omega

/-- Settles O11: each lane of a move has one source lane. -/
theorem vectorMoves : Obligations.VectorMoves := by
  intro s lt g d a b r l k
  have heven := lanes_even lt
  refine ⟨writesV_of rfl, writesV_of rfl, writesV_of rfl, writesV_of rfl, writesV_of rfl, laneWise_of_eq rfl fun _ _ => rfl,
    laneWise_of_eq rfl fun _ _ => rfl, laneWise_of_eq rfl fun i hi => catLane_zip lt _ (by omega),
    laneWise_of_eq rfl fun i hi => catLane_zip lt _ (by omega), laneWise_of_eq rfl fun _ _ => apply_ite (catLane lt _ _) _ _ _,
    laneWise_of_eq rfl fun _ _ => apply_ite (catLane lt _ _) _ _ _, laneWise_of_eq rfl fun _ _ => rfl, laneWise_of_eq rfl fun _ _ => rfl,
    laneWise_of_eq rfl fun _ _ => rfl, completes_guarded (fun x => x.putS r _) (fun x => putS_pc x r _) rfl,
    fun v hm hlt h => reserved_of (decode_major19 v hm) (decMajor19_reserved hlt h), fun code hcode => ?_⟩
  obtain rfl := laneCode hcode
  refine ⟨fun hl => decode_encV (fn := cat 0#2 l) rfl (decide_eq_true hl), decode_encV (fn := cat 1#2 0#6) rfl rfl, fun m kind hm => ?_,
    fun hk => decode_encV (fn := cat 3#2 k) rfl (decide_eq_true hk)⟩
  obtain rfl := code_eq_encShuf hm
  exact decode_encV (fn := cat 2#2 (encShuf kind)) rfl rfl

end Sys2Proof.Proofs.VectorComparesMoves
end

section
/-! PROOFS. The invariant of every step (R183, and the canonical form of the memories): first that the state in which the next step takes place
has it, and then the step. -/
namespace Sys2Proof.Proofs.StepInvariant
open Sys2Proof Sys2Proof.Machine Sys2Proof.Safety

/-- The state in which an act of the schedule takes place. -/
def stateOf : Act → State
  | .issue _ s => s
  | .event _ s => s
  | .quiet s => s
  | .input _ s => s

section
variable {s : State} (h : Sound s)
include h

theorem issueAct_sound (q : Nat) : Sound (stateOf (s.issueAct q)) := by
  have hissuing := State.setIssuing_sound h q
  unfold State.issueAct
  dsimp only
  split
  · exact State.trapMe_sound (State.takeAsync_sound hissuing) _
  · exact hissuing

theorem lastAct_sound : Sound (stateOf s.lastAct) :=
  sound_ite (fun _ => State.scanTo_sound h _ _) (fun _ => State.tick_sound h)

theorem inputAct_sound : Sound (stateOf s.inputAct) := by
  unfold State.inputAct
  split
  · split
    · exact lastAct_sound h
    · dsimp only
      split
      · exact h
      · exact h
  · exact lastAct_sound h

theorem idleAct_sound : Sound (stateOf s.idleAct) := by
  unfold State.idleAct
  split
  · split
    · exact issueAct_sound h _
    · exact h
  iterate 4
    split
    · exact State.scanTo_sound h _ _
  split
  · exact State.heldScan_sound h
  · exact inputAct_sound h

/-- The schedule takes an act out of a list, which the invariant does not look at, or moves on. -/
theorem nextAct_sound : Sound (stateOf s.nextAct) := by
  unfold State.nextAct
  split
  · split
    · exact h
    · exact h
  · split
    · exact h
    · exact idleAct_sound h

theorem step_sound : OutSound (step s) := by
  have hact := nextAct_sound h
  unfold step
  generalize s.nextAct = act at hact
  cases act with
  | issue i u => exact exec_sound hact i
  | event e u => exact runEvent_sound hact e
  | quiet u => exact sound_next hact
  | input e u => exact out_ite (fun _ => runEvent_sound hact e) (fun _ => sound_fault _)

end

/-- Settles O58: the next act takes place in a sound state, and every instruction and every event keeps soundness. -/
theorem stepKeepsSound : Obligations.StepKeepsSound := fun _ t h => step_sound h t

end Sys2Proof.Proofs.StepInvariant
end

section
/-! PROOFS. The statements of trap records, of taking a trap and of TRESUME (R183, R186, R341 to R343). -/
namespace Sys2Proof.Proofs.TrapRecords
open Sys2Proof Sys2Proof.Machine Sys2Proof.Safety
open TrapQueue (supervisor_pass admitWaiting_of_none)
open NumberFormats (count_col_congr)

/-! ### The words of a record (R183) -/

theorem bits_eq (x hi lo : Nat) : bits x hi lo = x / 2 ^ lo % 2 ^ (hi + 1 - lo) := by rw [bits, Nat.shiftRight_eq_div_pow]

theorem bnat_le_one (b : Bool) : bnat b ≤ 1 := by cases b <;> decide

theorem bit_eq_of_bnat {x k : Nat} {b : Bool} (h : x / 2 ^ k % 2 = bnat b) : bit x k = b := by
  rw [bit, Nat.testBit_eq_decide_div_mod_eq, h]
  cases b <;> rfl

theorem fields_word0 {x cause slot quarter col word : Nat} {gangp : Bool} (hcause : cause < 256) (hslot : slot < 16) (hquarter : quarter < 4)
    (hcol : col < 20) (hword : word < 2 ^ 32)
    (hx : x = cause * 2 ^ 56 + slot * 2 ^ 52 + quarter * 2 ^ 50 + col * 2 ^ 45 + bnat gangp * 2 ^ 44 + word) :
    bits x 63 56 = cause ∧ bits x 55 52 = slot ∧ bits x 51 50 = quarter ∧ bits x 49 45 = col ∧ bit x 44 = gangp ∧ bits x 43 32 = 0 ∧
      bits x 31 0 = word := by
  have hgangp := bnat_le_one gangp
  simp only [bits_eq]
  refine ⟨?_, ?_, ?_, ?_, bit_eq_of_bnat ?_, ?_, ?_⟩ <;> omega

theorem fields_word3 {x time sub detail : Nat} (htime : time < 2 ^ 32) (hsub : sub < 2 ^ 16) (hdetail : detail < 2 ^ 16)
    (hx : x = time * 2 ^ 32 + sub * 2 ^ 16 + detail) : bits x 63 32 = time ∧ bits x 31 16 = sub ∧ bits x 15 0 = detail := by
  simp only [bits_eq]
  refine ⟨?_, ?_, ?_⟩ <;> omega

theorem record_w0 (s : State) {t : Nat} {i : TrapInfo} (ht : t < 1280) (hcause : i.cause < 256) : (s.record t i).w0.toNat =
    i.cause * 2 ^ 56 + t % 16 * 2 ^ 52 + t / 16 % 4 * 2 ^ 50 + t / 64 * 2 ^ 45 + bnat i.gangp * 2 ^ 44 + (s.wordAt t).toNat := by
  have hword := (s.wordAt t).isLt
  have hgangp := bnat_le_one i.gangp
  simp only [State.record, slotOf, quarterOf, colOf, BitVec.toNat_ofNat]
  omega

theorem record_w3 (s : State) (t : Nat) {i : TrapInfo} (hsub : i.sub < 65536) (hdetail : i.detail < 65536) :
    (s.record t i).w3.toNat = s.time.toNat % 2 ^ 32 * 2 ^ 32 + i.sub * 2 ^ 16 + i.detail := by
  simp only [State.record, BitVec.toNat_ofNat]
  omega

/-- Settles O13: the fields of a record are the digits of its words. -/
theorem trapRecord : Obligations.TrapRecord := by
  intro s t i ht hcause hsub hdetail
  obtain ⟨hc, hslot, hquarter, hcol, hgangp, hzero, hword⟩ := fields_word0 hcause (Nat.mod_lt t (by decide)) (Nat.mod_lt (t / 16) (by decide))
    (Nat.div_lt_of_lt_mul ht) (s.wordAt t).isLt (record_w0 s ht hcause)
  obtain ⟨htime, hs, hd⟩ := fields_word3 (Nat.mod_lt _ (by decide)) hsub hdetail (record_w3 s t hsub hdetail)
  exact ⟨hc, hslot, hquarter, hcol, hgangp, hzero, hword, rfl, rfl, htime, hs, hd⟩

/-! ### Taking a trap (R183, R342) -/

/-- Core 0 after reset, with a thread in its handler slot that a SPAWN of thread 16, of core 1, is said to have started in this cycle. -/
def farSpawner : State := State.reset.modThr 0 (fun x => { x with st := .ready, spawner := some (1, 16, 1) })

theorem farSpawner_status : (farSpawner.thr 16).sreg 1 = 0 := by decide

theorem trap_farSpawner_status : ((farSpawner.trap 1 (cause 0x01)).thr 16).sreg 1 = 1 := by decide +kernel

/-- Refutes O14: the statement says of every state that no thread of another core changes. In `farSpawner`, a trap of thread 1 takes the
handler slot from a SPAWN that the state ascribes to thread 16, of core 1, and status 1 goes to a register of that thread. A SPAWN starts slots of
its own core alone, but no hypothesis of the statement keeps such a state out. -/
theorem not_trapTaken : ¬ Obligations.TrapTaken := by
  intro h
  obtain ⟨hothers, -⟩ := h farSpawner 1 (cause 0x01) (by decide) (by decide) (by decide) (by decide)
  have hsame : (farSpawner.trap 1 (cause 0x01)).thr 16 = farSpawner.thr 16 := hothers 16 (by decide)
  have hstatus := trap_farSpawner_status
  rw [hsame, farSpawner_status] at hstatus
  exact absurd hstatus (by decide)

/-! ### TRESUME (R186, R341, R343) -/

/-- Core `q` is `x`, and no other core, no thread, no column and no memory has changed. -/
structure OnlyCore (s u : State) (q : Nat) (x : Core) : Prop where
  core : u.core q = x
  thr : ∀ m, u.thr m = s.thr m
  col : ∀ c, u.col c = s.col c
  cores : ∀ p, p ≠ q → u.core p = s.core p
  mem : u.mem = s.mem
  pkg : u.pkg = s.pkg
  cur : u.cur = s.cur

theorem onlyCore_self {s : State} {q : Nat} {x : Core} (h : s.core q = x) : OnlyCore s s q x :=
  ⟨h, fun _ => rfl, fun _ => rfl, fun _ _ => rfl, rfl, rfl, rfl⟩

theorem onlyCore_putCore (s : State) (q : Nat) (x : Core) : OnlyCore s (s.putCore q x) q x :=
  ⟨by simp, fun _ => rfl, fun _ => rfl, fun p hp => by simp [hp], rfl, rfl, rfl⟩

/-- With no record waiting, the records of a slot leave the queue and none enters. -/
theorem dropRecord_of_none {s : State} {q : Nat} (k : Nat) (hwaiting : (s.core q).waiting = []) (hroom : (s.core q).tq.length ≤ 16) :
    OnlyCore s (s.dropRecord q k) q { s.core q with tq := (s.core q).tq.filter (fun r => r.slot != k) } := by
  unfold State.dropRecord
  split
  next =>
    have hleft : ((s.core q).tq.filter (fun r => r.slot != k)).length ≤ 16 := Nat.le_trans (List.length_filter_le _ _) hroom
    rw [admitWaiting_of_none (by simpa using hwaiting) (by simpa using hleft)]
    exact ⟨by simp, fun _ => rfl, fun _ => rfl, fun p hp => by simp [hp], rfl, rfl, rfl⟩
  next hnone =>
    have hsame : (s.core q).tq.filter (fun r => r.slot != k) = (s.core q).tq := by
      simpa [List.filter_eq_self] using hnone
    exact ⟨by rw [hsame], fun _ => rfl, fun _ => rfl, fun _ _ => rfl, rfl, rfl, rfl⟩

theorem OnlyCore.me {s u : State} {q : Nat} {x : Core} (h : OnlyCore s u q x) : u.me = s.me := by rw [State.me, State.me, h.cur]

theorem OnlyCore.cycOf {s u : State} {q : Nat} {x : Core} (h : OnlyCore s u q x) (n : Nat) : u.cycOf n = s.cycOf n := by
  rw [State.cycOf, State.cycOf, h.col]

/-- A core that keeps its halt mask lets its threads go on as before (R341). -/
theorem OnlyCore.readySt {s u : State} {q : Nat} {x : Core} (h : OnlyCore s u q x) (hmask : x.hmask = (s.core q).hmask) (n : Nat) :
    u.readySt n = s.readySt n := by
  have hsame : (u.core (coreOf n)).hmask = (s.core (coreOf n)).hmask := by
    by_cases hq : coreOf n = q
    · rw [hq, h.core, hmask]
    · rw [h.cores _ hq]
  rw [State.readySt, State.readySt, hsame]

section
variable {s : State} (d a : Reg) {act : ResumeAct}

/-- The slot that TRESUME names. -/
def named (s : State) (a : Reg) : Nat := 16 * s.myCore + (s.rd a).toNat % 16

/-- What TRESUME does with the named thread, once its record has left the queue. -/
def resumed (s : State) (n : Nat) : ResumeAct → State
  | .retry => s.resumeThread n false
  | .skip => s.resumeThread n true
  | .kill => s.kill n

theorem exec_tresume (hs : s.isSuper s.me = true) : exec (.tresume d a act) s = .next (
    if (s.thr (named s a)).st ≠ .trapped then (s.wr d 1).finish
    else if (s.thr (named s a)).wait = .dying then (s.wr d 0).finish
    else ((resumed (s.dropRecord s.myCore ((s.rd a).toNat % 16)) (named s a) act).wr d 0).finish) := by
  refine congrArg Host.Outcome.next ((supervisor_pass hs _).trans ?_)
  cases act <;> rfl

theorem tresume_not_trapped (hs : s.isSuper s.me = true) (hst : (s.thr (named s a)).st ≠ .trapped) : Writes (.tresume d a act) s d 1 :=
  Laws.writes_of _ s d 1 ((exec_tresume d a hs).trans (congrArg _ (if_pos hst)))

theorem exec_tresume_trapped (hs : s.isSuper s.me = true) (hst : (s.thr (named s a)).st = .trapped) (hwait : (s.thr (named s a)).wait ≠ .dying) :
    exec (.tresume d a act) s = .next ((resumed (s.dropRecord s.myCore ((s.rd a).toNat % 16)) (named s a) act).wr d 0).finish :=
  (exec_tresume d a hs).trans (congrArg _ ((if_neg (fun hne => hne hst)).trans (if_neg hwait)))

theorem resumed_eq (hact : act ≠ .kill) (u : State) (n : Nat) : resumed u n act = u.resumeThread n (decide (act = .skip)) := by
  cases act with
  | retry => rfl
  | skip => rfl
  | kill => exact absurd rfl hact

/-- The named thread as TRESUME lets it go on: READY at its PC, or the next one, with RESUME set. -/
def goesOn (s : State) (n : Nat) (act : ResumeAct) : Thread :=
  { s.thr n with
    pc := if act = .skip then (s.thr n).pc + 1 else (s.thr n).pc, st := s.readySt n, wait := .none, resume := true, readyFrom := s.cycOf n + 1 }

/-- A thread of another slot goes on, and TRESUME completes. -/
theorem resumeThread_finish {u : State} {q n : Nat} {x : Core} (hu : OnlyCore s u q x) (hmask : x.hmask = (s.core q).hmask) (hn : n ≠ s.me)
    (act : ResumeAct) : let t := ((u.resumeThread n (decide (act = .skip))).wr d 0).finish
    (t.core q).tq = x.tq ∧ t.thr s.me = done ((self s).putS d 0) ((self s).pc + 1) ∧ (∀ m, m ≠ s.me → m ≠ n → t.thr m = s.thr m) ∧
      t.thr n = goesOn s n act ∧ t.mem = s.mem ∧ t.pkg = s.pkg ∧ Counted s t s.me [0] := by
  have hme : (u.resumeThread n (decide (act = .skip))).me = s.me := hu.me
  have hthr : ∀ m, (u.resumeThread n (decide (act = .skip))).thr m = if m = n then goesOn s n act else s.thr m := fun m => by
    simp only [State.resumeThread, State.modThr_thr, hu.thr, hu.readySt hmask, hu.cycOf, goesOn, decide_eq_true_eq]
  intro t
  refine ⟨?_, ?_, fun m hme' hm => ?_, ?_, ?_, ?_, fun c => ?_⟩
  · exact congrArg Core.tq hu.core
  · simp [t, hme, hthr, hn.symm, done]
  · simp [t, hme, hthr, hme', hm]
  · simp [t, hme, hthr, hn]
  · exact hu.mem
  · exact hu.pkg
  · rw [State.finish_col, State.wr_me, hme]
    exact count_col_congr hu.col _ 0 c

end

/-! A thread whose record leaves the queue waits for nothing, and its accesses are as before, whatever records enter in turn. -/

/-- Thread `n` waits for nothing, and `fl` are the accesses on their way. -/
structure Idle (n : Nat) (fl : List Access) (s : State) : Prop where
  wait : (s.thr n).wait = .none
  flights : s.flights = fl

section
variable {n : Nat} {fl : List Access} {s : State}

theorem Idle.modThr (h : Idle n fl s) (m : Nat) {f : Thread → Thread} (hf : (s.thr m).wait = .none → (f (s.thr m)).wait = .none) :
    Idle n fl (s.modThr m f) := by
  refine ⟨?_, h.flights⟩
  rw [State.modThr_thr]
  split
  next heq => exact hf (heq ▸ h.wait)
  next => exact h.wait

theorem Idle.count (h : Idle n fl s) (m e : Nat) : Idle n fl (s.count m e) := ⟨h.wait, h.flights⟩

theorem Idle.wakePops (h : Idle n fl s) (q : Nat) : Idle n fl (s.wakePops q) :=
  List.foldlRecOn _ _ h fun u hu k _ => by
    split
    · exact hu.modThr _ (fun _ => rfl)
    · exact hu

theorem wait_putS (x : Thread) (d : Reg) (v : W64) : (x.putS d v).wait = x.wait := by
  obtain ⟨regs, hregs⟩ := ThreadRegisters.putS_regs x d v
  rw [hregs]

theorem Idle.startHandler (h : Idle n fl s) (q k : Nat) : Idle n fl (s.startHandler q k) := by
  unfold State.startHandler
  split
  · exact h.modThr k (fun _ => rfl)
  · split
    · exact (h.modThr k (fun _ => rfl)).modThr _ (fun hw => (wait_putS _ _ _).trans hw)
    · exact h
  · exact h

theorem Idle.entered (h : Idle n fl s) (q : Nat) (r : TrapRec) : Idle n fl (s.entered q r) := by
  have htrapped := h.modThr (16 * q + r.slot) (f := fun x => { x with st := .trapped, wait := .none, trapRec := r }) (fun _ => rfl)
  exact ((htrapped.count _ 9).startHandler q _).wakePops q

theorem Idle.dropRecord (h : Idle n fl s) (q k : Nat) : Idle n fl (s.dropRecord q k) := by
  unfold State.dropRecord
  split
  · exact List.foldlRecOn _ _ (b := State.modCore _ q _) ⟨h.wait, h.flights⟩ fun u hu r _ => hu.entered q r
  · exact h

end

/-- A kill of a thread that waits for nothing and has no store on its way ends it at once (R343). -/
theorem kill_of_idle {s : State} {n : Nat} (hwait : (s.thr n).wait = .none) (hstores : s.outstanding n = []) :
    s.kill n = (s.dropRequests n).endThread n := by
  rw [State.kill, hstores, List.isEmpty_nil, if_pos rfl, State.finishKill, State.withdraw, hwait]

/-- A thread that another's CTXSAVE settles, when that thread `n` has ended. -/
def unsaved (n : Nat) (x : Thread) : Thread := if x.savedBy = some n then { x with savedBy := none } else x

theorem unsaved_st (n : Nat) (x : Thread) : (unsaved n x).st = x.st := by
  unfold unsaved
  split <;> rfl

theorem unsaved_default (n : Nat) : unsaved n {} = {} := if_neg nofun

theorem endThread_threads (s : State) (n : Nat) : (s.endThread n).threads =
    (((((s.abandonAll n).dropHold n).dropMessages n).orphanInvals n).emptySlot n).threads.map (fun e => (e.1, unsaved n e.2)) := by
  simp only [State.endThread, unsaved]

theorem emptySlot_st (s : State) (n : Nat) : ((s.emptySlot n).thr n).st = .empty := by rw [State.emptySlot, State.modThr_thr, if_pos rfl]

/-- The slot of a thread that ends is EMPTY. -/
theorem endThread_st (s : State) (n : Nat) : ((s.endThread n).thr n).st = .empty := by
  rw [State.thr, endThread_threads, sget_map _ _ (unsaved_default n), unsaved_st, ← State.thr]
  exact emptySlot_st _ n

theorem finish_wr_st (s : State) (d : Reg) (v : W64) (n : Nat) : ((s.wr d v).finish.thr n).st = (s.thr n).st := by
  obtain ⟨regs, hregs⟩ := ThreadRegisters.putS_regs (s.thr s.me) d v
  by_cases hn : n = s.me
  · simp [hn, hregs]
  · simp [hn]

theorem tresume_kill {s : State} (d a : Reg) (hs : s.isSuper s.me = true) (hst : (s.thr (named s a)).st = .trapped)
    (hwait : (s.thr (named s a)).wait = .none) (hstores : s.outstanding (named s a) = []) : ∃ t, exec (.tresume d a .kill) s = .next t ∧
      t = ((((s.dropRecord s.myCore ((s.rd a).toNat % 16)).dropRequests (named s a)).endThread (named s a)).wr d 0).finish ∧
      (t.thr (named s a)).st = .empty := by
  have hidle : Idle (named s a) s.flights (s.dropRecord s.myCore ((s.rd a).toNat % 16)) := Idle.dropRecord ⟨hwait, rfl⟩ _ _
  have hout : (s.dropRecord s.myCore ((s.rd a).toNat % 16)).outstanding (named s a) = [] := by
    rw [State.outstanding, hidle.flights]
    exact hstores
  have hexec := exec_tresume_trapped d a (act := .kill) hs hst (by simp [hwait])
  rw [resumed, kill_of_idle hidle.wait hout] at hexec
  exact ⟨_, hexec, rfl, (finish_wr_st _ d 0 _).trans (endThread_st _ _)⟩

/-- Settles O17: with no record waiting, the record of the named slot leaves the queue and its thread goes on; a kill of a thread that waits for
nothing ends it, whatever waiting records enter in turn. -/
theorem trapResume : Obligations.TrapResume := by
  intro s d a act hs
  refine ⟨tresume_not_trapped d a hs, ?_, ?_⟩
  · intro hst hwait hn hwaiting hroom hact
    have hexec := exec_tresume_trapped d a (act := act) hs hst hwait
    rw [resumed_eq hact] at hexec
    exact ⟨_, hexec, resumeThread_finish d (dropRecord_of_none _ hwaiting hroom) rfl hn act⟩
  · rintro hst hwait - hstores rfl
    exact tresume_kill d a hs hst hwait hstores

end Sys2Proof.Proofs.TrapRecords
end

section
/-! PROOFS. The statement of the order in which an access is checked (R170, R184, R189, R206, R222): first what each check answers, then that
the checks of a load and of a store, which is held where its entry fetches, come in this order. -/
namespace Sys2Proof.Proofs.AccessOrder
open Sys2Proof Sys2Proof.Machine Sys2Proof.Safety

/-! ### One check -/

section
variable {s : State} {va n align : Nat} {rd wr : Bool} {go : State → State}

theorem preChecked_misaligned (h : va % align ≠ 0) (hretrans : (self s).retrans = false) :
    s.preChecked va n align rd wr go = s.trapMe (misaligned va) := if_pos ⟨h, hretrans⟩

theorem preChecked_watched {j : Nat} (halign : va % align = 0) (hj : s.watchpoint s.me va n rd wr = some j) :
    s.preChecked va n align rd wr go = s.trapMe (wpTrap j (s.watchVa s.me j va n)) := by
  simp only [State.preChecked, halign, ne_eq, not_true_eq_false, false_and, if_false, hj]

theorem preChecked_pass (halign : va % align = 0) (hnone : s.watchpoint s.me va n rd wr = none) :
    s.preChecked va n align rd wr go = go s := by
  simp only [State.preChecked, halign, ne_eq, not_true_eq_false, false_and, if_false, hnone]

theorem mapChecked_fault {g : Nat} {kind : AccKind} {w : TrapInfo} (h : s.mapExtent g n kind va = some w) :
    s.mapChecked g n kind va go = s.trapMe w := by
  simp only [State.mapChecked, h]

theorem mapChecked_pass {g : Nat} {kind : AccKind} (h : s.mapExtent g n kind va = none) : s.mapChecked g n kind va go = go s := by
  simp only [State.mapChecked, h]

end

/-- The bytes translate to space 0x5. -/
def OnSpace5 (s : State) (va n : Nat) (k : BitVec 5) : Prop := ∃ g via, s.translate s.me va n k = .ok g via ∧ gaSpace g = 5

theorem wrongSize_iff {s : State} {va n : Nat} {k : BitVec 5} : s.wrongSize va n k = true ↔ OnSpace5 s va n k ∧ n ≠ 8 := by
  unfold State.wrongSize OnSpace5
  split
  next g via hok => simp [hok]
  next hno => exact ⟨nofun, fun ⟨⟨g, via, hok, _⟩, _⟩ => absurd hok (hno g via)⟩

/-! ### The checks of an access in their order (R206, R222) -/

/-- The bytes are aligned and of a size that their space takes. -/
def Fits (s : State) (va n : Nat) (k : BitVec 5) : Prop := va % n = 0 ∧ (n = 8 ∨ ¬OnSpace5 s va n k)

/-- The state `t` is what becomes of an access of `n` bytes at `va` when its checks come in the order of R222. -/
structure InOrder (s : State) (va n : Nat) (kind : AccKind) (k : BitVec 5) (rd wr : Bool) (t : State) : Prop where
  aligned : va % n ≠ 0 → t = s.trapMe (misaligned va)
  size : OnSpace5 s va n k → n ≠ 8 → t = s.trapMe (misaligned va)
  watched : ∀ j, Fits s va n k → s.watchpoint s.me va n rd wr = some j → t = s.trapMe (wpTrap j (s.watchVa s.me j va n))
  fault : ∀ w, va % n = 0 → s.watchpoint s.me va n rd wr = none → s.translate s.me va n k = .fault w → t = s.trapMe w
  map : ∀ g via w, Fits s va n k → s.watchpoint s.me va n rd wr = none → s.translate s.me va n k = .ok g via →
    s.mapExtent g n kind va = some w → t = s.trapMe w
  privilege : ∀ g via, Passes s va n n kind k rd wr g via → gaSpace g = 5 → n = 8 → s.isSuper s.me = false → t = s.trapMe (cause 0x18)

section
variable {s : State} {va n : Nat} {kind : AccKind} {k : BitVec 5} {rd wr : Bool} (hretrans : (self s).retrans = false)

/-- An access of a size that its space takes, or that does not reach its space, goes on to the checks before translation. -/
theorem memChecked_sized {go : Nat → List Via → State → State} (h : n = 8 ∨ ¬OnSpace5 s va n k) :
    ∃ rest, s.memChecked va n n true kind k rd wr go = s.preChecked va n n rd wr rest ∧
      (∀ w, s.translate s.me va n k = .fault w → rest s = s.trapMe w) ∧
      (∀ g via, s.translate s.me va n k = .ok g via → rest s = s.mapChecked g n kind va (fun s =>
        if gaSpace g = 5 ∧ s.isSuper s.me = false then s.trapMe (cause 0x18) else s.reportDeferred (go g via))) := by
  have hsize : ¬(true && s.wrongSize va n k) = true := by
    rw [Bool.true_and, wrongSize_iff]
    exact fun ⟨h5, hn⟩ => h.elim hn (fun hno => hno h5)
  refine ⟨_, if_neg hsize, fun w hw => ?_, fun g via hg => ?_⟩
  · simp only [hw]
  · simp only [hg]

include hretrans

theorem inOrder_memChecked (go : Nat → List Via → State → State) : InOrder s va n kind k rd wr (s.memChecked va n n true kind k rd wr go) := by
  have hsize : OnSpace5 s va n k → n ≠ 8 → s.memChecked va n n true kind k rd wr go = s.trapMe (misaligned va) := fun h5 hn =>
    if_pos (wrongSize_iff.2 ⟨h5, hn⟩)
  refine ⟨fun halign => ?_, hsize, fun j hfits hj => ?_, fun w halign hnone hw => ?_, fun g via w hfits hnone hg hw => ?_,
    fun g via hpass h5 hn huser => ?_⟩
  · by_cases hfits : n = 8 ∨ ¬OnSpace5 s va n k
    · obtain ⟨rest, heq, -⟩ := memChecked_sized hfits
      exact heq.trans (preChecked_misaligned halign hretrans)
    · obtain ⟨hn, h5⟩ := not_or.1 hfits
      exact hsize (Classical.not_not.1 h5) hn
  · obtain ⟨rest, heq, -⟩ := memChecked_sized hfits.2
    exact heq.trans (preChecked_watched hfits.1 hj)
  · have hno : ¬OnSpace5 s va n k := fun ⟨g, via, hg, _⟩ => by simp [hw] at hg
    obtain ⟨rest, heq, hfault, -⟩ := memChecked_sized (.inr hno)
    exact heq.trans ((preChecked_pass halign hnone).trans (hfault w hw))
  · obtain ⟨rest, heq, -, hok⟩ := memChecked_sized hfits.2
    exact heq.trans ((preChecked_pass hfits.1 hnone).trans ((hok g via hg).trans (mapChecked_fault hw)))
  · obtain ⟨halign, hnone, hg, hmap⟩ := hpass
    obtain ⟨rest, heq, -, hok⟩ := memChecked_sized (.inl hn)
    exact heq.trans ((preChecked_pass halign hnone).trans ((hok g via hg).trans ((mapChecked_pass hmap).trans (if_pos ⟨h5, huser⟩))))

/-- Where no translation is answered yet, the checks before translation are all that there are. -/
theorem inOrder_preChecked (hok : ∀ g via, s.translate s.me va n k ≠ .ok g via) (hfault : ∀ w, s.translate s.me va n k ≠ .fault w)
    (go : State → State) : InOrder s va n kind k rd wr (s.preChecked va n n rd wr go) where
  aligned halign := preChecked_misaligned halign hretrans
  size := fun ⟨g, via, hg, _⟩ => absurd hg (hok g via)
  watched _ hfits hj := preChecked_watched hfits.1 hj
  fault w _ _ hw := absurd hw (hfault w)
  map g via _ _ _ hg := absurd hg (hok g via)
  privilege g via := fun ⟨_, _, hg, _⟩ => absurd hg (hok g via)

end

/-! ### Loads and stores (R207, R208) -/

section
variable (s : State) (z : MSize) (d b : Reg) (off : BitVec 8) (hretrans : (self s).retrans = false)
include hretrans

theorem inOrder_load (kind : AccKind) (acq : Bool) (op : AccOp) :
    InOrder s (effAddr (s.rd b) off z).toNat z.bytes kind permR true false (s.loadInstr z b off kind acq op d) := inOrder_memChecked hretrans _

/-- A store takes a way of its own only where an entry fetches, or waits, and so answers no translation. -/
theorem inOrder_store (rel : Option Scope) :
    InOrder s (effAddr (s.rd b) off z).toNat z.bytes .plain permW false true (s.storeInstr z d b off false rel) := by
  unfold State.storeInstr
  dsimp only
  split
  next hfetch => exact inOrder_preChecked hretrans (by simp [hfetch]) (by simp [hfetch]) _
  next hwait => exact inOrder_preChecked hretrans (by simp [hwait]) (by simp [hwait]) _
  next => exact inOrder_memChecked hretrans _

end

theorem bytes_eq_eight {z : MSize} : z.bytes = 8 ↔ z = .d := by cases z <;> decide

theorem fits_of_size {s : State} {z : MSize} {va : Nat} {k : BitVec 5} (h : va % z.bytes = 0 ∧ (z = .d ∨ ¬OnSpace5 s va z.bytes k)) :
    Fits s va z.bytes k := ⟨h.1, h.2.imp_left bytes_eq_eight.2⟩

theorem traps_of_eq {i : Instr} {s t : State} {w : TrapInfo} (hexec : exec i s = .next t) (ht : t = s.trapMe w) : Traps i s w :=
  hexec.trans (congrArg _ ht)

/-- Settles O25: loads and stores make their checks in the order of R222. -/
theorem accessChecks : Obligations.AccessChecks := by
  intro s z d b off hretrans
  have hld := inOrder_load s z d b off hretrans .plain false (.load z true d)
  have hst := inOrder_store s z d b off hretrans none
  refine ⟨fun h => ⟨traps_of_eq rfl (hld.aligned h), traps_of_eq rfl (hst.aligned h)⟩,
    fun h5 hz => traps_of_eq rfl (hld.size h5 (mt bytes_eq_eight.1 hz)), fun h5 hz => traps_of_eq rfl (hst.size h5 (mt bytes_eq_eight.1 hz)),
    fun j h hj => traps_of_eq rfl (hld.watched j (fits_of_size h) hj), fun j h hj => traps_of_eq rfl (hst.watched j (fits_of_size h) hj),
    fun w h hnone hw => traps_of_eq rfl (hld.fault w h hnone hw), fun w h hnone hw => traps_of_eq rfl (hst.fault w h hnone hw),
    fun g via w h hnone hg hw => traps_of_eq rfl (hld.map g via w (fits_of_size h) hnone hg hw),
    fun g via w h hnone hg hw => traps_of_eq rfl (hst.map g via w (fits_of_size h) hnone hg hw),
    fun g via h h5 hz hu => traps_of_eq rfl (hld.privilege g via h h5 (bytes_eq_eight.2 hz) hu),
    fun g via h h5 hz hu => traps_of_eq rfl (hst.privilege g via h h5 (bytes_eq_eight.2 hz) hu)⟩

end Sys2Proof.Proofs.AccessOrder
end

section
/-! PROOFS. The statement of the host's accesses to registers (R170, R434, R453, R454, R458, R471): first when a request is performed at once, then
reads, then writes, and last the registers with a rule of their own. -/
namespace Sys2Proof.Proofs.HostRegisters
open Sys2Proof Sys2Proof.Machine Sys2Proof.Safety
open ScopeRegisters (mergeBits writeReg_all w64_and w64_toNat)

/-- No request waits, none is under way, and neither capture nor replay mode is on (R234, R471, R472). -/
structure Direct (s : State) : Prop where
  held : s.host.held = []
  busy : s.host.busy = none
  rcctl : s.pkg.rcctl = 0

theorem hostRequest_direct {s : State} (h : Direct s) (e : Event) (wr : Bool) (go : State → State) : s.hostRequest e wr go = go s := by
  simp [State.hostRequest, h.held, h.busy, h.rcctl, bit]

theorem capture_off {s : State} (h : s.pkg.rcctl = 0) (src off : Nat) (data : List Byte) : s.capture src off data = s := by
  simp [State.capture, h, bit]

theorem hostWrite0_direct {s : State} (h : Direct s) (e : Event) (off size : Nat) (v : W64) :
    s.hostWrite0 e off size v = s.bar0Write off size v := by
  rw [State.hostWrite0, hostRequest_direct h, capture_off h.rcctl, ite_self]

/-! ### The bits that an access reaches (R454) -/

theorem bar0Ok_of_aligned {off n : Nat} (hn : n = 4 ∨ n = 8) (halign : off % n = 0) (hend : off + n ≤ 2 ^ 26) : bar0Ok off n = true := by
  simp only [bar0Ok, Bool.and_eq_true, Bool.or_eq_true, beq_iff_eq, decide_eq_true_eq]
  exact ⟨⟨hn, halign⟩, hend⟩

/-- An access reaches a register, its low half or its high half. -/
theorem access_cases {off n : Nat} (hn : n = 4 ∨ n = 8) (halign : off % n = 0) :
    n = 8 ∧ off % 8 = 0 ∨ n = 4 ∧ off % 8 = 0 ∨ n = 4 ∧ off % 8 = 4 := by
  rcases hn with rfl | rfl <;> omega

theorem readData_eq (v : W64) {off n : Nat} (hn : n = 4 ∨ n = 8) (halign : off % n = 0) :
    (if n = 8 then v else if off % 8 = 0 then v.setWidth 32 |>.setWidth 64 else v >>> 32) =
      BitVec.ofNat 64 (v.toNat / 2 ^ (8 * (off % 8)) % 2 ^ (8 * n)) := by
  have hv := v.isLt
  apply BitVec.eq_of_toNat_eq
  rcases access_cases hn halign with ⟨rfl, hoff⟩ | ⟨rfl, hoff⟩ | ⟨rfl, hoff⟩
  · simp [hoff, Nat.mod_eq_of_lt hv]
  · simp [hoff]
  · simp [hoff, Nat.shiftRight_eq_div_pow]
    omega

theorem writeData_eq (v : W64) {off n : Nat} (hn : n = 4 ∨ n = 8) (halign : off % n = 0) :
    (if n = 8 ∨ off % 8 = 0 then v else v <<< 32) = v <<< (8 * (off % 8)) := by
  rcases access_cases hn halign with ⟨rfl, hoff⟩ | ⟨rfl, hoff⟩ | ⟨rfl, hoff⟩ <;> simp [hoff]

theorem halfMask_eq {off n : Nat} (hn : n = 4 ∨ n = 8) (halign : off % n = 0) :
    halfMask off n = if n = 8 then 2 ^ 64 - 1 else 2 ^ (8 * (off % 8)) * (2 ^ 32 - 1) := by
  rcases access_cases hn halign with ⟨rfl, hoff⟩ | ⟨rfl, hoff⟩ | ⟨rfl, hoff⟩ <;> simp [halfMask, hoff]

/-! ### Reads and writes (R453, R454) -/

/-- A read of a register clears bits of the package's ring pointers alone. -/
theorem clearRead_pkg (s : State) (l : RegLoc) (m : Nat) : ∃ p, s.clearRead l m = { s with pkg := p } := by
  unfold State.clearRead
  dsimp only
  split
  · split
    · exact ⟨_, rfl⟩
    · split
      · exact ⟨_, rfl⟩
      · exact ⟨s.pkg, rfl⟩
  · exact ⟨s.pkg, rfl⟩

theorem regAt_plate {off : Nat} (hoff : off < 2 ^ 17) : regAt (0x310000 + off / 8 * 8) = .plate (off / 8) := by
  have hword : (0x310000 + off / 8 * 8 - 0x310000) / 8 = off / 8 := by omega
  unfold regAt
  dsimp only
  iterate 6 rw [if_neg (by omega)]
  rw [if_pos (by omega), hword]

section
variable {s : State} (h : Direct s)
include h

theorem pointerDropRead_answers {off n : Nat} (hn : n = 4 ∨ n = 8) (halign : off % n = 0) (hend : off + n ≤ 2 ^ 26) :
    ∃ t, exec (.pointerDropRead off n) s = .next t ∧ t.host.out = s.host.out ++
      [.bar0Data (BitVec.ofNat 64 ((s.shownReg (regAt (off / 8 * 8))).toNat / 2 ^ (8 * (off % 8)) % 2 ^ (8 * n)))] ∧ t.mem = s.mem ∧
      (∀ m, t.thr m = s.thr m) := by
  obtain ⟨p, hp⟩ := clearRead_pkg s (regAt (off / 8 * 8)) (halfMask off n)
  refine ⟨_, congrArg Host.Outcome.next ((hostRequest_direct h _ _ _).trans (if_pos (bar0Ok_of_aligned hn halign hend))), ?_⟩
  dsimp only
  rw [hp, readData_eq _ hn halign]
  exact ⟨rfl, rfl, fun _ => rfl⟩

theorem hostWrite0_writeReg (e : Event) {off n : Nat} (hn : n = 4 ∨ n = 8) (halign : off % n = 0) (hend : off + n ≤ 2 ^ 26) (v : W64) :
    s.hostWrite0 e off n v = s.writeReg (regAt (off / 8 * 8)) (v <<< (8 * (off % 8)))
      (if n = 8 then 2 ^ 64 - 1 else 2 ^ (8 * (off % 8)) * (2 ^ 32 - 1)) := by
  rw [hostWrite0_direct h, State.bar0Write, if_pos (bar0Ok_of_aligned hn halign hend), writeData_eq v hn halign, halfMask_eq hn halign]

/-- A write of a whole register (R454). -/
theorem hostWrite0_whole (e : Event) {off : Nat} (halign : off % 8 = 0) (hend : off + 8 ≤ 2 ^ 26) (v : W64) :
    s.hostWrite0 e off 8 v = s.writeReg (regAt off) v (2 ^ 64 - 1) := by
  have hoff : off / 8 * 8 = off := Nat.div_mul_cancel (Nat.dvd_of_mod_eq_zero halign)
  rw [hostWrite0_writeReg h e (.inr rfl) halign hend, hoff, halign, if_pos rfl]
  simp

/-- A write of a whole register of the package that holds no reserved encoding back. -/
theorem hostWrite0_pkg (e : Event) {off n : Nat} (hreg : regAt off = .pkg n) (halign : off % 8 = 0) (hend : off + 8 ≤ 2 ^ 26)
    (hk : ∀ old new, s.heldFields (.pkg n) old new = new) (v : W64) : s.hostWrite0 e off 8 v =
      s.putPkgReg n (mergeBits (rwMask (.pkg n)) (s.readPkgReg n) v) (v.toNat &&& w1cMask (.pkg n)) (bits v.toNat 63 61) := by
  rw [hostWrite0_whole h e halign hend, hreg, writeReg_all (fun _ hp => RegLoc.noConfusion hp) hk]
  rfl

/-! ### Registers with a rule of their own (R457, R458, R471) and the plate window (R434) -/

theorem ringBaseWrite_thermal (v : W64) : exec (.ringBaseWrite false v) s = .next { s with pkg := { s.pkg with
    thring := (s.pkg.thring &&& ~~~0xFFFFFFF001) ||| (v &&& 0xFFFFFFF001), thptr := s.pkg.thptr &&& 0xFFFF000000000000 } } :=
  congrArg Host.Outcome.next (hostWrite0_pkg h _ (n := 0x1080) (by decide) (by decide) (by decide) (fun _ _ => rfl) v)

theorem ringBaseWrite_error (v : W64) : exec (.ringBaseWrite true v) s = .next { s with pkg := { s.pkg with
    erring := (s.pkg.erring &&& ~~~0xFFFFFFF001) ||| (v &&& 0xFFFFFFF001), errptr := s.pkg.errptr &&& 0xFFFF000000000000 } } :=
  congrArg Host.Outcome.next (hostWrite0_pkg h _ (n := 0x1082) (by decide) (by decide) (by decide) (fun _ _ => rfl) v)

theorem intstatWrite_status (v : W64) : exec (.intstatWrite false v) s = .next ({ s with pkg := { s.pkg with
    intstat := s.pkg.intstat &&& (~~~(v &&& 0xFF) ||| s.pkg.intNow) } } : State).resend := by
  have hclr : v &&& 0xFF = w64 (v.toNat &&& w1cMask (.pkg 0x1072)) := by
    rw [w64_and, w64_toNat]
    rfl
  rw [hclr]
  exact congrArg Host.Outcome.next (hostWrite0_pkg h _ (n := 0x1072) (by decide) (by decide) (by decide) (fun _ _ => rfl) v)

theorem intstatWrite_enable (v : W64) : exec (.intstatWrite true v) s = .next ({ s with pkg := { s.pkg with
    inten := (s.pkg.inten &&& ~~~0xFF) ||| (v &&& 0xFF) } } : State).resend :=
  congrArg Host.Outcome.next (hostWrite0_pkg h _ (n := 0x1073) (by decide) (by decide) (by decide) (fun _ _ => rfl) v)

/-- A write of RCCTL where it is 0 starts USED at 0 and leaves OVF clear (R471). -/
theorem putRcctl_start {v : W64} (hv : v.toNat < 4) (clr : Nat) : s.putRcctl v clr = { s with pkg := { s.pkg with rcctl := v } } := by
  have hflags : bits 0 3 3 = 0 ∧ bits 0 2 2 = 0 := by decide
  simp [State.putRcctl, h.rcctl, hflags, Nat.mod_eq_of_lt hv, w64_toNat]

theorem rcctlWrite_start (v : W64) : exec (.rcctlWrite v) s = .next { s with pkg := { s.pkg with rcctl := v &&& 3 } } := by
  have hmerge : mergeBits (rwMask (.pkg 0x1091)) (s.readPkgReg 0x1091) v = v &&& 3 := by
    have hold : s.readPkgReg 0x1091 = 0#64 := h.rcctl
    rw [hold, mergeBits, BitVec.zero_and, BitVec.zero_or]
    rfl
  have hsmall : (v &&& 3).toNat < 4 := Nat.lt_of_le_of_lt Nat.and_le_right (by decide)
  have hput := hostWrite0_pkg h (.rcctlWrite v) (off := 0x200488) (n := 0x1091) (by decide) (by decide) (by decide) (fun _ _ => rfl) v
  rw [hmerge] at hput
  exact congrArg Host.Outcome.next (hput.trans (putRcctl_start h hsmall _))

theorem debugWrite_plate {off : Nat} (hoff : off < 2 ^ 17) (v : W64) : exec (.debugWrite off v) s = .next (s.debugPut (off / 8) v) := by
  have hwindow : 0x310000 + off % 2 ^ 17 / 8 * 8 = 0x310000 + off / 8 * 8 := by rw [Nat.mod_eq_of_lt hoff]
  have hwrite := hostWrite0_whole h (.debugWrite off v) (off := 0x310000 + off % 2 ^ 17 / 8 * 8) (by omega) (by omega) v
  rw [hwindow, regAt_plate hoff] at hwrite
  exact congrArg Host.Outcome.next (hwindow ▸ hwrite)

end

/-- Settles O32: a request that nothing holds back is a read or a write of the register at its offset. -/
theorem hostRegisterAccess : Obligations.HostRegisterAccess := by
  intro s off v hheld hbusy hrcctl
  have h : Direct s := ⟨hheld, hbusy, hrcctl⟩
  exact ⟨fun n hn halign hend => pointerDropRead_answers h hn halign hend,
    fun n hn halign hend => congrArg Host.Outcome.next (hostWrite0_writeReg h _ hn halign hend v),
    ringBaseWrite_thermal h v, ringBaseWrite_error h v, intstatWrite_status h v, intstatWrite_enable h v, rcctlWrite_start h v,
    fun hoff => debugWrite_plate h hoff v⟩

end Sys2Proof.Proofs.HostRegisters
end

section
/-! PROOFS. The statements of retention, the patrol tester, clock steps and cooling (R244 to R249, R467 to R470): first what a table holds after
many writes and after a removal, then the marks of a segment that is encoded again, a run of bytes that is cleared, and the records and clock
steps that the power manager asks for. -/
namespace Sys2Proof.Proofs.SegmentsAndPower
open Sys2Proof Sys2Proof.Machine Sys2Proof.Safety
open NumberFormats (byte_of_memory inMemory_of_within)
open TrapRecords (bits_eq)

/-! ### Tables -/

section
variable {α : Type} {d : α}

/-- A canonical table lists an item at a number exactly if it holds that item there. -/
theorem mem_iff_sget [DecidableEq α] {v : α} (hv : v ≠ d) (k : Nat) : ∀ {m : Sparse α} (lo : Option Nat), swfFrom d lo m = true →
    ((k, v) ∈ m ↔ sget d m k = v) := by
  intro m
  induction m with
  | nil => exact fun _ _ => ⟨nofun, fun h => absurd h.symm hv⟩
  | cons e t ih =>
    obtain ⟨j, w⟩ := e
    intro lo h
    obtain ⟨-, -, ht⟩ := (swfFrom_cons d lo j w t).1 h
    rw [List.mem_cons, ih _ ht, sget]
    split
    case isTrue hj =>
      subst hj
      have hnone : sget d t j = d := sget_none_of_lt d j t ht j (Nat.le_refl j)
      rw [hnone, Prod.mk.injEq]
      exact ⟨fun h => h.elim (·.2.symm) (absurd ·.symm hv), fun h => .inl ⟨rfl, h.symm⟩⟩
    case isFalse hj =>
      rw [Prod.mk.injEq]
      exact ⟨fun h => h.elim (absurd ·.1.symm hj) id, .inr⟩

/-- A table without the items whose numbers fail a test. -/
theorem sget_filter (p : Nat → Bool) (m : Sparse α) (k : Nat) : sget d (m.filter (fun e => p e.1)) k = if p k then sget d m k else d := by
  induction m with
  | nil => exact (ite_self d).symm
  | cons e t ih =>
    obtain ⟨j, w⟩ := e
    by_cases hj : j = k
    · subst hj
      cases hp : p j <;> simp [hp, sget, ih]
    · cases hp : p j <;> simp [hp, sget, ih, hj]

/-- A choice depends on the truth of its condition alone. -/
theorem ite_of_iff {p q : Prop} [Decidable p] [Decidable q] (h : p ↔ q) {x y : α} : (if p then x else y) = if q then x else y :=
  ite_congr (propext h) (fun _ => rfl) (fun _ => rfl)

/-- Writes of one item, each to the numbers that it reaches. -/
theorem sget_foldl {β : Type} {f : Sparse α → β → Sparse α} {reach : β → Nat → Prop} [∀ x k, Decidable (reach x k)] {v : α}
    (hf : ∀ m x k, sget d (f m x) k = if reach x k then v else sget d m k) (l : List β) (m : Sparse α) (k : Nat) :
    sget d (l.foldl f m) k = if ∃ x ∈ l, reach x k then v else sget d m k := by
  induction l generalizing m with
  | nil => simp
  | cons x xs ih =>
    simp only [List.foldl_cons, ih, hf, List.mem_cons, exists_eq_or_imp]
    by_cases hx : reach x k <;> simp [hx]

end

/-! ### Segments of stacked memory (R240, R244, R245) -/

theorem inSegment_iff {s : State} {c g w : Nat} (hc : c < 20) (hg : g < 32) : s.inSegment c g w = true ↔
    c * 2 ^ 39 + g * 2 ^ 24 ≤ 8 * w ∧ 8 * w < c * 2 ^ 39 + g * 2 ^ 24 + 2 ^ 24 := by
  have hlo : s.ga 0 c (g * 2 ^ 24) % 2 ^ 48 = c * 2 ^ 39 + g * 2 ^ 24 := by
    simp only [State.ga, mkGa]
    omega
  simp only [State.inSegment, hlo, decide_eq_true_eq]

theorem inSegment_lt {s : State} {c g w : Nat} (hc : c < 20) (hg : g < 32) (h : s.inSegment c g w = true) : 8 * w + 64 < 2 ^ 48 := by
  obtain ⟨-, hhi⟩ := (inSegment_iff hc hg).1 h
  omega

/-- A segment holds blocks of 64 bytes whole. -/
theorem inSegment_block {s : State} {c g : Nat} (hc : c < 20) (hg : g < 32) (w : Nat) : s.inSegment c g (8 * (w / 8)) = s.inSegment c g w := by
  rw [Bool.eq_iff_iff, inSegment_iff hc hg, inSegment_iff hc hg]
  omega

/-- The state with other marks, and with other records of errors for the host. -/
def remarked (s : State) (h : HostPort) (m : Sparse Mark) : State := { s with host := h, mem := { s.mem with marks := m } }

/-- A record of an error changes the host's part alone. -/
theorem logError_host (s : State) (kind g n : Nat) (a : Agent) : ∃ h, s.logError kind g n a = { s with host := h } := by
  unfold State.logError State.logOnce
  dsimp only
  split
  · exact ⟨_, rfl⟩
  · split <;> exact ⟨_, rfl⟩

/-- Steps that each change marks and log errors. -/
theorem foldl_remarked {β : Type} {step : State → β → State} {f : Sparse Mark → β → Sparse Mark} {l : List β}
    (hstep : ∀ s, ∀ x ∈ l, ∃ h, step s x = remarked s h (f s.mem.marks x)) (s : State) :
    ∃ h, l.foldl step s = remarked s h (l.foldl f s.mem.marks) := by
  induction l generalizing s with
  | nil => exact ⟨s.host, rfl⟩
  | cons x xs ih =>
    obtain ⟨h, hx⟩ := hstep s x List.mem_cons_self
    obtain ⟨h', hxs⟩ := ih (fun s y hy => hstep s y (List.mem_cons_of_mem x hy)) (remarked s h (f s.mem.marks x))
    exact ⟨h', by rw [List.foldl_cons, hx, hxs]; rfl⟩

theorem setMark_eq (s : State) {g w : Nat} (hw : g % 2 ^ 48 / 8 = w) (m : Mark) :
    s.setMark g m = remarked s s.host (sset .clean s.mem.marks w m) := by
  subst hw
  rfl

/-- What the encoding of a segment into BCH does with one mark. -/
def encodeMark (s : State) (m : Nat × Mark) : State :=
  let w := s.pkg.pkgNo.toNat * 2 ^ 48 + 8 * m.1
  match m.2 with
  | .correctable => (s.logError 1 w 8 .host).setMark w .clean
  | .uncorrectable => s.logError 2 w 8 .host
  | .poison => s
  | .clean => s

theorem encodeSegment_eq (s : State) (c g : Nat) :
    s.encodeSegment c g = (s.mem.marks.filter (fun m => s.inSegment c g m.1)).foldl encodeMark s := rfl

/-- The marks once a word with a corrected error is clean. -/
def correctMark (t : Sparse Mark) (m : Nat × Mark) : Sparse Mark := if m.2 = .correctable then sset .clean t m.1 .clean else t

theorem sget_correctMark (t : Sparse Mark) (m : Nat × Mark) (w : Nat) :
    sget .clean (correctMark t m) w = if m = (w, .correctable) then .clean else sget .clean t w := by
  obtain ⟨k, x⟩ := m
  unfold correctMark
  by_cases hx : x = .correctable
  · simp [hx, sget_sset, eq_comm]
  · simp [hx]

theorem encodeMark_eq (s : State) {m : Nat × Mark} (hm : 8 * m.1 < 2 ^ 48) : ∃ h, encodeMark s m = remarked s h (correctMark s.mem.marks m) := by
  obtain ⟨k, x⟩ := m
  have hk : (s.pkg.pkgNo.toNat * 2 ^ 48 + 8 * k) % 2 ^ 48 / 8 = k := by
    dsimp only at hm
    omega
  obtain ⟨h1, hlog1⟩ := logError_host s 1 (s.pkg.pkgNo.toNat * 2 ^ 48 + 8 * k) 8 .host
  obtain ⟨h2, hlog2⟩ := logError_host s 2 (s.pkg.pkgNo.toNat * 2 ^ 48 + 8 * k) 8 .host
  cases x with
  | clean => exact ⟨s.host, rfl⟩
  | correctable => exact ⟨h1, by rw [encodeMark, hlog1]; exact setMark_eq _ hk _⟩
  | uncorrectable => exact ⟨h2, by rw [encodeMark, hlog2]; rfl⟩
  | poison => exact ⟨s.host, rfl⟩

/-! ### Blocks of a segment that leaves retention (R240, R245) -/

/-- The marks of blocks that BCH cannot correct. -/
abbrev Fails (m : Mark) : Prop := m = .uncorrectable ∨ m = .poison

/-- What the encoding of a segment into SECDED does with one block. -/
def decodeBlock (s : State) (m : Nat × Mark) : State :=
  let b := s.pkg.pkgNo.toNat * 2 ^ 48 + 64 * m.1
  match m.2 with
  | .correctable => s.logError 1 b 21 .host
  | .clean => s
  | .uncorrectable => s.failBlock b
  | .poison => s.failBlock b

/-- The blocks with errors that lie in a segment. -/
def badBlocks (s : State) (c g : Nat) : Sparse Mark := s.mem.blocks.filter (fun m => s.inSegment c g (8 * m.1))

theorem decodeSegment_eq (s : State) (c g : Nat) : s.decodeSegment c g =
    let u := (badBlocks s c g).foldl decodeBlock s
    { u with mem := { u.mem with blocks := (badBlocks s c g).foldl (fun m x => sset .clean m x.1 .clean) u.mem.blocks } } := rfl

/-- The marks once the eight words of block `b` are poisoned. -/
def poisonWords (b : Nat) (t : Sparse Mark) : Sparse Mark := (List.range 8).foldl (fun t j => sset .clean t (8 * b + j) .poison) t

theorem sget_poisonWords (b : Nat) (t : Sparse Mark) (w : Nat) :
    sget .clean (poisonWords b t) w = if w / 8 = b then .poison else sget .clean t w := by
  have hreach : (∃ j ∈ List.range 8, w = 8 * b + j) ↔ w / 8 = b := by
    simp only [List.mem_range]
    exact ⟨fun ⟨j, hj, hw⟩ => by omega, fun h => ⟨w % 8, by omega, by omega⟩⟩
  rw [poisonWords, sget_foldl (fun t j w => sget_sset .clean t (8 * b + j) w .poison)]
  exact ite_of_iff hreach

theorem failBlock_eq (s : State) {b n : Nat} (hn : b % 2 ^ 48 = 64 * n) :
    ∃ h, s.failBlock b = remarked s h (poisonWords n s.mem.marks) := by
  obtain ⟨h1, hlog⟩ := logError_host s 4 b 21 .host
  have hstep : ∀ u : State, ∀ j ∈ List.range 8, ∃ h, u.setMark (b + 8 * j) .poison = remarked u h (sset .clean u.mem.marks (8 * n + j) .poison) :=
    fun u j hj => ⟨u.host, setMark_eq u (by have := List.mem_range.1 hj; omega) _⟩
  obtain ⟨h, hfold⟩ := foldl_remarked (f := fun t j => sset .clean t (8 * n + j) .poison) hstep { s with host := h1 }
  exact ⟨h, by rw [State.failBlock, hlog, hfold]; rfl⟩

/-- The marks once a block that fails is written back. -/
def poisonBlock (t : Sparse Mark) (m : Nat × Mark) : Sparse Mark := if Fails m.2 then poisonWords m.1 t else t

theorem sget_poisonBlock (t : Sparse Mark) (m : Nat × Mark) (w : Nat) :
    sget .clean (poisonBlock t m) w = if w / 8 = m.1 ∧ Fails m.2 then .poison else sget .clean t w := by
  unfold poisonBlock
  by_cases hm : Fails m.2
  · rw [if_pos hm, sget_poisonWords]
    exact ite_of_iff (and_iff_left hm).symm
  · rw [if_neg hm, if_neg (fun h => hm h.2)]

theorem decodeBlock_eq (s : State) {m : Nat × Mark} (hm : 64 * m.1 < 2 ^ 48) : ∃ h, decodeBlock s m = remarked s h (poisonBlock s.mem.marks m) := by
  obtain ⟨n, x⟩ := m
  have hn : (s.pkg.pkgNo.toNat * 2 ^ 48 + 64 * n) % 2 ^ 48 = 64 * n := by
    dsimp only at hm
    omega
  cases x with
  | clean => exact ⟨s.host, rfl⟩
  | correctable =>
    obtain ⟨h, hlog⟩ := logError_host s 1 (s.pkg.pkgNo.toNat * 2 ^ 48 + 64 * n) 21 .host
    exact ⟨h, hlog⟩
  | uncorrectable =>
    rw [poisonBlock, if_pos (.inl rfl)]
    exact failBlock_eq s hn
  | poison =>
    rw [poisonBlock, if_pos (.inr rfl)]
    exact failBlock_eq s hn

/-! ### The marks of a segment that is encoded again (R240, R241, R245) -/

section
variable {s : State} {c g : Nat} (hwf : s.mem.wf = true) (hc : c < 20) (hg : g < 32)
include hwf hc hg

/-- Encoding a segment into BCH cleans its words with corrected errors, and changes nothing else but the log. -/
theorem encodeSegment_marks : ∃ h t, s.encodeSegment c g = remarked s h t ∧ ∀ w, sget .clean t w =
    if s.inSegment c g w = true ∧ sget .clean s.mem.marks w = .correctable then .clean else sget .clean s.mem.marks w := by
  obtain ⟨-, -, hmarks, -⟩ := (wf_iff _).1 hwf
  have hstep : ∀ u, ∀ m ∈ s.mem.marks.filter (fun m => s.inSegment c g m.1), ∃ h, encodeMark u m = remarked u h (correctMark u.mem.marks m) :=
    fun u m hm => encodeMark_eq u (by have := inSegment_lt hc hg (List.mem_filter.1 hm).2; omega)
  obtain ⟨h, hfold⟩ := foldl_remarked hstep s
  refine ⟨h, _, encodeSegment_eq s c g ▸ hfold, fun w => ?_⟩
  rw [sget_foldl sget_correctMark]
  refine ite_of_iff ?_
  rw [exists_eq_right, List.mem_filter, mem_iff_sget (by decide) w none hmarks, and_comm]

/-- A word lies in a failing block of the segment. -/
theorem exists_badBlock (w : Nat) : (∃ m ∈ badBlocks s c g, w / 8 = m.1 ∧ Fails m.2) ↔
    s.inSegment c g w = true ∧ Fails (sget .clean s.mem.blocks (w / 8)) := by
  obtain ⟨-, -, -, hblocks⟩ := (wf_iff _).1 hwf
  rw [← inSegment_block hc hg w]
  constructor
  · rintro ⟨⟨n, x⟩, hm, rfl, hx⟩
    obtain ⟨hlisted, hseg⟩ := List.mem_filter.1 hm
    have hclean : x ≠ .clean := by rintro rfl; exact absurd hx (by simp)
    rw [(mem_iff_sget hclean _ none hblocks).1 hlisted]
    exact ⟨hseg, hx⟩
  · rintro ⟨hseg, hx⟩
    have hclean : sget .clean s.mem.blocks (w / 8) ≠ .clean := fun h => by rw [h] at hx; exact absurd hx (by decide)
    exact ⟨_, List.mem_filter.2 ⟨(mem_iff_sget hclean _ none hblocks).2 rfl, hseg⟩, rfl, hx⟩

/-- Writing a segment back in SECDED leaves no block with errors, poisons the words of those that BCH cannot correct, and changes nothing else but
the log. -/
theorem decodeSegment_marks : ∃ h t l, s.decodeSegment c g = { s with host := h, mem := { s.mem with marks := t, blocks := l } } ∧
    (∀ b, sget .clean l b = if s.inSegment c g (8 * b) then .clean else sget .clean s.mem.blocks b) ∧
    ∀ w, sget .clean t w = if s.inSegment c g w = true ∧ Fails (sget .clean s.mem.blocks (w / 8)) then .poison else sget .clean s.mem.marks w := by
  obtain ⟨-, -, -, hblocks⟩ := (wf_iff _).1 hwf
  have hstep : ∀ u, ∀ m ∈ badBlocks s c g, ∃ h, decodeBlock u m = remarked u h (poisonBlock u.mem.marks m) :=
    fun u m hm => decodeBlock_eq u (by have := inSegment_lt hc hg (List.mem_filter.1 hm).2; omega)
  obtain ⟨h, hfold⟩ := foldl_remarked hstep s
  refine ⟨h, (badBlocks s c g).foldl poisonBlock s.mem.marks, _, by rw [decodeSegment_eq, hfold]; rfl, fun b => ?_, fun w => ?_⟩
  · rw [remarked, sget_foldl (fun t x k => sget_sset .clean t x.1 k .clean)]
    by_cases hb : sget .clean s.mem.blocks b = .clean
    · rw [hb, ite_self, ite_self]
    · have hlisted : (∃ m ∈ badBlocks s c g, b = m.1) ↔ s.inSegment c g (8 * b) = true := by
        constructor
        · rintro ⟨m, hm, rfl⟩
          exact (List.mem_filter.1 hm).2
        · exact fun hseg => ⟨_, List.mem_filter.2 ⟨(mem_iff_sget hb _ none hblocks).2 rfl, hseg⟩, rfl⟩
      exact ite_of_iff hlisted
  · rw [sget_foldl sget_poisonBlock]
    exact ite_of_iff (exists_badBlock hwf hc hg w)

end
/-! ### The steps of retention (R244 to R246) -/

theorem sameThreads_of_eq {s u : State} (hthreads : u.threads = s.threads) (hcores : u.cores = s.cores) (hmem : u.mem = s.mem) : SameThreads s u :=
  ⟨fun m => congrArg (sget ({} : Thread) · m) hthreads, fun q => congrArg (sget ({} : Core) · q) hcores, hmem⟩

@[simp] theorem putRet_retOf (s : State) (c g : Nat) (r : RetSt) : ((s.putRet c g r).col c).retOf g = r := by
  rw [State.putRet, State.modCol_col, if_pos rfl]
  exact sget_sset_same ..

theorem retentionEnter_due {s : State} {c g : Nat} (hc : c < 20) (hg : g < 32) (hdue : s.retentionDue c g = true) :
    exec (.retentionEnter c g) s = .next (s.putRet c g (.entering (s.sched.cycle + s.retCycles) false)) :=
  congrArg Host.Outcome.next (if_pos ⟨hc, hg, hdue⟩)

theorem retentionEnterDone_due {s : State} {c g till : Nat} {exit : Bool} (hret : (s.col c).retOf g = .entering till exit)
    (hdue : till ≤ s.sched.cycle) : exec (.retentionEnterDone c g) s =
      .next ((s.encodeSegment c g).putRet c g (if exit then .leaving (s.sched.cycle + s.retCycles) else .retained)) := by
  refine congrArg Host.Outcome.next ?_
  rw [hret]
  exact if_neg (Nat.not_lt.2 hdue)

theorem retentionExitDone_due {s : State} {c g till : Nat} (hret : (s.col c).retOf g = .leaving till) (hdue : till ≤ s.sched.cycle) :
    exec (.retentionExitDone c g) s = .next (((s.decodeSegment c g).putRet c g .normal).modCol c (fun x =>
      { x with segUsed := sset 0 x.segUsed g (s.decodeSegment c g).sched.cycle })) := by
  refine congrArg Host.Outcome.next ?_
  rw [hret]
  exact if_neg (Nat.not_lt.2 hdue)

/-! ### Runs of bytes that are cleared (R248, R250) -/

theorem ga_add (s : State) (space owner off n : Nat) : s.ga space owner off + n = s.ga space owner (off + n) := Nat.add_assoc ..

theorem within_ga (s : State) {space owner off n : Nat} (hspace : space < 4) (howner : owner < 32) (hoff : off + n ≤ 2 ^ 39) (hn : 0 < n) :
    Within (s.ga space owner off) n := by
  simp only [Within, gaSpace, bits_eq, State.ga, mkGa]
  omega

theorem ga_mod_eight (s : State) (space owner : Nat) {off : Nat} (hoff : off % 8 = 0) : s.ga space owner off % 8 = 0 := by
  simp only [State.ga, mkGa]
  omega

theorem byte_zeroFill (s : State) (g n : Nat) {h : Nat} (hh : gaSpace h < 4) :
    (s.zeroFill g n).byte h = if g % 2 ^ 48 ≤ h % 2 ^ 48 ∧ h % 2 ^ 48 < g % 2 ^ 48 + n then 0 else s.byte h := by
  rw [byte_of_memory _ hh, byte_of_memory _ hh]
  refine (sget_filter (fun k => !decide (g % 2 ^ 48 ≤ k ∧ k < g % 2 ^ 48 + n)) s.mem.bytes _).trans ?_
  simp only [Bool.not_eq_true', decide_eq_false_iff_not, ite_not]

section
variable {s : State} {g n : Nat} (hin : Within g n)
include hin

theorem byte_zeroFill_inside {i : Nat} (hi : i < n) : (s.zeroFill g n).byte (g + i) = 0 := by
  rw [byte_zeroFill s g n (inMemory_of_within hin i hi), if_pos]
  obtain ⟨-, hend⟩ := hin
  omega

theorem byte_zeroFill_outside {h : Nat} (hh : gaSpace h < 4) (hout : Outside g n h) : (s.zeroFill g n).byte h = s.byte h := by
  rw [byte_zeroFill s g n hh, if_neg]
  rintro ⟨hlo, hhi⟩
  obtain ⟨-, hend⟩ := hin
  exact hout (h % 2 ^ 48 - g % 2 ^ 48) (by omega) (by omega)

theorem full_zeroFill_inside (hg : g % 8 = 0) {i : Nat} (hi : i < n) : (s.zeroFill g n).full (g + i) = false := by
  refine (sget_filter (fun k => !decide (g % 2 ^ 48 ≤ 8 * k ∧ 8 * k < g % 2 ^ 48 + n)) s.mem.fe _).trans ?_
  obtain ⟨-, hend⟩ := hin
  have hword : g % 2 ^ 48 ≤ 8 * ((g + i) % 2 ^ 48 / 8) ∧ 8 * ((g + i) % 2 ^ 48 / 8) < g % 2 ^ 48 + n := by omega
  rw [decide_eq_true hword]
  rfl

end

/-! ### The patrol tester (R247 to R249) -/

theorem segRange_within (s : State) {p : PatrolSeg} (hp : segExists p = true) : Within (s.segRange p).1 (s.segRange p).2 ∧ (s.segRange p).1 % 8 = 0 := by
  cases p with
  | stacked c n =>
    obtain ⟨hc, hn⟩ := of_decide_eq_true hp
    have hin : Within (s.ga 0 c (n * 2 ^ 24)) (2 ^ 24) := within_ga s (by decide) (by omega) (by omega) (by decide)
    exact ⟨hin, ga_mod_eight s 0 c (by omega)⟩
  | scratch c q =>
    obtain ⟨hc, hq⟩ := of_decide_eq_true hp
    have hin : Within (s.ga 1 c (q * 2 ^ 20)) (2 ^ 20) := within_ga s (by decide) (by omega) (by omega) (by decide)
    exact ⟨hin, ga_mod_eight s 1 c (by omega)⟩

theorem segExists_of_claimable {s : State} {p : PatrolSeg} (h : s.claimable p = true) : segExists p = true := by
  simp only [State.claimable, Bool.and_eq_true, and_assoc] at h
  obtain ⟨-, -, hexists, -⟩ := h
  exact hexists

/-- A claimed segment reads as zero and EMPTY, and no other byte changes. -/
theorem patrolClaim_zeroes {s : State} {p : PatrolSeg} (h : s.claimable p = true) : ∃ u, exec (.patrolClaim p) s = .next u ∧
    u.eng.patrol.seg = some p ∧ u.eng.patrol.chunk = 0 ∧
    (∀ i, i < (s.segRange p).2 → u.byte ((s.segRange p).1 + i) = 0 ∧ u.full ((s.segRange p).1 + i) = false) ∧
    (∀ a, gaSpace a < 4 → Outside (s.segRange p).1 (s.segRange p).2 a → u.byte a = s.byte a) ∧ ∀ m, u.thr m = s.thr m := by
  obtain ⟨hin, halign⟩ := segRange_within s (segExists_of_claimable h)
  exact ⟨_, congrArg Host.Outcome.next (if_pos h), rfl, rfl, fun i hi => ⟨byte_zeroFill_inside hin hi, full_zeroFill_inside hin halign hi⟩,
    fun a => byte_zeroFill_outside hin, fun _ => rfl⟩

section
variable {s : State} {p : PatrolSeg} (hseg : s.eng.patrol.seg = some p)
include hseg

theorem patrolChunkDone_more (hmore : (s.eng.patrol.chunk + 1) * 65536 < (s.segRange p).2) : exec (.patrolChunkDone []) s =
    .next { s with eng := { s.eng with patrol := { s.eng.patrol with chunk := s.eng.patrol.chunk + 1 } } } := by
  refine congrArg Host.Outcome.next ?_
  rw [hseg]
  exact if_pos hmore

theorem patrolChunkDone_last (hlast : (s.segRange p).2 ≤ (s.eng.patrol.chunk + 1) * 65536) : exec (.patrolChunkDone []) s =
    .next { s with eng := { s.eng with patrol :=
      { s.eng.patrol with seg := none, chunk := 0, releasing := false, releaseAt := none } } } := by
  refine congrArg Host.Outcome.next ?_
  rw [hseg]
  exact if_neg (Nat.not_lt.2 hlast)

end

section
variable {s : State} (hrel : s.eng.patrol.releasing = true)
include hrel

theorem patrolRelease_asked (hat : s.eng.patrol.releaseAt = none) : exec .patrolRelease s = .next { s.fresh.2 with
    eng := { s.eng with patrol := { s.eng.patrol with
      releaseAt := some (s.sched.cycle + 1 + Config.delay s.fresh.1 % (2 * s.pkg.mhz)) } } } := by
  refine congrArg Host.Outcome.next ?_
  simp only [hrel, hat]
  rfl

theorem patrolRelease_due {n : Nat} (hat : s.eng.patrol.releaseAt = some n) (hdue : n ≤ s.sched.cycle) : exec .patrolRelease s = .next { s with
    eng := { s.eng with patrol := { s.eng.patrol with seg := none, chunk := 0, releasing := false, releaseAt := none } } } := by
  refine congrArg Host.Outcome.next ?_
  simp only [hrel, hat]
  exact if_neg (Nat.not_lt.2 hdue)

end

/-! ### Thermal records (R470) -/

/-- A record has been written: the threads, the schedule and the state of cooling are as before. -/
structure Recorded (s u : State) : Prop where
  threads : u.threads = s.threads
  sched : u.sched = s.sched
  loops : u.pkg.loops = s.pkg.loops
  vhalf : u.pkg.vhalf = s.pkg.vhalf
  cap : u.pkg.cap = s.pkg.cap

theorem Recorded.trans {s u v : State} (h : Recorded s u) (k : Recorded u v) : Recorded s v :=
  ⟨k.threads.trans h.threads, k.sched.trans h.sched, k.loops.trans h.loops, k.vhalf.trans h.vhalf, k.cap.trans h.cap⟩

theorem recorded_memHost (s : State) (m : Memory) (h : HostPort) : Recorded s { s with mem := m, host := h } := ⟨rfl, rfl, rfl, rfl, rfl⟩

theorem recorded_writeN (n : Nat) : ∀ (s : State) (g v : Nat), Recorded s (s.writeN g v n) := by
  induction n with
  | zero => exact fun s _ _ => recorded_memHost s s.mem s.host
  | succ n ih =>
    intro s g v
    refine .trans ?_ (ih (s.putByte g (BitVec.ofNat 8 v)) (g + 1) (v / 256))
    unfold State.putByte
    split <;> exact recorded_memHost s _ s.host

theorem recorded_ringWord (s : State) (g v : Nat) : Recorded s (s.ringWord g v) := by
  unfold State.ringWord
  split
  · exact recorded_memHost s s.mem _
  · exact .trans (recorded_writeN 8 s g v) (recorded_memHost _ _ (s.writeN g v 8).host)

theorem recorded_write4 (s : State) (g a b c d : Nat) : Recorded s (s.write4 g a b c d) :=
  (recorded_ringWord s g a).trans (recorded_ringWord _ (g + 8) b) |>.trans (recorded_ringWord _ (g + 16) c) |>.trans (recorded_ringWord _ (g + 24) d)

theorem recorded_interrupt (s : State) (n : Nat) : Recorded s (s.interrupt n) := by
  unfold State.interrupt
  dsimp only
  split <;> exact ⟨rfl, rfl, rfl, rfl, rfl⟩

theorem recorded_thermal (s : State) (kind sensor temp : Nat) : Recorded s (s.thermal kind sensor temp) := by
  unfold State.thermal
  dsimp only
  split
  · exact ⟨rfl, rfl, rfl, rfl, rfl⟩
  · refine .trans ?_ (recorded_interrupt _ 1)
    refine .trans ?_ (recorded_write4 ..)
    exact ⟨rfl, rfl, rfl, rfl, rfl⟩

section
variable (s : State) (kind sensor temp : Nat)

@[simp] theorem thermal_thr (m : Nat) : (s.thermal kind sensor temp).thr m = s.thr m :=
  congrArg (sget ({} : Thread) · m) (recorded_thermal s kind sensor temp).threads
@[simp] theorem thermal_sched : (s.thermal kind sensor temp).sched = s.sched := (recorded_thermal s kind sensor temp).sched
@[simp] theorem thermal_loops : (s.thermal kind sensor temp).pkg.loops = s.pkg.loops := (recorded_thermal s kind sensor temp).loops
@[simp] theorem thermal_vhalf : (s.thermal kind sensor temp).pkg.vhalf = s.pkg.vhalf := (recorded_thermal s kind sensor temp).vhalf
@[simp] theorem thermal_cap : (s.thermal kind sensor temp).pkg.cap = s.pkg.cap := (recorded_thermal s kind sensor temp).cap

@[simp] theorem shutdown_thr (m : Nat) : (s.shutdown sensor temp).thr m = s.thr m := thermal_thr s 0x16 sensor temp m
@[simp] theorem shutdown_loops : (s.shutdown sensor temp).pkg.loops = s.pkg.loops := thermal_loops s 0x16 sensor temp
@[simp] theorem shutdown_vhalf : (s.shutdown sensor temp).pkg.vhalf = s.pkg.vhalf := thermal_vhalf s 0x16 sensor temp
@[simp] theorem shutdown_cap : (s.shutdown sensor temp).pkg.cap = s.pkg.cap := thermal_cap s 0x16 sensor temp

end

/-! ### Clock steps (R467, R468) -/

/-- A step that is asked for is on the agenda; nothing else changes. -/
theorem wantStep_cases (s : State) (mhz : Nat) :
    s.wantStep mhz = s ∧ (mhz = s.pkg.mhz ∨ s.mgmt.pendingMhz.isSome = true) ∨ s.wantStep mhz = s.after 1 (.clockStepChange mhz) := by
  unfold State.wantStep
  split
  case isTrue h => exact .inl ⟨rfl, h⟩
  case isFalse => exact .inr rfl

@[simp] theorem wantStep_thr (s : State) (mhz m : Nat) : (s.wantStep mhz).thr m = s.thr m := by
  obtain ⟨h, -⟩ | h := wantStep_cases s mhz <;> rw [h]; rfl

@[simp] theorem wantStep_pkg (s : State) (mhz : Nat) : (s.wantStep mhz).pkg = s.pkg := by
  obtain ⟨h, -⟩ | h := wantStep_cases s mhz <;> rw [h]; rfl

@[simp] theorem wantStep_mgmt (s : State) (mhz : Nat) : (s.wantStep mhz).mgmt = s.mgmt := by
  obtain ⟨h, -⟩ | h := wantStep_cases s mhz <;> rw [h]; rfl

theorem sameThreads_wantStep (s : State) (mhz : Nat) : SameThreads s (s.wantStep mhz) := by
  obtain ⟨h, -⟩ | h := wantStep_cases s mhz <;> rw [h] <;> exact sameThreads_of_eq rfl rfl rfl

theorem later_after (s : State) (e : Event) : Later s (s.after 1 e) e := ⟨s.sched.cycle + 1, Nat.lt_succ_self _, by simp [State.after, State.post]⟩

/-- The windows of clean power count anew, and another step is asked for unless it is the present one. -/
theorem wantStep_recount {s : State} (hpend : s.mgmt.pendingMhz = none) (mhz : Nat) :
    let u := State.wantStep { s with mgmt := { s.mgmt with cleanWindows := 0 } } mhz
    SameThreads s u ∧ u.mgmt.cleanWindows = 0 ∧ (mhz ≠ s.pkg.mhz → Later s u (.clockStepChange mhz)) := by
  refine ⟨sameThreads_wantStep _ mhz, by rw [wantStep_mgmt], fun hne => ?_⟩
  obtain ⟨-, heq | hsome⟩ | h := wantStep_cases { s with mgmt := { s.mgmt with cleanWindows := 0 } } mhz
  · exact absurd heq hne
  · rw [hpend] at hsome
    exact absurd hsome (by decide)
  · rw [h]
    exact later_after ..

section
variable {s : State} {watts : Nat} (hbottom : bottomWorks s = true)
include hbottom

theorem powerWindow_over (hover : s.pkg.cap < watts) : exec (.powerWindow watts) s =
    .next (State.wantStep { s with mgmt := { s.mgmt with cleanWindows := 0 } } (stepDown s.pkg.mhz)) := by
  refine congrArg Host.Outcome.next ?_
  rw [hbottom]
  exact if_pos hover

theorem powerWindow_under (hcap : watts ≤ s.pkg.cap) (hunder : 10 * watts < 9 * s.pkg.cap) : exec (.powerWindow watts) s =
    .next (if 9 ≤ s.mgmt.cleanWindows then State.wantStep { s with mgmt := { s.mgmt with cleanWindows := 0 } } (stepUp s.pkg.mhz)
      else { s with mgmt := { s.mgmt with cleanWindows := s.mgmt.cleanWindows + 1 } }) := by
  refine congrArg Host.Outcome.next ?_
  rw [hbottom]
  exact (if_neg (Nat.not_lt.2 hcap)).trans (if_pos hunder)

theorem powerWindow_under_counts (hpend : s.mgmt.pendingMhz = none) (hcap : watts ≤ s.pkg.cap) (hunder : 10 * watts < 9 * s.pkg.cap) :
    ∃ u, exec (.powerWindow watts) s = .next u ∧ SameThreads s u ∧
      (s.mgmt.cleanWindows < 9 → u.mgmt.cleanWindows = s.mgmt.cleanWindows + 1) ∧
      (9 ≤ s.mgmt.cleanWindows → stepUp s.pkg.mhz ≠ s.pkg.mhz → Later s u (.clockStepChange (stepUp s.pkg.mhz))) := by
  refine ⟨_, powerWindow_under hbottom hcap hunder, ?_⟩
  split
  case isTrue hnine =>
    obtain ⟨hsame, -, hlater⟩ := wantStep_recount hpend (stepUp s.pkg.mhz)
    exact ⟨hsame, fun h => absurd hnine (Nat.not_le.2 h), fun _ => hlater⟩
  case isFalse hless => exact ⟨sameThreads_of_eq rfl rfl rfl, fun _ => rfl, fun h => absurd h hless⟩

end

section
variable {s : State} {mhz : Nat} (hstep : mhz = 1800 ∨ mhz = 1500 ∨ mhz = 1200 ∨ mhz = 900) (hne : mhz ≠ s.pkg.mhz)
  (hpend : s.mgmt.pendingMhz = none)
include hstep hne hpend

theorem clockStepChange_eq : exec (.clockStepChange mhz) s = .next (
    if s.sched.cycle % 16 ≠ 0 ∨ s.sched.pos ≠ 0 then s.post ((s.sched.cycle + 16) / 16 * 16) (.clockStepChange mhz)
    else
      let u := State.thermal { s with pkg := { s.pkg with mhz := mhz } } 0x14 0 0
      { u with
        pkg := { u.pkg with mhz := s.pkg.mhz }
        mgmt := { u.mgmt with pendingMhz := some mhz }
        sched := { u.sched with agenda := (u.sched.cycle, .newClockRuns) :: u.sched.agenda } }) := by
  refine congrArg Host.Outcome.next (if_neg ?_)
  simp [hstep, hne, hpend]

/-- At a common cycle the step is noted, and the present clock runs on until the new one does. -/
theorem clockStepChange_now (hcycle : s.sched.cycle % 16 = 0) (hpos : s.sched.pos = 0) :
    ∃ u, exec (.clockStepChange mhz) s = .next u ∧ (∀ m, u.thr m = s.thr m) ∧ u.mgmt.pendingMhz = some mhz ∧ u.pkg.mhz = s.pkg.mhz ∧
      u.sched.agenda = (s.sched.cycle, .newClockRuns) :: s.sched.agenda := by
  refine ⟨_, (clockStepChange_eq hstep hne hpend).trans (congrArg Host.Outcome.next (if_neg (by simp [hcycle, hpos]))), thermal_thr _ _ _ _, rfl, rfl, ?_⟩
  dsimp only
  rw [thermal_sched]

end

theorem newClockRuns_eq {s : State} {mhz : Nat} (hpend : s.mgmt.pendingMhz = some mhz) : exec .newClockRuns s = .next { s with
    pkg := { s.pkg with mhz := mhz }
    mgmt := { s.mgmt with pendingMhz := none }
    sched := { s.sched with time := s.sched.time + 36000 } } := by
  refine congrArg Host.Outcome.next ?_
  rw [hpend]

/-! ### Cooling (R467, R469, R470) -/

/-- The state of cooling with the loops `l` at work (R467, R469). -/
structure Cooled (s u : State) (l : BitVec 2) : Prop where
  thr : ∀ m, u.thr m = s.thr m
  loops : u.pkg.loops = l
  vhalf : u.pkg.vhalf = !u.pkg.loops.getLsbD 1
  cap : u.pkg.cap = min s.mgmt.mgmtCap (if !u.pkg.loops.getLsbD 0 then 150 else if !u.pkg.loops.getLsbD 1 then 180 else 300)

theorem cooled_thermal (s : State) (l : BitVec 2) (kind sensor temp : Nat) : Cooled s ((s.setLoops l).thermal kind sensor temp) l :=
  ⟨thermal_thr _ _ _ _, thermal_loops .., by rw [thermal_vhalf, thermal_loops]; rfl, by rw [thermal_cap, thermal_loops]; rfl⟩

theorem Cooled.shutdown {s u : State} {l : BitVec 2} (h : Cooled s u l) (sensor temp : Nat) : Cooled s (u.shutdown sensor temp) l :=
  ⟨fun m => by rw [shutdown_thr, h.thr], by rw [shutdown_loops, h.loops],
    by rw [shutdown_vhalf, shutdown_loops, h.vhalf], by rw [shutdown_cap, shutdown_loops, h.cap]⟩

theorem Cooled.wantStep {s u : State} {l : BitVec 2} (h : Cooled s u l) (mhz : Nat) : Cooled s (u.wantStep mhz) l :=
  ⟨fun m => by rw [wantStep_thr, h.thr], by rw [wantStep_pkg, h.loops], by rw [wantStep_pkg, h.vhalf], by rw [wantStep_pkg, h.cap]⟩

theorem coolingLoopLost_cooled {s : State} {top : Bool} (hworks : (if top then topWorks s else bottomWorks s) = true) (sensor temp : Nat) :
    ∃ u, exec (.coolingLoopLost top sensor temp) s = .next u ∧ Cooled s u (s.pkg.loops &&& if top then 1 else 2) := by
  have hbits : loopBits s.pkg.loops top false = s.pkg.loops &&& if top then 1 else 2 := by cases top <;> rfl
  refine ⟨_, congrArg Host.Outcome.next (if_neg (by rw [hworks]; decide)), ?_⟩
  have hrec := cooled_thermal s (loopBits s.pkg.loops top false) (if top then 0x10 else 0x12) sensor temp
  rw [← hbits]
  dsimp only
  generalize (s.setLoops (loopBits s.pkg.loops top false)).thermal (if top then 0x10 else 0x12) sensor temp = u at hrec ⊢
  split
  · exact hrec.shutdown sensor temp
  · split
    · exact hrec
    · exact hrec.wantStep 1200

theorem coolingLoopRestored_cooled {s : State} {top : Bool} (hworks : (if top then topWorks s else bottomWorks s) = false)
    (hon : s.mgmt.off = false) (sensor temp : Nat) :
    ∃ u, exec (.coolingLoopRestored top sensor temp) s = .next u ∧ Cooled s u (s.pkg.loops ||| if top then 2 else 1) :=
  ⟨_, congrArg Host.Outcome.next (if_neg (by rw [hworks, hon]; decide)), cooled_thermal ..⟩

theorem junctionHot_below (s : State) (sensor : Nat) {temp : Nat} (htemp : temp ≤ 1600) : exec (.junctionHot sensor temp) s = .next s :=
  congrArg Host.Outcome.next (if_pos (.inr htemp))

section
variable {s : State} {temp : Nat} (hon : s.mgmt.off = false) (sensor : Nat)
include hon

theorem junctionHot_record (hlo : 1600 < temp) (hhi : temp ≤ 1760) : exec (.junctionHot sensor temp) s = .next (s.thermal 0x15 sensor temp) :=
  congrArg Host.Outcome.next ((if_neg (by simp [hon, hlo])).trans (if_neg (Nat.not_lt.2 hhi)))

theorem junctionHot_shutdown (hhi : 1760 < temp) : exec (.junctionHot sensor temp) s = .next (s.shutdown sensor temp) :=
  congrArg Host.Outcome.next ((if_neg (by simp [hon]; omega)).trans (if_pos hhi))

end

theorem shutdown_off (s : State) (sensor temp : Nat) :
    (s.shutdown sensor temp).mgmt.off = true ∧ (s.shutdown sensor temp).sched.pinDue = some (s.sched.cycle + 24) := by
  refine ⟨rfl, ?_⟩
  simp only [State.shutdown, thermal_sched]

/-- Settles O52: each step of the schedule is its one branch, and what a segment's encodings, a clearing and a thermal record leave is known. -/
theorem powerAndPatrol : Obligations.PowerAndPatrol := by
  intro s c g till watts mhz sensor temp p exit top
  refine ⟨fun hc hg hdue => ⟨_, retentionEnter_due hc hg hdue, sameThreads_of_eq rfl rfl rfl, putRet_retOf ..⟩, ?enter, ?leave,
    patrolClaim_zeroes, ?chunk, ?release, ?power, ?clock, ?run, ?lost, ?restored, ?hot⟩
  case enter =>
    intro hwf hc hg hret hdue
    obtain ⟨h, t, hseg, hmarks⟩ := encodeSegment_marks hwf hc hg
    refine ⟨_, retentionEnterDone_due hret hdue, ?_⟩
    rw [hseg]
    exact ⟨fun _ => rfl, rfl, rfl, hmarks, putRet_retOf ..⟩
  case leave =>
    intro hwf hc hg hret hdue
    obtain ⟨h, t, l, hseg, hblocks, hmarks⟩ := decodeSegment_marks hwf hc hg
    refine ⟨_, retentionExitDone_due hret hdue, ?_⟩
    rw [hseg]
    refine ⟨?_, fun _ => rfl, rfl, hblocks, hmarks⟩
    rw [State.modCol_col, if_pos rfl]
    exact putRet_retOf ..
  case chunk =>
    exact fun hseg => ⟨fun hmore => ⟨_, patrolChunkDone_more hseg hmore, sameThreads_of_eq rfl rfl rfl, hseg, rfl⟩,
      fun hlast => ⟨_, patrolChunkDone_last hseg hlast, sameThreads_of_eq rfl rfl rfl, rfl, rfl⟩⟩
  case release =>
    refine fun hrel => ⟨fun hat hmhz => ⟨_, _, patrolRelease_asked hrel hat, sameThreads_of_eq rfl rfl rfl, rfl, ?_, ?_⟩,
      fun n hat hdue => ⟨_, patrolRelease_due hrel hat hdue, sameThreads_of_eq rfl rfl rfl, rfl, rfl⟩⟩
    · omega
    · have hmod : Config.delay s.fresh.1 % (2 * s.pkg.mhz) < 2 * s.pkg.mhz := Nat.mod_lt _ (by omega)
      omega
  case power =>
    exact fun hbottom hpend => ⟨fun hover => ⟨_, powerWindow_over hbottom hover, wantStep_recount hpend _⟩, powerWindow_under_counts hbottom hpend⟩
  case clock =>
    exact fun hstep hne hpend => ⟨clockStepChange_now hstep hne hpend,
      fun hcycle => (clockStepChange_eq hstep hne hpend).trans (congrArg Host.Outcome.next (if_pos (.inl hcycle)))⟩
  case run => exact fun hpend => ⟨_, newClockRuns_eq hpend, sameThreads_of_eq rfl rfl rfl, rfl, rfl, rfl, rfl⟩
  case lost =>
    intro hworks
    obtain ⟨u, hexec, hthr, hloops, hvhalf, hcap⟩ := coolingLoopLost_cooled hworks sensor temp
    exact ⟨u, hexec, hthr, hloops, hvhalf, hcap⟩
  case restored =>
    intro hworks hon
    obtain ⟨u, hexec, hthr, hloops, hvhalf, -⟩ := coolingLoopRestored_cooled hworks hon sensor temp
    exact ⟨u, hexec, hthr, hloops, hvhalf⟩
  case hot =>
    exact fun hon => ⟨junctionHot_below s sensor, junctionHot_record hon sensor,
      fun hhi => ⟨_, junctionHot_shutdown hon sensor hhi, shutdown_off s sensor temp⟩⟩

end Sys2Proof.Proofs.SegmentsAndPower
end

section
/-! PROOFS. The statements of the management side-band, resets, bring-up and replay (R250, R251, R463 to R466, R472): the answer that a command
gets and what it changes, the states that resets leave, the stages of bring-up, and the write that a replayed record makes. -/
namespace Sys2Proof.Proofs.ManagementPort
open Sys2Proof Sys2Proof.Machine Sys2Proof.Safety
open TrapRecords (bit_eq_of_bnat bnat_le_one)
open SegmentsAndPower (sameThreads_of_eq ga_add within_ga byte_zeroFill_inside byte_zeroFill_outside)

/-! ### Commands and their answers (R463, R464) -/

/-- The command is answered with the code `code`, and changes nothing. -/
def Turned (s : State) (ev : Instr) (code : Nat) : Prop := exec ev s = .next (s.tell (.mgmt code []))

/-- The command is carried out: it is answered as a success, and the next state meets `P`. -/
def Does (s : State) (ev : Instr) (P : State → Prop) : Prop := ∃ u, exec ev s = .next u ∧ u.host.out = s.host.out ++ [.mgmt 0 []] ∧ P u

/-- A command carried out by the change from `s` to `u` is answered in the state `u`. -/
theorem does_of {s u : State} {ev : Instr} {P : State → Prop} (hexec : exec ev s = .next u.managed) (hout : u.host.out = s.host.out)
    (hP : P u.managed) : Does s ev P := ⟨u.managed, hexec, by rw [← hout]; rfl, hP⟩

theorem manage_off {s : State} (hoff : s.mgmt.off = true) (go : State → State) : s.manage go = s.tell (.mgmt 4 []) := if_pos hoff

/-- Without the main domain no command that needs it is carried out. -/
theorem turned_of_off {s : State} (hoff : s.mgmt.off = true) {ev : Instr} {go : State → State} (hexec : exec ev s = .next (s.manage go)) :
    Turned s ev 4 := hexec.trans (congrArg Host.Outcome.next (manage_off hoff go))

/-! ### The replay bit and the measurement registers (R466, R472) -/

/-- Bit 2 of RCCTL is the replay mode (R472). -/
theorem bit_rcctl (x : W64) (on : Bool) : bit (w64 (x.toNat / 8 * 8 + bnat on * 4 + x.toNat % 4)).toNat 2 = on := by
  refine bit_eq_of_bnat ?_
  have hx := x.isLt
  have hon := bnat_le_one on
  rw [w64, BitVec.toNat_ofNat]
  omega

theorem measure_meas (s : State) {i m : Nat} (hi : i < 8) (digest : List Byte) : (s.measure i digest).mgmt.meas.toList.getD m 0 =
    if m = i then Config.shake256 ((List.range 64).map (fun j => (s.mgmt.meas.toList.getD i 0).extractLsb' (8 * j) 8) ++ digest)
    else s.mgmt.meas.toList.getD m 0 := by
  simp only [State.measure, Vector.toList_setIfInBounds, List.getD_eq_getElem?_getD, List.getElem?_set, Vector.length_toList, hi, if_true]
  by_cases hm : m = i
  · rw [if_pos hm.symm, if_pos hm, Option.getD_some]
  · rw [if_neg (Ne.symm hm), if_neg hm]

/-! ### Commands while the main domain is on (R249, R250, R464, R467) -/

section
variable {s : State} (hon : s.mgmt.off = false)
include hon

theorem manage_on (go : State → State) : s.manage go = go s := if_neg (by simp [hon])

theorem manageIf_true {ok : Bool} (hok : ok = true) (go : State → State) : s.manageIf ok go = (go s).managed :=
  (manage_on hon _).trans (if_pos hok)

theorem manageIf_false {ok : Bool} (hok : ok = false) (go : State → State) : s.manageIf ok go = s.tell (.mgmt 2 []) :=
  (manage_on hon _).trans (if_neg (by simp [hok]))

theorem setret_sets {c : Nat} (hc : c < 20) (mask : BitVec 32) :
    Does s (.setret c mask) (fun u => SameThreads s u ∧ (u.col c).retMask = mask) := by
  refine does_of (congrArg Host.Outcome.next (manageIf_true hon (decide_eq_true hc) _)) rfl ⟨sameThreads_of_eq rfl rfl rfl, ?_⟩
  rw [State.managed, State.tell_col, State.modCol_col, if_pos rfl]

theorem setret_invalid {c : Nat} (hc : 20 ≤ c) (mask : BitVec 32) : Turned s (.setret c mask) 2 :=
  congrArg Host.Outcome.next (manageIf_false hon (decide_eq_false (Nat.not_lt.2 hc)) _)

/-- The tester is enabled or disabled; one that is disabled gives its segment back (R249). -/
theorem patrol_enables (en : Bool) : Does s (.patrol en) (fun u => SameThreads s u ∧ u.eng.patrol.enabled = en ∧
    u.eng.patrol.seg = s.eng.patrol.seg ∧ (en = false → s.eng.patrol.seg.isSome = true → u.eng.patrol.releasing = true)) := by
  refine does_of (congrArg Host.Outcome.next (manageIf_true hon rfl _)) rfl ⟨sameThreads_of_eq rfl rfl rfl, rfl, rfl, fun hen hseg => ?_⟩
  subst hen
  exact (congrArg (s.eng.patrol.releasing || ·) hseg).trans (Bool.or_true _)

section
variable {c bank row : Nat} (hc : c < 20) (hbank : bank < 64) (hrow : row < 8192) (hspare : s.sparesUsed c bank < 16)
include hc hbank hrow hspare

theorem exec_repair : exec (.repair c bank row) s = .next (if s.repairNow c bank then
    State.managed { (s.zeroFill (s.bankGa c bank + 1024 * row) 1024) with eng := { s.eng with repairs := s.eng.repairs ++ [(c, bank, row)] } }
    else State.managed { s with eng := { s.eng with repairsLater := s.eng.repairsLater ++ [(c, bank, row)] } }) :=
  congrArg Host.Outcome.next ((manage_on hon _).trans ((if_neg (not_not_intro ⟨hc, hbank, hrow⟩)).trans (if_neg (Nat.not_le.2 hspare))))

/-- A repair that takes effect at once clears the row, and no other byte (R250). -/
theorem repair_now (hnow : s.repairNow c bank = true) : Does s (.repair c bank row) (fun u =>
    u.eng.repairs = s.eng.repairs ++ [(c, bank, row)] ∧ (∀ j, j < 1024 → u.byte (s.ga 0 c (bank * 2 ^ 23) + 1024 * row + j) = 0) ∧
    (∀ h, gaSpace h < 4 → Outside (s.ga 0 c (bank * 2 ^ 23) + 1024 * row) 1024 h → u.byte h = s.byte h) ∧ ∀ m, u.thr m = s.thr m) := by
  have hin : Within (s.ga 0 c (bank * 2 ^ 23) + 1024 * row) 1024 := by
    rw [ga_add]
    exact within_ga s (by decide) (by omega) (by omega) (by decide)
  refine does_of ((exec_repair hon hc hbank hrow hspare).trans (congrArg Host.Outcome.next (if_pos hnow))) rfl ?_
  exact ⟨rfl, fun j hj => byte_zeroFill_inside hin hj, fun h => byte_zeroFill_outside hin, fun _ => rfl⟩

theorem repair_later (hlater : s.repairNow c bank = false) : Does s (.repair c bank row) (fun u =>
    u.eng.repairsLater = s.eng.repairsLater ++ [(c, bank, row)] ∧ SameThreads s u) :=
  does_of ((exec_repair hon hc hbank hrow hspare).trans (congrArg Host.Outcome.next (if_neg (by simp [hlater])))) rfl
    ⟨rfl, sameThreads_of_eq rfl rfl rfl⟩

end

theorem powercap_sets {watts : Nat} (hlo : 100 ≤ watts) (hhi : watts ≤ 300) : Does s (.powercap watts) (fun u =>
    SameThreads s u ∧ u.mgmt.mgmtCap = watts ∧ u.pkg.cap = min watts (coolCap s)) :=
  does_of (congrArg Host.Outcome.next (manageIf_true hon (decide_eq_true ⟨hlo, hhi⟩) _)) rfl ⟨sameThreads_of_eq rfl rfl rfl, rfl, rfl⟩

theorem powercap_invalid {watts : Nat} (h : watts < 100 ∨ 300 < watts) : Turned s (.powercap watts) 2 :=
  congrArg Host.Outcome.next (manageIf_false hon (decide_eq_false (by omega)) _)

theorem chainnum_sets {pkg count : BitVec 4} (hready : s.pkg.bootstat.getLsbD 7 = false) (hle : pkg.toNat ≤ count.toNat) :
    Does s (.chainnum pkg count) (fun u => SameThreads s u ∧ u.pkg.pkgNo = pkg ∧ u.pkg.pkgCount = count) :=
  does_of (congrArg Host.Outcome.next (manageIf_true hon (by rw [hready, decide_eq_true hle]; rfl) _)) rfl ⟨sameThreads_of_eq rfl rfl rfl, rfl, rfl⟩

theorem chainnum_ready (hready : s.pkg.bootstat.getLsbD 7 = true) (pkg count : BitVec 4) : Turned s (.chainnum pkg count) 2 :=
  congrArg Host.Outcome.next (manageIf_false hon (by rw [hready]; rfl) _)

theorem replay_sets (en : Bool) : Does s (.replay en) (fun u => SameThreads s u ∧ bit u.pkg.rcctl.toNat 2 = en) :=
  does_of (congrArg Host.Outcome.next (manageIf_true hon rfl _)) rfl ⟨sameThreads_of_eq rfl rfl rfl, bit_rcctl s.pkg.rcctl en⟩

/-! ### Measurements (R466) -/

theorem attest_answers {nonce : List Byte} (hlen : nonce.length = 32) : exec (.attest nonce) s = .next (s.tell (.mgmt 0
    (measBytes s ++ nonce ++ Config.signature (measBytes s ++ nonce) ++ Config.certificate))) :=
  congrArg Host.Outcome.next ((manage_on hon _).trans (if_pos hlen))

theorem extend_measures {i : Nat} {digest : List Byte} (hlo : 4 ≤ i) (hhi : i ≤ 7) (hlen : digest.length = 64) :
    Does s (.extend i digest) (fun u => SameThreads s u ∧ ∀ m, m < 8 → u.mgmt.meas.toList.getD m 0 =
      if m = i then Config.shake256 ((List.range 64).map (fun j => (s.mgmt.meas.toList.getD i 0).extractLsb' (8 * j) 8) ++ digest)
      else s.mgmt.meas.toList.getD m 0) :=
  does_of (congrArg Host.Outcome.next (manageIf_true hon (decide_eq_true ⟨hlo, hhi, hlen⟩) _)) rfl
    ⟨sameThreads_of_eq rfl rfl rfl, fun _ _ => measure_meas s (by omega) digest⟩

/-! ### Resets (R29, R465) -/

/-- Each of the three resets of a device that is on is the warm one. -/
theorem warmResets : exec .conventionalReset s = .next s.warmReset ∧ exec .hotReset s = .next s.warmReset ∧
    exec .functionLevelReset s = .next s.warmReset := by
  have hgo : (if s.mgmt.off then s else s.warmReset) = s.warmReset := if_neg (by simp [hon])
  exact ⟨congrArg Host.Outcome.next hgo, congrArg Host.Outcome.next hgo, congrArg Host.Outcome.next hgo⟩

end

/-- A warm reset adds marks only for blocks in retention. -/
theorem warm_marks {m : Memory} (h : m.blocks = []) : m.warm.marks = m.marks := by simp only [Memory.warm, h, List.filter_nil, List.foldl_nil]

/-! ### Bring-up (R465, R466) -/

section
variable {s : State} (hstage : s.stage < 5) (herr : bits s.pkg.bootstat.toNat 15 8 = 0)
include hstage herr

theorem bootStage_error {err : BitVec 8} (h : err ≠ 0) : exec (.bootStage err) s = .next (s.putBoot err.toNat s.stage) :=
  congrArg Host.Outcome.next ((if_neg (by simp [hstage, herr])).trans (if_pos h))

theorem bootStage_firmware (hzero : s.stage = 0) (hcold : s.mgmt.warm = false) (h : firmwareError s ≠ 0) :
    exec (.bootStage 0) s = .next (s.putBoot (firmwareError s) 1) := by
  have hnext : s.nextStage = 1 := by simp [State.nextStage, hzero, hcold]
  exact congrArg Host.Outcome.next ((if_neg (by simp [hstage, herr])).trans ((if_neg (by decide)).trans (if_pos ⟨hnext, h⟩)))

theorem bootStage_next {n : Nat} (hn : n ≠ 0) (heq : s.stage = n) : exec (.bootStage 0) s = .next ((s.runStage (n + 1)).putBoot 0 (n + 1)) := by
  have hnext : s.nextStage = n + 1 := by simp [State.nextStage, heq, hn]
  refine congrArg Host.Outcome.next ((if_neg (by simp [hstage, herr])).trans ((if_neg (by decide)).trans ?_))
  simp only [hnext]
  exact if_neg (fun h => hn (Nat.succ.inj h.1))

end

/-! ### Replay (R472) -/

/-- A part of a move without the cycle in which it stands at its owner. -/
def unplaced (p : Piece) : Piece := { p with due := 0, piped := false }

theorem sameOp_refl (op : AccOp) : SameOp op op := ⟨rfl, .refl _⟩

theorem sameOp_trans {x y z : AccOp} (h : SameOp x y) (k : SameOp y z) : SameOp x z := ⟨h.1.trans k.1, h.2.trans k.2⟩

/-- The same operation with its parts placed, or ordered, anew. -/
theorem sameOp_withTodo {op : AccOp} {l : List Piece} (h : (l.map unplaced).Perm (op.todo.map unplaced)) : SameOp (op.withTodo l) op := by
  cases op with
  | gather => exact ⟨rfl, h⟩
  | scatter => exact ⟨rfl, h⟩
  | hostWrite => exact ⟨rfl, h⟩
  | _ => exact sameOp_refl _

/-- The parts in this package come first, and none is lost. -/
theorem routed_sameOp (s : State) (a : Access) : (s.routed a).agent = a.agent ∧ SameOp (s.routed a).op a.op := by
  have hperm := List.filter_append_perm (fun p : Piece => !s.isFar p.ga) a.op.todo
  simp only [Bool.not_not] at hperm
  unfold State.routed
  dsimp only
  split
  · exact ⟨rfl, sameOp_withTodo (hperm.map unplaced)⟩
  · exact ⟨rfl, sameOp_refl a.op⟩

/-- An access like `a` has left for its owner; the threads, the cores and the memory are as before. -/
def Sent (s u : State) (a : Access) : Prop := SameThreads s u ∧ ∃ x ∈ u.flights, x.agent = a.agent ∧ SameOp x.op a.op

theorem sent_flyAt (s : State) (a : Access) (d : Nat) : Sent s (s.flyAt a d) a := by
  refine ⟨sameThreads_of_eq rfl rfl rfl, _, List.mem_append_right _ (List.mem_singleton_self _), rfl, sameOp_withTodo ?_⟩
  rw [List.map_map]
  exact .refl _

theorem sent_fly (s : State) (a : Access) : Sent s (s.fly a) a := by
  unfold State.fly
  exact iteInduction (motive := (Sent s · a)) (fun _ => sent_flyAt s a 0) (fun _ => sent_flyAt s.fresh.2 a _)

/-- Over a link, or to an owner of this package, every access goes into the list of those on their way. -/
theorem sent_present (s : State) (a : Access) : Sent s (s.present a) a := by
  obtain ⟨hagent, hop⟩ := routed_sameOp s a
  obtain ⟨hsame, x, hx, hxagent, hxop⟩ := sent_fly s (s.routed a)
  have hsent : Sent s (s.fly (s.routed a)) a := ⟨hsame, x, hx, hxagent.trans hagent, sameOp_trans hxop hop⟩
  unfold State.present
  dsimp only
  split
  · split <;> exact hsent
  · exact hsent

theorem hostStart_sends (s : State) (g n : Nat) (op : AccOp) : SameThreads s (s.hostStart g n op) ∧
    (s.hostStart g n op).host.busy = some s.sched.seq ∧ ∃ x ∈ (s.hostStart g n op).flights, x.agent = .host ∧ SameOp x.op op := by
  obtain ⟨hsame, hx⟩ := sent_present s.fresh.2 { seq := s.fresh.1, agent := .host, op := op, ga := g, va := 0, size := n }
  exact ⟨hsame, rfl, hx⟩

section
variable {s : State}

theorem applyRecord_bar2 (hsrc : bits (s.readN (s.replayGa + 8) 8) 63 60 = 1) :
    let off := s.readN (s.replayGa + 8) 8 % 2 ^ 52
    let k := 16 * (bits (s.readN (s.replayGa + 8) 8) 59 54 + 1)
    let a := s.bar2Ga off
    s.mapCheck a k .plain 0 = none → gaSpace a ≠ 5 → s.applyRecord =
      s.hostStart a k (.hostWrite (s.pieces false a 0 0 k) ((upFrom 0 k).map (fun j => some (s.byte (s.replayGa + 16 + j))))) := by
  intro off k a hmap hspace
  unfold State.applyRecord
  dsimp only
  rw [hsrc, if_neg (by decide), if_pos rfl, if_neg (by rw [hmap]; decide), if_neg hspace]

theorem exec_replayApply (hdue : s.replayDue = true) : exec .replayApply s = .next (State.after { s.applyRecord with
    host := { s.applyRecord.host with replayAt := s.host.replayAt + 1 + (bits (s.readN (s.replayGa + 8) 8) 59 54 + 1) } } 0 .replayApply) :=
  congrArg Host.Outcome.next (if_neg (by rw [hdue]; decide))

theorem replayApply_sends {k a : Nat} {op : AccOp} (hdue : s.replayDue = true) (happly : s.applyRecord = s.hostStart a k op)
    (hk : k / 16 = bits (s.readN (s.replayGa + 8) 8) 59 54 + 1) : ∃ u, exec .replayApply s = .next u ∧
      u.host.replayAt = s.host.replayAt + 1 + k / 16 ∧ SameThreads s u ∧ u.host.busy = some s.sched.seq ∧
      ∃ x ∈ u.flights, x.agent = .host ∧ SameOp x.op op := by
  obtain ⟨hsame, hbusy, hsent⟩ := hostStart_sends s a k op
  refine ⟨_, exec_replayApply hdue, ?_⟩
  rw [happly, hk]
  exact ⟨rfl, hsame, hbusy, hsent⟩

end

/-- Settles O53: a command's answer follows from the one test that it makes; the rest is what its change of the state leaves. -/
theorem management : Obligations.Management := by
  intro s c bank row off n i watts sensor cmd mask en pkg count nonce err
  refine ⟨fun hoff => ?off, fun hon => ?on, ?firmware, rfl, rfl, ⟨_, _, rfl, rfl, sameThreads_of_eq rfl rfl rfl⟩, ?reset, ?boot, ?replay⟩
  case off =>
    exact ⟨turned_of_off hoff rfl, turned_of_off hoff rfl, turned_of_off hoff rfl, turned_of_off hoff rfl, turned_of_off hoff rfl,
      turned_of_off hoff rfl, turned_of_off hoff rfl, turned_of_off hoff rfl⟩
  case on =>
    obtain ⟨hconventional, hhot, hfunction⟩ := warmResets hon
    exact ⟨fun hc => setret_sets hon hc mask, fun hc => setret_invalid hon hc mask, patrol_enables hon en,
      fun hc hbank hrow hspare => ⟨repair_now hon hc hbank hrow hspare, repair_later hon hc hbank hrow hspare⟩,
      powercap_sets hon, powercap_invalid hon, chainnum_sets hon, fun hready => chainnum_ready hon hready pkg count, replay_sets hon en,
      attest_answers hon, extend_measures hon,
      s.warmReset, hconventional, hhot, hfunction, rfl, warm_marks, rfl, rfl, rfl, rfl, rfl, fun _ => rfl⟩
  case firmware => exact does_of (ev := .firmwareUpdate nonce) rfl rfl ⟨rfl, sameThreads_of_eq rfl rfl rfl⟩
  case reset => exact ⟨_, rfl, rfl, rfl, rfl, rfl, rfl, rfl, rfl, rfl, rfl, rfl, rfl, rfl, rfl, rfl⟩
  case boot =>
    intro hstage herr
    exact ⟨bootStage_error hstage herr, fun h => ⟨_, bootStage_next hstage herr (by decide) h, rfl, rfl, rfl, rfl⟩,
      fun h => ⟨_, bootStage_next hstage herr (by decide) h, rfl⟩, bootStage_firmware hstage herr⟩
  case replay =>
    exact fun hdue hsrc hmap hspace => replayApply_sends hdue (applyRecord_bar2 hsrc hmap hspace) (Nat.mul_div_cancel_left _ (by decide))

end Sys2Proof.Proofs.ManagementPort
end
